-- ==== Sys2Proof/Word.lean ====
section
/-! DEFINITION. The widths of R2 (00_scope.md) and the small arithmetic every block uses: two's-complement reading of a
natural number, saturation, clamping. -/

namespace Sys2Proof

/-- A word of the W or P space is 16 bits (R2). -/
abbrev Word := BitVec 16

/-- A dword is 32 bits (R2). -/
abbrev DWord := BitVec 32

/-- A qword is 64 bits (R2). -/
abbrev QWord := BitVec 64

/-- The signed reading of the low `w` bits of `n`. -/
def sx (w n : Nat) : Int :=
  if n % 2 ^ w < 2 ^ (w - 1) then (n % 2 ^ w : Nat) else (n % 2 ^ w : Nat) - (2 ^ w : Nat)

/-- The low `w` bits of an integer. -/
def toU (w : Nat) (i : Int) : Nat := (i % ((2 ^ w : Nat) : Int)).toNat

/-- `i` limited to the range `lo` to `hi`. -/
def clampI (lo hi i : Int) : Int := if i < lo then lo else if hi < i then hi else i

/-- `i` limited to the s32 range: the helper sat32() of the spec's notation. -/
def sat32 (i : Int) : Int := clampI (-2147483648) 2147483647 i

/-- `n` limited to `w` bits: a saturating counter's next value is `satU w (n + 1)`. -/
def satU (w n : Nat) : Nat := if 2 ^ w ≤ n then 2 ^ w - 1 else n

/-- Bit `i` of `n`, as a number. -/
def bitOf (n i : Nat) : Nat := n / 2 ^ i % 2

/-- Bit `i` of `n`. -/
def tst (n i : Nat) : Bool := n.testBit i

/-- `n` with bit `i` set. -/
def setBit (n i : Nat) : Nat := n ||| 2 ^ i

/-- `n` with bit `i` cleared. -/
def clrBit (n i : Nat) : Nat := if n.testBit i then n - 2 ^ i else n

/-- 1 for true, 0 for false. -/
def b2n (b : Bool) : Nat := if b then 1 else 0

/-- The number of ones among the low 32 bits. -/
def popCount32 (n : Nat) : Nat := (List.range 32).foldl (fun a i => a + bitOf n i) 0

/-- The quotient rounded up. -/
def ceilDiv (a b : Nat) : Nat := (a + b - 1) / b

end Sys2Proof
end

