-- ==== Sys2Proof/Syntax.lean ====
section
/-! DEFINITION. The commands the block takes, as terms: the operand types and the one inductive Instr. -/

namespace Sys2Proof

/-- The memory arrays (Table 1.4, and the MRAM of R20). `loc t`: local data of Ox tile t. `bell b`: Bellwether bank.
`iHalf`, `qHalf`: the halves of the I and Q images (R144). `prog`: bank A (false) or B (true). Of `muleTab`, `forceTab`,
`sched`, `nvBuf` and `icache` only the check bits are kept here; their contents stand in registers and in the NV state. -/
inductive Arr where
  | loc (t : Fin 16) | bell (b : Bool) | iHalf (h : Bool) | qHalf (h : Bool) | mark | inst | live | win
  | prog (b : Bool) | mram | can (c : Fin 8) | henBuf | muleTab | forceTab | sched (x : Fin 4) | nvBuf
  | icache (t : Fin 16)
deriving DecidableEq, Repr, Inhabited

/-- The check bits of one granule (R19, R22, R24): good, a correctable error, an uncorrectable error. -/
inductive Ecc where
  | ok | corr | unc
deriving DecidableEq, Repr, Inhabited

/-- A core: Ox tile 0 to 15, or the Bellwether, 16 (R12, R15). -/
abbrev CoreId := Fin 17

/-- Who makes an access to a register or a shared memory: a core or the host (R33, R45). -/
inductive Req where
  | core (c : CoreId)
  | host
deriving DecidableEq, Repr, Inhabited

/-- The areas of the long bit forms (Table 3.6). -/
inductive BitArea where
  | image | mark | inst | live | own
deriving DecidableEq, Repr, Inhabited

/-- The bit operand of a bit instruction: base selector and signed offset of a short form (R65), or area and bit
address of a long form (R67). -/
inductive BitOpd where
  | short (base : Fin 4) (off : BitVec 8)
  | long (area : BitArea) (b : BitVec 20)
deriving DecidableEq, Repr, Inhabited

/-- One operand of a register move: class and index (Table 3.8). Part 0 is bits 15:0, 1 bits 31:16, 2 the guard. -/
inductive MoveOpd where
  | d (n : Fin 16) | a (n : Fin 8) | acc (k : Fin 4) (part : Fin 3) | sr | bstk
deriving DecidableEq, Repr, Inhabited

/-- Address modes (Table 3.10). -/
inductive AddrMode where
  | ind | postInc | preDec | modif
deriving DecidableEq, Repr, Inhabited

/-- Size and register of a load or store (Table 3.11): one word, a pair, an accumulator as a pair or as a word. -/
inductive MemOpd where
  | word (d : Fin 16) | pair (d : Fin 16) | accPair (k : Fin 4) | accWord (k : Fin 4)
deriving DecidableEq, Repr, Inhabited

/-- The data ALU operations in the order of their codes (R75). -/
inductive AluOp where
  | add | adc | sub | sbc | cmp | and | or | xor | not | neg | lsl | lsr | asr | ror | adds | subs
deriving DecidableEq, Repr, Inhabited

/-- Branch conditions 0x0 to 0xD (Table 3.14). -/
inductive Cond where
  | ra | eq | ne | cs | cc | mi | pl | vs | gt | le | ge | lt | ct | cf
deriving DecidableEq, Repr, Inhabited

/-- The target of a branch or call: a short displacement or a long absolute address (R78). -/
inductive Target where
  | short (d : BitVec 8) | long (t : BitVec 21)
deriving DecidableEq, Repr, Inhabited

/-- The operand of CALLI: short, with the new A6 from A5, or long, with it from An (R78). -/
inductive CalliOpd where
  | short (d : BitVec 8) | long (an : Fin 8) (t : BitVec 21)
deriving DecidableEq, Repr, Inhabited

/-- What authenticated debug does to a tile (R143, R497): halt it, let it run on, or step one instruction. -/
inductive DebugAct where
  | halt | run | step
deriving DecidableEq, Repr, Inhabited

/-- The two ports of a ring (R245). -/
inductive RingPort where
  | outp | inp
deriving DecidableEq, Repr, Inhabited

/-- A frame that arrives at a ring port: its octets from the destination address to the FCS, and whether a code-group error
lies in it (R250, R278). The moment its reference point arrives is the timebase when the command runs. -/
structure RxFrame where
  octets : List (BitVec 8)
  codeErr : Bool
deriving DecidableEq, Repr, Inhabited

/-- The configuration registers of an axis that R226 guards. -/
inductive AxisCfgReg where
  | ctrl | map | fbCfg | posOfs | posSp | velSp | accSp
deriving DecidableEq, Repr, Inhabited

/-- The configuration registers of a ring that R265 guards: CFG, or dword `hi` of schedule entry k. -/
inductive RingCfgReg where
  | cfg | sched (k : Fin 1024) (hi : Bool)
deriving DecidableEq, Repr, Inhabited


/-- A CAN frame (Table 12.5): ID placed as in MATCH, DLC, the data bytes, and the timebase at its SOF. -/
structure CanFrame where
  esi : Bool
  xtd : Bool
  rtr : Bool
  id : BitVec 29
  fdf : Bool
  brs : Bool
  dlc : Fin 16
  data : List (BitVec 8)
  sof : BitVec 64
deriving DecidableEq, Repr, Inhabited

/-- How a transmitted frame ends (R305): acknowledged, arbitration lost, or an error; `count`: the error adds 8 to TEC. -/
inductive CanTx where
  | ok | lost | err (count : Bool)
deriving DecidableEq, Repr, Inhabited

/-- A protocol error that moves an error counter of a channel: REC by 1, REC by 8, or TEC by 8 (R306). -/
inductive CanErr where
  | rec1 | rec8 | tec8
deriving DecidableEq, Repr, Inhabited


/-- A register write (R6, R42, R45, R46): a core's 32-bit access at a W address, or a host write TLP to BAR0 as a dword, a
qword, or of a size or alignment that R46 does not allow. -/
inductive RegAcc where
  | core (c : CoreId) (addr : BitVec 24) (v : BitVec 32)
  | dword (off : BitVec 22) (v : BitVec 32)
  | qword (off : BitVec 22) (v : BitVec 64)
  | other (off : BitVec 22)
  | outside
deriving DecidableEq, Repr, Inhabited

/-- A host read TLP (R46, R331): a dword or qword of BAR0, one of another size or alignment, `len` bytes of BAR2, or an
address outside both. -/
inductive HostRd where
  | dword (off : BitVec 22)
  | qword (off : BitVec 22)
  | other (off : BitVec 22)
  | bar2 (off : BitVec 21) (len : Nat)
  | outside
deriving DecidableEq, Repr, Inhabited

/-- How a read of host memory by the T9648 ends (R339, R348): with its data, or with Unsupported Request, Completer Abort or
a poisoned completion. -/
inductive HostRead where
  | data (ws : List (BitVec 16))
  | unsupported | aborted | poisoned
deriving DecidableEq, Repr, Inhabited


/-- A fabric frame (Table 15.3), and whether its CRC-32 is correct (R368, R370). -/
structure FabFrame where
  kind : BitVec 8
  ver : BitVec 8
  dst : BitVec 32
  src : BitVec 32
  ttl : BitVec 8
  seq : BitVec 16
  payload : List (BitVec 8)
  crcOk : Bool
deriving DecidableEq, Repr, Inhabited


end Sys2Proof

namespace Sys2Proof.Machine

/-- A sparse table: entries in strictly rising key order, none equal to what an unlisted key reads as
(Machine/Store.lean has its operations and the Bool that says the form holds). -/
abbrev Store (α : Type) := List (Nat × α)

/-- The fault action in force (R216, R217). -/
inductive FAction where
  | off | hold | qstop
deriving DecidableEq, Repr, Inhabited

/-- The RW parameters of one axis as taken at t_n (R205). -/
structure AxisPar where
  map : BitVec 32          -- MAP; 0 while a mapping to another running ring waits for that ring's t_n
  ctrl : BitVec 32
  fbCfg : BitVec 32
  posOfs : BitVec 32
  posSp : BitVec 32
  velSp : BitVec 32
  accSp : BitVec 32
  outMax : BitVec 32
  outMin : BitVec 32
  vcmdMax : BitVec 32
  trqOfs : BitVec 32
  feLim : BitVec 32
  feTime : BitVec 32
  feWarn : BitVec 32
  enTime : BitVec 32
  drvCtrl : BitVec 32
deriving DecidableEq, Repr, Inhabited

/-- What the Mule holds of one axis besides its registers. -/
structure AxisSt where
  cmd : Nat                -- CMD bits written since the last t_n (R204)
  par : AxisPar
  action : FAction
  afterHold : Bool         -- the last sample was a hold sample (R208)
  everFresh : Bool         -- a fresh sample exists (R215)
  enCount : Nat            -- samples spent in ENABLING
  listSwap : Bool          -- PEND belongs to a list request (R211)
  nextPos : BitVec 32      -- the interpolator's setpoint of the next sample (R229)
  nextVel : BitVec 32
  nextAcc : BitVec 32
  gotFb : Bool             -- the feedback of this cycle has arrived
  age : Nat                -- its age, position, velocity and status
  fbPos : BitVec 32
  fbVel : BitVec 32
  fbStat : BitVec 16
  listDone : Bool          -- swapped by a list request that is not complete (R211)
deriving DecidableEq, Repr, Inhabited

/-- A segment as planned (R231, R236): jerk phases, scaled limits as fractions, and the path state. -/
structure PlanSt where
  tag : Nat
  dwell : Nat
  evEnd : Bool
  evStart : Bool
  waitGo : Bool
  sync : Bool
  vscl : Nat
  ascl : Nat
  jscl : Nat
  delta : List Int
  start : List (BitVec 32)
  rho : List Int
  dist : Nat               -- D
  nj : Nat
  na : Nat
  nv : Nat
  jp : Nat
  n : Nat                  -- N
  aNum : Nat               -- A as a fraction, in counts per sample^2
  aDen : Nat
  jNum : Nat               -- J as a fraction, in counts per sample^3
  jDen : Nat
  needGo : Bool            -- a WAIT_GO segment that has not consumed a GO
  remain : Bool            -- the interrupted remainder of R242
deriving DecidableEq, Repr, Inhabited

/-- What the interpolator holds of one group besides its registers. -/
structure GroupSt where
  cmd : Nat                -- CMD bits written since the last t_n
  plan : Option PlanSt     -- the current segment
  k : Nat                  -- motion samples done
  a : Int                  -- path acceleration, velocity and position in 2^-48
  v : Int
  s : Int
  dwellLeft : Nat
  stopA : Int              -- As and Js of the stop in progress, in 2^-48
  stopJ : Int
  rest : Option PlanSt     -- the interrupted remainder, its deltas to be planned at RESUME (R242)
  targets : List (BitVec 32)
  syncMet : Option (BitVec 64)   -- the start moment of a met sync condition (R237)
  cause : Nat              -- HCAUSE of the stop in progress
  initPlan : Bool          -- enabled since the last t_n: planned positions are still to be taken (R228)
  lastT : BitVec 64        -- the t_n last worked on
  fin : Bool               -- a segment has completed and no other been taken yet (R235)
deriving DecidableEq, Repr, Inhabited

/-- Gantry couples hold ux between samples (R220) and DIFF_LIM as taken at t_n (R205); a list swap holds the cycle time of
its boundary (R211); event sources collect until the sample's end, and those already caused in the cycle in progress of a
cycle time are kept (R224, R243). -/
structure MuleSt where
  ux : Store (BitVec 32)
  diffLim : Store (BitVec 32)
  listT : Nat
  evs : List Nat
  seen : List (Nat × Nat)  -- cycle time, source
deriving DecidableEq, Repr, Inhabited

end Sys2Proof.Machine

namespace Sys2Proof

/-- A HEARTBEAT (Table 16.2) with the sender's UID and, where R494 applies, its nonce and proof; `act`: the level of
PARTNER_ACT at that moment. -/
structure Heartbeat where
  uid : BitVec 64
  role : Fin 4
  sync : Fin 4
  side : Bool
  ver : BitVec 16
  point : BitVec 32
  cyc : BitVec 32
  nonce : BitVec 128
  proof : BitVec 128
  act : Bool
deriving DecidableEq, Repr, Inhabited

/-- A Mule-table write of the mirror stream (R392): a register with the bits written. -/
structure MuleWr where
  addr : BitVec 24
  mask : BitVec 32
  val : BitVec 32
deriving DecidableEq, Repr, Inhabited

/-- An axis record (R392): the sample's inputs, and the check values in the order the rule names them. -/
structure AxisRec where
  n : Fin 128
  fbPos : BitVec 32
  fbVel : BitVec 32
  stat : BitVec 16
  age : BitVec 8
  checks : List (BitVec 32)
deriving DecidableEq, Repr, Inhabited

/-- A Mule record (R392): ring header and axis records of one cycle; `ok`: its MULE_END came with a correct CRC. -/
structure MuleRec where
  x : Fin 4
  cyc : BitVec 32
  state : Fin 8
  healed : Bool
  recs : List AxisRec
  ok : Bool
deriving DecidableEq, Repr, Inhabited

/-- A CHANGE frame (R194, R195, R197): OPEN, staged words at an offset, PREPARE, the standby's result, the change marker
with its PKG_ID, ABORT. -/
inductive ChangeFrame where
  | opened
  | words (p : BitVec 21) (ws : List (BitVec 16))
  | prepare
  | result (ok : Bool)
  | marker (id : BitVec 32)
  | abort
deriving DecidableEq, Repr, Inhabited

/-- What the copy of a resynchronization holds besides its lines (R405): the registers of the Mule tables and of the ring
configuration and schedule, LAT_k of each ring's nodes by 32 x + k, and the states of the Mule and the interpolator. -/
structure SyncCopy where
  regs : List (Nat × BitVec 32)
  lat : List (Nat × Nat)
  axes : Machine.Store Machine.AxisSt
  groups : Machine.Store Machine.GroupSt
  mule : Machine.MuleSt
deriving DecidableEq, Repr, Inhabited


/-- What a boot meets (22_boot_update.md): the TRNG draws whose health test fails before one passes (R489), whether the
first copy of a staged image differs from it, and the granules that the second copy then leaves in error (Table 22.3). -/
structure BootEnv where
  badDraws : Fin 10
  copyBad : Bool
  copyErr : List (Fin 131072 × Ecc)
deriving DecidableEq, Repr, Inhabited

/-- Where a loss of supply cuts what is in progress: the lifecycle bits that have been burnt, how many words of each MRAM
record write in progress have reached the array, and the granules of a page write in progress that it leaves in error
(R487, R502). -/
structure Cut where
  lc : BitVec 16
  words : Nat
  page : List (Fin 32 × Ecc)
deriving DecidableEq, Repr, Inhabited


/-- The commands of the T9648: one constructor for each row of spec/opcode_table.json, in the table's order, with the
row's operands. `c` and `t` name a core or a tile, `r` who makes a register access. -/
inductive Instr where
  /-- NOP (R63). -/
  | nop (c : CoreId)
  /-- WFE (R105). -/
  | wfe (c : CoreId)
  /-- WFE_WAKE (R105). -/
  | wfeWake (c : CoreId)
  /-- SEV (R106). -/
  | sev (c : CoreId) (n : Fin 8)
  /-- SEVF (R106). -/
  | sevf (c : CoreId) (n : Fin 8)
  /-- WUNT (R107). -/
  | wunt (c : CoreId) (an : Fin 8)
  /-- WUNT_DONE (R107). -/
  | wuntDone (c : CoreId)
  /-- FENCE_R (R108). -/
  | fenceR (c : CoreId)
  /-- FENCE_W (R108). -/
  | fenceW (c : CoreId)
  /-- FENCE_ALL (R108). -/
  | fenceAll (c : CoreId)
  /-- FENCE_DONE (R108). -/
  | fenceDone (c : CoreId)
  /-- RET (R79). -/
  | ret (c : CoreId)
  /-- RETI (R104). -/
  | reti (c : CoreId)
  /-- TRAP (R109). -/
  | trap (c : CoreId) (u : BitVec 8)
  /-- MODE (R110). -/
  | mode (c : CoreId) (m : Bool)
  /-- JMP_AN (R102). -/
  | jmpAn (c : CoreId) (an : Fin 8)
  /-- CALL_AN (R79). -/
  | callAn (c : CoreId) (an : Fin 8)
  /-- RESERVED_ENCODING (R61). -/
  | reservedEncoding (c : CoreId)
  /-- LDB (R92). -/
  | ldb (c : CoreId) (x : BitOpd)
  /-- LDBN (R92). -/
  | ldbn (c : CoreId) (x : BitOpd)
  /-- ANDB (R92). -/
  | andb (c : CoreId) (x : BitOpd)
  /-- ANDBN (R92). -/
  | andbn (c : CoreId) (x : BitOpd)
  /-- ORB (R92). -/
  | orb (c : CoreId) (x : BitOpd)
  /-- ORBN (R92). -/
  | orbn (c : CoreId) (x : BitOpd)
  /-- XORB (R92). -/
  | xorb (c : CoreId) (x : BitOpd)
  /-- XORBN (R92). -/
  | xorbn (c : CoreId) (x : BitOpd)
  /-- STB (R93). -/
  | stb (c : CoreId) (x : BitOpd)
  /-- STBN (R93). -/
  | stbn (c : CoreId) (x : BitOpd)
  /-- SETB (R93). -/
  | setb (c : CoreId) (x : BitOpd)
  /-- CLRB (R93). -/
  | clrb (c : CoreId) (x : BitOpd)
  /-- EDGR (R94). -/
  | edgr (c : CoreId) (x : BitOpd)
  /-- EDGF (R94). -/
  | edgf (c : CoreId) (x : BitOpd)
  /-- CPUSH (R95). -/
  | cpush (c : CoreId)
  /-- CPAND (R95). -/
  | cpand (c : CoreId)
  /-- CPOR (R95). -/
  | cpor (c : CoreId)
  /-- CPXOR (R95). -/
  | cpxor (c : CoreId)
  /-- CNOT (R95). -/
  | cnot (c : CoreId)
  /-- CSET (R95). -/
  | cset (c : CoreId)
  /-- CCLR (R95). -/
  | cclr (c : CoreId)
  /-- MOVB (R95). -/
  | movb (c : CoreId) (toCb : Bool) (n : Fin 8) (b : Fin 16)
  /-- MOVE (R96). -/
  | move (c : CoreId) (dst src : MoveOpd)
  /-- LOAD (R97). -/
  | load (c : CoreId) (an : Fin 8) (mode : AddrMode) (x : MemOpd)
  /-- STORE (R97). -/
  | store (c : CoreId) (an : Fin 8) (mode : AddrMode) (x : MemOpd)
  /-- MOVQ (R99). -/
  | movq (c : CoreId) (n : Fin 16) (q : BitVec 6)
  /-- ADDQ (R99). -/
  | addq (c : CoreId) (n : Fin 16) (q : BitVec 6)
  /-- CMPQ (R99). -/
  | cmpq (c : CoreId) (n : Fin 16) (q : BitVec 6)
  /-- MOVQ_A (R99). -/
  | movqA (c : CoreId) (an : Fin 8) (u : BitVec 6)
  /-- ADD (R98). -/
  | add (c : CoreId) (dd ds : Fin 16)
  /-- ADC (R98). -/
  | adc (c : CoreId) (dd ds : Fin 16)
  /-- SUB (R98). -/
  | sub (c : CoreId) (dd ds : Fin 16)
  /-- SBC (R98). -/
  | sbc (c : CoreId) (dd ds : Fin 16)
  /-- CMP (R98). -/
  | cmp (c : CoreId) (dd ds : Fin 16)
  /-- AND (R98). -/
  | and (c : CoreId) (dd ds : Fin 16)
  /-- OR (R98). -/
  | or (c : CoreId) (dd ds : Fin 16)
  /-- XOR (R98). -/
  | xor (c : CoreId) (dd ds : Fin 16)
  /-- NOT (R98). -/
  | not (c : CoreId) (dd ds : Fin 16)
  /-- NEG (R98). -/
  | neg (c : CoreId) (dd ds : Fin 16)
  /-- LSL (R98). -/
  | lsl (c : CoreId) (dd ds : Fin 16)
  /-- LSR (R98). -/
  | lsr (c : CoreId) (dd ds : Fin 16)
  /-- ASR (R98). -/
  | asr (c : CoreId) (dd ds : Fin 16)
  /-- ROR (R98). -/
  | ror (c : CoreId) (dd ds : Fin 16)
  /-- ADDS (R98). -/
  | adds (c : CoreId) (dd ds : Fin 16)
  /-- SUBS (R98). -/
  | subs (c : CoreId) (dd ds : Fin 16)
  /-- MAC (R100). -/
  | mac (c : CoreId) (k : Fin 4) (dx dy : Fin 16)
  /-- MSU (R100). -/
  | msu (c : CoreId) (k : Fin 4) (dx dy : Fin 16)
  /-- MPY (R100). -/
  | mpy (c : CoreId) (k : Fin 4) (dx dy : Fin 16)
  /-- ACC_CLR (R100). -/
  | accClr (c : CoreId) (k : Fin 4)
  /-- ADDACC (R100). -/
  | addacc (c : CoreId) (k : Fin 4) (o : BitVec 4)
  /-- SUBACC (R100). -/
  | subacc (c : CoreId) (k : Fin 4) (o : BitVec 4)
  /-- NEGACC (R100). -/
  | negacc (c : CoreId) (k : Fin 4)
  /-- ASL (R100). -/
  | asl (c : CoreId) (k : Fin 4) (o : BitVec 4)
  /-- ACC_ASR (R100). -/
  | accAsr (c : CoreId) (k : Fin 4) (o : BitVec 4)
  /-- RND (R100). -/
  | rnd (c : CoreId) (k : Fin 4)
  /-- SAT32 (R100). -/
  | sat32 (c : CoreId) (k : Fin 4)
  /-- ADDA_IMM (R101). -/
  | addaImm (c : CoreId) (an : Fin 8) (u : BitVec 6)
  /-- SUBA (R101). -/
  | suba (c : CoreId) (an : Fin 8) (u : BitVec 6)
  /-- ADDA_D (R77). -/
  | addaD (c : CoreId) (an : Fin 8) (m : Fin 16)
  /-- ADDA_A (R77). -/
  | addaA (c : CoreId) (an am : Fin 8)
  /-- MSET (R101). -/
  | mset (c : CoreId) (k : Fin 4) (m : Fin 16)
  /-- MGET (R101). -/
  | mget (c : CoreId) (k : Fin 4) (m : Fin 16)
  /-- BRANCH (R102). -/
  | branch (c : CoreId) (cnd : Cond) (t : Target)
  /-- CALL (R79). -/
  | call (c : CoreId) (t : Target)
  /-- CALLI (R103). -/
  | calli (c : CoreId) (x : CalliOpd)
  /-- TBR (R111). -/
  | tbr (c : CoreId) (p : Fin 4)
  /-- TBST (R111). -/
  | tbst (c : CoreId) (an : Fin 8)
  /-- TELAP (R112). -/
  | telap (c : CoreId) (unit : Fin 4) (an p : Fin 8)
  /-- TCMP (R112). -/
  | tcmp (c : CoreId) (unit : Fin 4) (an p : Fin 8)
  /-- LDI (R113). -/
  | ldi (c : CoreId) (n : Fin 16) (v : BitVec 16)
  /-- ALUI (R113). -/
  | alui (c : CoreId) (n : Fin 16) (op : AluOp) (v : BitVec 16)
  /-- LDD (R113). -/
  | ldd (c : CoreId) (an : Fin 8) (x : MemOpd) (disp : BitVec 16)
  /-- STD (R113). -/
  | std (c : CoreId) (an : Fin 8) (x : MemOpd) (disp : BitVec 16)
  /-- LDI_A (R113). -/
  | ldiA (c : CoreId) (an : Fin 8) (v : BitVec 24)
  /-- LIT (R114). -/
  | lit (c : CoreId) (u : BitVec 12)
  /-- LITH (R114). -/
  | lith (c : CoreId) (u : BitVec 12)
  /-- STK_ADD (R114). -/
  | stkAdd (c : CoreId)
  /-- STK_SUB (R114). -/
  | stkSub (c : CoreId)
  /-- STK_AND (R114). -/
  | stkAnd (c : CoreId)
  /-- STK_OR (R114). -/
  | stkOr (c : CoreId)
  /-- STK_XOR (R114). -/
  | stkXor (c : CoreId)
  /-- STK_SHL (R114). -/
  | stkShl (c : CoreId)
  /-- STK_SHR (R114). -/
  | stkShr (c : CoreId)
  /-- STK_ASR (R114). -/
  | stkAsr (c : CoreId)
  /-- STK_MUL (R114). -/
  | stkMul (c : CoreId)
  /-- STK_EQ (R114). -/
  | stkEq (c : CoreId)
  /-- STK_LTS (R114). -/
  | stkLts (c : CoreId)
  /-- STK_LTU (R114). -/
  | stkLtu (c : CoreId)
  /-- STK_NOT (R114). -/
  | stkNot (c : CoreId)
  /-- STK_NEG (R114). -/
  | stkNeg (c : CoreId)
  /-- DUP (R114). -/
  | dup (c : CoreId)
  /-- DROP (R114). -/
  | drop (c : CoreId)
  /-- SWAP (R114). -/
  | swap (c : CoreId)
  /-- OVER (R114). -/
  | over (c : CoreId)
  /-- ROT (R114). -/
  | rot (c : CoreId)
  /-- POPA_L (R114). -/
  | popaL (c : CoreId) (k : Fin 8)
  /-- POPA_H (R114). -/
  | popaH (c : CoreId) (k : Fin 8)
  /-- PUSHA_L (R114). -/
  | pushaL (c : CoreId) (k : Fin 8)
  /-- PUSHA_H (R114). -/
  | pushaH (c : CoreId) (k : Fin 8)
  /-- INCA (R114). -/
  | inca (c : CoreId) (k : Fin 8)
  /-- LD (R114). -/
  | ld (c : CoreId) (k : Fin 8)
  /-- LD_INC (R114). -/
  | ldInc (c : CoreId) (k : Fin 8)
  /-- ST (R114). -/
  | st (c : CoreId) (k : Fin 8)
  /-- ST_INC (R114). -/
  | stInc (c : CoreId) (k : Fin 8)
  /-- STK_BRA (R114). -/
  | stkBra (c : CoreId) (q : BitVec 12)
  /-- BZ (R114). -/
  | bz (c : CoreId) (q : BitVec 12)
  /-- STK_CALL (R114). -/
  | stkCall (c : CoreId) (q : BitVec 12)
  /-- EVENT_ENTRY (R122). -/
  | eventEntry (t : Fin 16)
  /-- T4_MODE_WRITE (R137). -/
  | t4ModeWrite (r : Req) (t : Fin 16) (v : Bool)
  /-- T4_EVENT_TIMEOUT (R143). -/
  | t4EventTimeout (t : Fin 16)
  /-- PATROL_SCRUB (R23). -/
  | patrolScrub (a : Arr) (granule : Nat) (found : Ecc)
  /-- CLOCK_LOSS (R18). -/
  | clockLoss
  /-- DIE_LINK_TIMEOUT (R11). -/
  | dieLinkTimeout
  /-- MC_STATUS_WRITE (R30). -/
  | mcStatusWrite (r : Req) (v : BitVec 32)
  /-- CE_CLR (R22). -/
  | ceClr (r : Req)
  /-- INJ (R24). -/
  | inj (r : Req)
  /-- SETUP_LOCK_SET (R48). -/
  | setupLockSet (r : Req)
  /-- AE_CLR (R53). -/
  | aeClr (r : Req)
  /-- AE_LOG_CLEAR (R53). -/
  | aeLogClear (r : Req)
  /-- REGISTER_WRITE (R6). -/
  | registerWrite (x : RegAcc)
  /-- POWER_ON_RESET (R526). -/
  | powerOnReset (cut : Cut) (env : BootEnv)
  /-- BROWN_OUT (R524). -/
  | brownOut (rails : BitVec 6) (cut : Cut)
  /-- RESET_PIN (R501). -/
  | resetPin
  /-- FENCE_N_RESET (R389). -/
  | fenceNReset
  /-- DEV_RESET_DELAY (R499). -/
  | devResetDelay
  /-- INTERNAL_RESET (R503). -/
  | internalReset (lc : BitVec 16) (env : BootEnv)
  /-- START_WARM (R149). -/
  | startWarm (r : Req) (stopOut : Bool)
  /-- START_COLD (R149). -/
  | startCold (r : Req) (stopOut : Bool)
  /-- SCAN_STOP (R149). -/
  | scanStop (r : Req) (stopOut : Bool)
  /-- MAX_CLR (R149). -/
  | maxClr (r : Req)
  /-- INIT_DONE (R151). -/
  | initDone
  /-- I_FLIP (R153). -/
  | iFlip
  /-- I_COPY_FORWARD_DONE (R154). -/
  | iCopyForwardDone
  /-- BARRIER_START (R156). -/
  | barrierStart
  /-- BARRIER_END (R156). -/
  | barrierEnd
  /-- Q_FLIP (R159). -/
  | qFlip
  /-- COMMIT_END (R158). -/
  | commitEnd
  /-- ROLLBACK_END (R165). -/
  | rollbackEnd
  /-- SCAN_OVERRUN (R163). -/
  | scanOverrun
  /-- GAP_END (R162). -/
  | gapEnd
  /-- HOST_SNAPSHOT_READ (R347). -/
  | hostSnapshotRead
  /-- CTASK_ENABLE (R168). -/
  | ctaskEnable (r : Req) (k : Fin 8) (ring : Fin 4) (point : Fin 8) (tile : Fin 16) (pc : BitVec 21)
  /-- CLR_ALL (R174). -/
  | clrAll (r : Req)
  /-- CLR_ORPH (R174). -/
  | clrOrph (r : Req)
  /-- OPEN (R180). -/
  | open (r : Req)
  /-- PREPARE (R184). -/
  | prepare (r : Req)
  /-- CHG_COMMIT (R186). -/
  | chgCommit (r : Req)
  /-- ABORT (R180). -/
  | abort (r : Req)
  /-- CHECKING_DONE (R184). -/
  | checkingDone (copyFail : Bool)
  /-- STAGE_DATA_WRITE (R181). -/
  | stageDataWrite (r : Req) (v : BitVec 32)
  /-- STAGE_PTR_WRITE (R181). -/
  | stagePtrWrite (r : Req) (v : BitVec 21)
  /-- COMMIT_POINT (R192). -/
  | commitPoint
  /-- RING_CYCLE_START (R248). -/
  | ringCycleStart (x : Fin 4)
  /-- NODE_FRAME_RECEIVE (R274). -/
  | nodeFrameReceive (x : Fin 4) (port : RingPort) (f : RxFrame)
  /-- WINDOW_CLOSE (R275). -/
  | windowClose (x : Fin 4) (k : Fin 32)
  /-- CYCLE_POINT (R266). -/
  | cyclePoint (x : Fin 4) (p : Fin 8)
  /-- RING_Q_PICKUP (R268). -/
  | ringQPickup (x : Fin 4)
  /-- AXIS_ENABLE (R214). -/
  | axisEnable (r : Req) (n : Fin 128)
  /-- AXIS_DISABLE (R212). -/
  | axisDisable (r : Req) (n : Fin 128)
  /-- CLR_FAULT (R212). -/
  | clrFault (r : Req) (n : Fin 128)
  /-- AXIS_SWAP (R211). -/
  | axisSwap (r : Req) (n : Fin 128)
  /-- PEAK_CLR (R218). -/
  | peakClr (r : Req) (n : Fin 128)
  /-- DIS_ALL (R212). -/
  | disAll (r : Req)
  /-- SWAP_LIST (R211). -/
  | swapList (r : Req)
  /-- COEFFICIENT_WRITE (R210). -/
  | coefficientWrite (r : Req) (n : Fin 128) (bank : Bool) (i : Fin 32) (v : BitVec 32)
  /-- AXIS_CONFIG_WRITE (R226). -/
  | axisConfigWrite (r : Req) (n : Fin 128) (reg : AxisCfgReg) (v : BitVec 32)
  /-- GANTRY_CTRL_WRITE (R222). -/
  | gantryCtrlWrite (r : Req) (g : Fin 16) (v : BitVec 32)
  /-- GANTRY_OFS_WRITE (R220). -/
  | gantryOfsWrite (r : Req) (g : Fin 16) (v : BitVec 32)
  /-- GROUP_ENABLE (R227). -/
  | groupEnable (r : Req) (g : Fin 16) (v : BitVec 32)
  /-- GROUP_CFG_WRITE (R228). -/
  | groupCfgWrite (r : Req) (g : Fin 16) (v : BitVec 32)
  /-- MEMBER_WRITE (R228). -/
  | memberWrite (r : Req) (g : Fin 16) (k : Fin 8) (v : BitVec 32)
  /-- GO (R239). -/
  | go (r : Req) (g : Fin 16)
  /-- STOP (R239). -/
  | stop (r : Req) (g : Fin 16)
  /-- QSTOP (R239). -/
  | qstop (r : Req) (g : Fin 16)
  /-- FLUSH (R239). -/
  | flush (r : Req) (g : Fin 16)
  /-- RESUME (R242). -/
  | resume (r : Req) (g : Fin 16)
  /-- QPTR_WRITE (R233). -/
  | qptrWrite (r : Req) (g : Fin 16) (v : BitVec 32)
  /-- QUEUE_ENTRY_WRITE (R233). -/
  | queueEntryWrite (r : Req) (g : Fin 16) (i : Fin 1024) (v : BitVec 16)
  /-- RING_START (R263). -/
  | ringStart (r : Req) (x : Fin 4)
  /-- RING_STOP (R264). -/
  | ringStop (r : Req) (x : Fin 4)
  /-- LINK_SYNCHRONIZED (R263). -/
  | linkSynchronized (x : Fin 4) (port : RingPort)
  /-- START_STEP_TIMEOUT (R263). -/
  | startStepTimeout (x : Fin 4)
  /-- ENUM_FRAME_SEND (R254). -/
  | enumFrameSend (x : Fin 4)
  /-- ENUM_FRAME_RETURN (R256). -/
  | enumFrameReturn (x : Fin 4) (count dly eseq : Nat)
  /-- RING_SYNC_DONE (R263). -/
  | ringSyncDone (x : Fin 4)
  /-- RING_STOP_DONE (R264). -/
  | ringStopDone (x : Fin 4)
  /-- LINK_DELAY_REQUEST (R255). -/
  | linkDelayRequest (x : Fin 4) (port : RingPort) (lseq turn : Nat)
  /-- MF_LOST (R278). -/
  | mfLost (x : Fin 4)
  /-- RING_PCS_LOSS (R283). -/
  | ringPcsLoss (x : Fin 4) (port : RingPort)
  /-- HEAL_CLOSE (R286). -/
  | healClose (x : Fin 4)
  /-- RING_DEAD_TIMEOUT (R287). -/
  | ringDeadTimeout (x : Fin 4)
  /-- SVC_GO (R272). -/
  | svcGo (r : Req) (x : Fin 4) (node : Fin 32) (op : Fin 4) (index : BitVec 16)
  /-- SVC_TIMEOUT (R257). -/
  | svcTimeout (x : Fin 4)
  /-- CNT_CLR (R291). -/
  | cntClr (r : Req) (x : Fin 4)
  /-- CPT_WRITE (R265). -/
  | cptWrite (r : Req) (x : Fin 4) (p : Fin 8) (v : BitVec 32)
  /-- RING_CONFIG_WRITE (R265). -/
  | ringConfigWrite (r : Req) (x : Fin 4) (reg : RingCfgReg) (v : BitVec 32)
  /-- STANDBY_RING_FRAME (R290). -/
  | standbyRingFrame (x : Fin 4) (port : RingPort) (f : RxFrame)
  /-- CAN_START (R294). -/
  | canStart (r : Req) (c : Fin 8)
  /-- CAN_STOP (R306). -/
  | canStop (r : Req) (c : Fin 8)
  /-- RECOVER (R306). -/
  | recover (r : Req) (c : Fin 8)
  /-- CAN_SYNC_DONE (R306). -/
  | canSyncDone (c : Fin 8)
  /-- CAN_STOP_DONE (R306). -/
  | canStopDone (c : Fin 8)
  /-- RECOVER_DONE (R306). -/
  | recoverDone (c : Fin 8)
  /-- TXREQ_WRITE (R302). -/
  | txreqWrite (r : Req) (c : Fin 8) (v : BitVec 32)
  /-- TXCAN_WRITE (R302). -/
  | txcanWrite (r : Req) (c : Fin 8) (v : BitVec 32)
  /-- MRA_WRITE (R296). -/
  | mraWrite (r : Req) (c : Fin 8) (v : BitVec 13)
  /-- MRW_WRITE (R297). -/
  | mrwWrite (r : Req) (c : Fin 8) (v : BitVec 32)
  /-- MRR_READ (R296). -/
  | mrrRead (r : Req) (c : Fin 8)
  /-- RXQA_WRITE (R301). -/
  | rxqaWrite (r : Req) (c : Fin 8) (q : Fin 2) (n : BitVec 7)
  /-- CAN_FRAME_RECEIVE (R300). -/
  | canFrameReceive (c : Fin 8) (f : CanFrame)
  /-- CAN_BUS_ERROR (R306). -/
  | canBusError (c : Fin 8) (e : CanErr)
  /-- CAN_TX_CHOICE (R303). -/
  | canTxChoice (c : Fin 8)
  /-- CAN_TX_END (R305). -/
  | canTxEnd (c : Fin 8) (o : CanTx) (ldly : Option Nat)
  /-- TAT_DEADLINE (R304). -/
  | tatDeadline (c : Fin 8) (b : Fin 32)
  /-- CAN_Q_PICKUP (R312). -/
  | canQPickup (c : Fin 8)
  /-- LOM_EXIT (R307). -/
  | lomExit (c : Fin 8)
  /-- FIELD_TICK (R319). -/
  | fieldTick
  /-- FIELD_IMAGE_WRITE (R320). -/
  | fieldImageWrite
  /-- FIELD_GROUP_SAMPLE (R316). -/
  | fieldGroupSample (g : Fin 8) (raw : BitVec 4)
  /-- CURRENT_LIMIT_ENTRY (R326). -/
  | currentLimitEntry (i : Fin 32)
  /-- OUTPUT_LATCH (R324). -/
  | outputLatch (i : Fin 32)
  /-- THERMAL_SHUTDOWN (R324). -/
  | thermalShutdown (i : Fin 32)
  /-- FIELD_TEMP_WARNING (R326). -/
  | fieldTempWarning (above : Bool)
  /-- VFLD_LOCKOUT (R325). -/
  | vfldLockout
  /-- VFLD_RECOVER (R325). -/
  | vfldRecover
  /-- SUPPLY_LOSS (R326). -/
  | supplyLoss
  /-- VFLD_OK_RESTORE (R326). -/
  | vfldOkRestore
  /-- FIO_RETRY (R324). -/
  | fioRetry (r : Req) (v : BitVec 32)
  /-- FIO_FAULT_CLEAR (R326). -/
  | fioFaultClear (r : Req)
  /-- FIO_DIR_WRITE (R323). -/
  | fioDirWrite (r : Req) (v : BitVec 32)
  /-- PAR_WRITE (R323). -/
  | parWrite (r : Req) (g : Fin 8) (v : BitVec 32)
  /-- HOST_BAR_READ (R46). -/
  | hostBarRead (x : HostRd)
  /-- HOST_BAR2_WRITE (R350). -/
  | hostBar2Write (off : BitVec 20) (ws : List (BitVec 16 × BitVec 16))
  /-- POISONED_WRITE (R361). -/
  | poisonedWrite
  /-- PCIE_CONFIG_REQUEST (R331). -/
  | pcieConfigRequest (fn : Fin 8) (write : Bool) (dw : Fin 1024) (be : BitVec 4) (v : BitVec 32)
  /-- CMDQ_TAIL_DOORBELL (R339). -/
  | cmdqTailDoorbell (q : Fin 16) (v : BitVec 32)
  /-- CPLQ_HEAD_DOORBELL (R342). -/
  | cplqHeadDoorbell (q : Fin 16) (v : BitVec 32)
  /-- SEGR_DOORBELL (R349). -/
  | segrDoorbell (g : Fin 16) (v : BitVec 16) (ents : List (List (BitVec 16)))
  /-- CMDQ_ENA (R338). -/
  | cmdqEna (q : Fin 16) (cplq : Fin 16) (sz : Fin 16)
  /-- CMDQ_DIS (R340). -/
  | cmdqDis (q : Fin 16)
  /-- CPLQ_ENA (R338). -/
  | cplqEna (q : Fin 16) (ien : Bool) (iv : Fin 32) (sz : Fin 16)
  /-- CPLQ_DIS (R338). -/
  | cplqDis (q : Fin 16)
  /-- DESCRIPTOR_FETCH (R339). -/
  | descriptorFetch (q : Fin 16) (x : HostRead)
  /-- HOST_NOP (R344). -/
  | hostNop (q : Fin 16)
  /-- READ_W (R345). -/
  | readW (q : Fin 16)
  /-- WRITE_W (R345). -/
  | writeW (q : Fin 16)
  /-- SNAP_READ (R347). -/
  | snapRead (q : Fin 16)
  /-- FORCE_WR (R344). -/
  | forceWr (q : Fin 16)
  /-- STAGE (R181). -/
  | stage (q : Fin 16)
  /-- PROG_CMD (R180). -/
  | progCmd (q : Fin 16)
  /-- SCAN_CMD (R149). -/
  | scanCmd (q : Fin 16)
  /-- SEG_BIND (R349). -/
  | segBind (q : Fin 16)
  /-- NV_READ (R344). -/
  | nvRead (q : Fin 16)
  /-- NV_WRITE (R344). -/
  | nvWrite (q : Fin 16)
  /-- FW_STAGE (R516). -/
  | fwStage (q : Fin 16)
  /-- FW_HANDOVER (R517). -/
  | fwHandover (q : Fin 16)
  /-- DEV_RESET (R499). -/
  | devReset (q : Fin 16)
  /-- RESERVED_COMMAND (R344). -/
  | reservedCommand (q : Fin 16)
  /-- TRANSFER_CHUNK (R356). -/
  | transferChunk (q : Fin 16) (x : HostRead)
  /-- HOST_COMPLETION_TIMEOUT (R363). -/
  | hostCompletionTimeout (q : Fin 16) (fetch : Bool)
  /-- PG_CMD (R351). -/
  | pgCmd (r : Req) (page : Fin 512) (old new : Fin 4)
  /-- HOST_IRQ (R358). -/
  | hostIrq (r : Req) (v : Fin 32)
  /-- PCIE_LINK_DOWN (R364). -/
  | pcieLinkDown
  /-- PCIE_LINK_UP (R359). -/
  | pcieLinkUp
  /-- FUNCTION_LEVEL_RESET (R364). -/
  | functionLevelReset
  /-- HOT_RESET (R364). -/
  | hotReset
  /-- PERST_RELEASE (R527). -/
  | perstRelease
  /-- HELLO_SEND (R369). -/
  | helloSend
  /-- HELLO_RECEIVE (R369). -/
  | helloReceive (l : Fin 4) (f : FabFrame)
  /-- HELLO_TIMEOUT (R369). -/
  | helloTimeout (l : Fin 4)
  /-- FABRIC_LINK_LOSS (R383). -/
  | fabricLinkLoss (l : Fin 4)
  /-- ELECTION_SETTLED (R372). -/
  | electionSettled
  /-- EPOCH_TICK (R372). -/
  | epochTick
  /-- ROOT_TIMEOUT (R372). -/
  | rootTimeout
  /-- JOIN_SEND (R373). -/
  | joinSend
  /-- JOIN_RECEIVE (R373). -/
  | joinReceive (l : Fin 4) (f : FabFrame)
  /-- ROOT_ASSIGN (R373). -/
  | rootAssign
  /-- ASSIGN_RECEIVE (R373). -/
  | assignReceive (l : Fin 4) (f : FabFrame)
  /-- LSA_SEND (R374). -/
  | lsaSend
  /-- LSA_RECEIVE (R374). -/
  | lsaReceive (l : Fin 4) (f : FabFrame)
  /-- LSA_EXPIRE (R374). -/
  | lsaExpire (uid : BitVec 64)
  /-- FABRIC_FRAME_RECEIVE (R371). -/
  | fabricFrameReceive (l : Fin 4) (f : FabFrame)
  /-- PUBLISH_SEND (R376). -/
  | publishSend (k : Fin 32)
  /-- PUBLISH_RECEIVE (R378). -/
  | publishReceive (l : Fin 4) (f : FabFrame)
  /-- SUB_AGE_TICK (R379). -/
  | subAgeTick (k : Fin 32)
  /-- TSYNC_REQUEST (R381). -/
  | tsyncRequest
  /-- TSYNC_REQ_RECEIVE (R381). -/
  | tsyncReqReceive (l : Fin 4) (f : FabFrame)
  /-- TSYNC_RESPONSE (R381). -/
  | tsyncResponse (l : Fin 4) (f : FabFrame)
  /-- TLOCK_TIMEOUT (R382). -/
  | tlockTimeout
  /-- FAB_CNT_CLR (R368). -/
  | fabCntClr (r : Req)
  /-- REJOIN (R373). -/
  | rejoin (r : Req)
  /-- HEARTBEAT_SEND (R391). -/
  | heartbeatSend
  /-- HEARTBEAT_RECEIVE (R391). -/
  | heartbeatReceive (h : Heartbeat)
  /-- HEARTBEAT_MISS (R400). -/
  | heartbeatMiss
  /-- NOTICE_RECEIVE (R400). -/
  | noticeReceive
  /-- PARTNER_ACT_LOW (R400). -/
  | partnerActLow
  /-- MASTER_FRAME_ABSENT (R400). -/
  | masterFrameAbsent (x : Fin 4)
  /-- TAKEOVER (R402). -/
  | takeover
  /-- FENCE_TIMEOUT (R401). -/
  | fenceTimeout
  /-- FENCE_RELEASE (R401). -/
  | fenceRelease
  /-- DUAL_ACTIVE (R408). -/
  | dualActive
  /-- MULE_WR_RECEIVE (R392). -/
  | muleWrReceive (ws : List MuleWr)
  /-- MULE_RECORD_RECEIVE (R393). -/
  | muleRecordReceive (m : MuleRec)
  /-- LINE_RECEIVE (R394). -/
  | lineReceive (w : BitVec 24) (n : BitVec 32) (ws : List (BitVec 16))
  /-- POINT_END_RECEIVE (R395). -/
  | pointEndReceive (n : BitVec 32) (scan : BitVec 32) (image : Bool) (hand : Option (BitVec 32)) (cold : Bool)
  /-- ACK_RECEIVE (R397). -/
  | ackReceive (n : BitVec 32)
  /-- MIRROR_POINT_TIMER (R395). -/
  | mirrorPointTimer
  /-- CHANGE_RECEIVE (R195). -/
  | changeReceive (f : ChangeFrame)
  /-- RESYNC_START (R405). -/
  | resyncStart (pid : BitVec 32)
  /-- RESYNC_DONE (R405). -/
  | resyncDone (c : SyncCopy)
  /-- PAIR_TIME_EXCHANGE (R391). -/
  | pairTimeExchange (t1 : BitVec 64) (t2 : BitVec 64) (t3 : BitVec 64)
  /-- PAIR_LANE_LOSS (R391). -/
  | pairLaneLoss (lane : Fin 2)
  /-- GO_ACTIVE (R387). -/
  | goActive (r : Req)
  /-- SWITCH (R407). -/
  | switch (r : Req)
  /-- SWITCHOVER_ACK_TIMEOUT (R407). -/
  | switchoverAckTimeout
  /-- SWITCHOVER_HANDOFF (R407). -/
  | switchoverHandoff
  /-- TB_STEP (R414). -/
  | tbStep (r : Req)
  /-- TIME_LO_READ (R410). -/
  | timeLoRead (r : Req)
  /-- EV_HPEND_CLEAR (R419). -/
  | evHpendClear (r : Req) (k : Fin 4) (v : BitVec 32)
  /-- GOOSE_CHECK_IN (R422). -/
  | gooseCheckIn (r : Req) (key : BitVec 16) (id : Fin 16)
  /-- GOOSE_PERIOD_CLOSE (R424). -/
  | goosePeriodClose
  /-- GOOSE_CONFIG_WRITE (R421). -/
  | gooseConfigWrite (r : Req) (reg : Fin 3) (v : BitVec 32)
  /-- HEN_CAPTURE (R432). -/
  | henCapture
  /-- HEN_FLUSH_DONE (R439). -/
  | henFlushDone
  /-- HEN_FLUSH (R439). -/
  | henFlush (r : Req)
  /-- VERIFY (R435). -/
  | verify (r : Req)
  /-- HEN_VERIFY_DONE (R435). -/
  | henVerifyDone
  /-- HEN_CNT_CLR (R428). -/
  | henCntClr (r : Req)
  /-- ERASE_ALL (R445). -/
  | eraseAll (r : Req)
  /-- ERASE_RUN (R445). -/
  | eraseRun (r : Req)
  /-- ERASE_RUN_DONE (R445). -/
  | eraseRunDone
  /-- HEN_RANGE_WRITE (R431). -/
  | henRangeWrite (r : Req) (c : Fin 16) (k : Fin 4) (v : BitVec 32)
  /-- HEN_RSEL_WRITE (R444). -/
  | henRselWrite (r : Req) (v : BitVec 32)
  /-- BUFFER_DRAIN (R448). -/
  | bufferDrain
  /-- VERIFY_PASS_DONE (R453). -/
  | verifyPassDone (bad : List (Fin 32 × Ecc))
  /-- NVR_READ (R460). -/
  | nvrRead (r : Req)
  /-- NVR_WRITE (R460). -/
  | nvrWrite (r : Req)
  /-- NVR_DONE (R458). -/
  | nvrDone (bad : List (Fin 32 × Ecc))
  /-- WRING_ENABLE (R462). -/
  | wringEnable (r : Req) (k : Fin 16) (v : BitVec 32)
  /-- WRING_LOAD_DONE (R462). -/
  | wringLoadDone (k : Fin 16)
  /-- WRING_TRIGGER (R463). -/
  | wringTrigger (k : Fin 16)
  /-- WRING_UPDATE_DONE (R463). -/
  | wringUpdateDone (k : Fin 16) (bad : List (Fin 32 × Ecc))
  /-- POWER_FAIL (R465). -/
  | powerFail
  /-- POWER_FAIL_DONE (R465). -/
  | powerFailDone
  /-- POWER_FAIL_RECOVER (R467). -/
  | powerFailRecover
  /-- SET (R476). -/
  | bkSet (r : Req)
  /-- BK_LOAD (R477). -/
  | bkLoad
  /-- BK_WAKE_FIRE (R479). -/
  | bkWakeFire
  /-- BK_WAKE_WRITE (R478). -/
  | bkWakeWrite (r : Req) (v : BitVec 32)
  /-- BK_SUB_READ (R475). -/
  | bkSubRead (r : Req)
  /-- BK_CAL_PERIOD (R474). -/
  | bkCalPeriod
  /-- BK_LOCK (R470). -/
  | bkLock
  /-- BK_UNLOCK (R471). -/
  | bkUnlock
  /-- BK_POWER_UP (R481). -/
  | bkPowerUp
  /-- BK_BROWNOUT (R482). -/
  | bkBrownout
  /-- OSC_STOP (R483). -/
  | oscStop
  /-- LC_CMD (R486). -/
  | lcCmd (r : Req) (key : BitVec 16) (target : Fin 4)
  /-- LC_BURN_DONE (R487). -/
  | lcBurnDone
  /-- KS_PROG (R490). -/
  | ksProg (r : Req) (key : BitVec 16) (attr : BitVec 3) (slot : Fin 32)
  /-- KS_PROG_DONE (R490). -/
  | ksProgDone
  /-- PS_BURN (R498). -/
  | psBurn (r : Req) (key : BitVec 16)
  /-- PS_BURN_DONE (R498). -/
  | psBurnDone
  /-- DEBUG_ENABLE_REQUEST (R505). -/
  | debugEnableRequest
  /-- DEBUG_RESPONSE (R497). -/
  | debugResponse (resp : BitVec 256)
  /-- DEAD_EXIT (R513). -/
  | deadExit (lc : BitVec 16) (env : BootEnv)
  /-- HANDOVER_POINT (R517). -/
  | handoverPoint
  /-- FW_COMMIT_POINT (R517). -/
  | fwCommitPoint
  /-- BOOT_ARUN_STORE (R514). -/
  | bootArunStore (r : Req) (m : Fin 4)
  /-- STORE_BUFFER_DRAIN (R130). -/
  | storeBufferDrain (c : CoreId) (i : Nat)
  /-- LOAD_RETURN (R130). -/
  | loadReturn (c : CoreId) (i : Nat)
  /-- T4_PRELOAD_DONE (R138). -/
  | t4PreloadDone (t : Fin 16)
  /-- PCS_SYNC_REGAINED (R284). -/
  | pcsSyncRegained (x : Fin 4) (port : RingPort)
  /-- FABRIC_BLOCK_LOCK (R494). -/
  | fabricBlockLock (l : Fin 4)
  /-- PAIR_BLOCK_LOCK (R391). -/
  | pairBlockLock (lane : Fin 2)
  /-- TAT_TIME_REACHED (R304). -/
  | tatTimeReached (c : Fin 8) (b : Fin 32) (idle : Bool)
  /-- OSC_RESTART (R483). -/
  | oscRestart
  /-- BACKUP_SUPPLY_RETURN (R482). -/
  | backupSupplyReturn
  /-- RESET_N_RELEASE (R501). -/
  | resetNRelease (env : BootEnv)
  /-- FENCE_N_RELEASE (R389). -/
  | fenceNRelease (env : BootEnv)
  /-- BROWN_OUT_RELEASE (R524). -/
  | brownOutRelease (rail : Fin 6) (env : BootEnv)
  /-- PFW_N_DEASSERT (R529). -/
  | pfwNDeassert
  /-- TJ_CORE_UPDATE (R539). -/
  | tjCoreUpdate (t : BitVec 8)
  /-- DEBUG_HALT (R143). -/
  | debugHalt (t : Fin 16) (a : DebugAct)
  /-- CURRENT_LIMIT_EXIT (R326). -/
  | currentLimitExit (i : Fin 32)
deriving DecidableEq, Repr

end Sys2Proof
end

