-- ==== Sys2Proof/Config.lean ====
section
/-! DEFINITION. What an implementation fixes and the model leaves free: the cryptographic functions of the standards the
spec names, the random number generator, the fused test root, and the free values of the points the spec leaves open.
None has a body: a claim about the model holds whatever they are. Log entries 8 and 9. -/

namespace Sys2Proof.Config

/-- SHA-256 (FIPS 180-4) of a byte string. -/
opaque sha256 : List (BitVec 8) → BitVec 256

/-- SHA-384 (FIPS 180-4) of a byte string. -/
opaque sha384 : List (BitVec 8) → BitVec 384

/-- HMAC-SHA-256 of a key and a message, as a big-endian number. -/
opaque hmacSha256 : List (BitVec 8) → List (BitVec 8) → BitVec 256

/-- AES-256 (FIPS 197): key and block. -/
opaque aes256 : BitVec 256 → BitVec 128 → BitVec 128

/-- ECDSA P-384 (FIPS 186-5): public key, digest and signature bytes. -/
opaque ecdsaVerify : List (BitVec 8) → BitVec 384 → List (BitVec 8) → Bool

/-- The n-th draw of 256 bits from the TRNG. -/
opaque trng : Nat → BitVec 256

/-- The test root fused alike in every T9648 (R495). -/
opaque testRoot : BitVec 256

/-- The words of the boot ROM by offset from P:0x1F_C000 (R41): the spec does not give them. -/
opaque bootRom : Nat → BitVec 16

/-- D_k in ns of node `k` of ring `x` after enumeration number `e` (R256): no frame the spec lists tells it to the master.
Log entry 13. -/
opaque nodeDelay : Nat → Nat → Nat → Nat

/-- Octet `i` of DA and SA of an enumeration or link-delay frame (its TYPE) of ring `x`: the spec gives none (log entry 78). -/
opaque ringAddr : Nat → Nat → Nat → BitVec 8

/-- The delay in ns that the port of ring `x` facing the master measures, as long as no measurement has ended (R256, R290):
the spec gives no value (log entry 79). By the timebase. -/
opaque linkDelay : Nat → Nat → Nat

/-- The n-th value the spec leaves open. -/
opaque freeValue : Nat → BitVec 64

end Sys2Proof.Config
end

