-- ==== Sys2Proof/Machine/State.lean ====
section
/-! DEFINITION. The state of the T9648 as plain data: the queue of waiting commands, the fuse array, and the device: its
registers, its memories, its cores and what each block holds besides its registers. State.reset is the state after a
power-on reset (R9); NOTES.md and INVENTORY.md name every value the spec does not give. -/

namespace Sys2Proof.Machine

/-- Why a step stops. No command of this model stops: every row of the table has an effect the spec gives. -/
inductive Fault where
  /-- Raised by nothing in this model; the type is the interface's (safe: it is never reached). -/
  | none
deriving DecidableEq, Repr, Inhabited

/-- Why a command has no meaning here. -/
inductive Refusal where
  /-- An arm of exec whose command has no meaning yet (safe: the model says nothing about it). -/
  | notModelled (mnemonic : String)
deriving DecidableEq, Repr, Inhabited

/-! ## Cores (03_isa_encoding.md, 05_execution_model.md) -/

/-- One set of the registers of Table 3.1, with the operand-stack entries that lie on the tile (R86), top first. -/
structure RegSet where
  a : Vector (BitVec 24) 8
  dr : Vector (BitVec 16) 16
  acc : Vector (BitVec 40) 4
  m : Vector (BitVec 32) 4
  sr : BitVec 16
  bstk : BitVec 16
  pc : BitVec 21
  opstk : List (BitVec 16)
deriving DecidableEq, Repr

/-- Every register of a set at its reset value (Table 3.1). PC has none there: DESIGN CHOICE 0, log entry 6. -/
def RegSet.zero : RegSet :=
  { a := Vector.replicate 8 0, dr := Vector.replicate 16 0, acc := Vector.replicate 4 0,
    m := Vector.replicate 4 0, sr := 0, bstk := 0, pc := 0, opstk := [] }

/-- The pair latch of R43: empty, a read latch holding the high word of the register at `reg`, or a write latch
holding its low word. -/
inductive PairLatch where
  | empty | read (reg : Nat) (hi : BitVec 16) | write (reg : Nat) (lo : BitVec 16)
deriving DecidableEq, Repr, Inhabited

/-- Set 0: idle between strands (R118), active, or stopped (R84, R135). -/
inductive Run where
  | idle | active | stopped
deriving DecidableEq, Repr, Inhabited

/-- What the active set waits for (R90): nothing, WFE, a WUNT time, a fence that holds loads (`r`) and stores (`w`),
or the fence of SEVF n. -/
inductive Wait where
  | none | wfe | wunt (t : BitVec 64) | fence (r w : Bool) | sevf (n : Nat)
deriving DecidableEq, Repr, Inhabited

/-- The kind and destination of an outstanding load. `accLo` and `accHi`: the two one-word accesses of an accumulator pair
at an odd shared address (R128). -/
inductive LoadDst where
  | word (d : Fin 16) | pair (d : Fin 16) | accPair (k : Fin 4) | accWord (k : Fin 4) | accLo (k : Fin 4) | accHi (k : Fin 4)
deriving DecidableEq, Repr, Inhabited

/-- A load that has issued and not returned (R130): its place in program order, the register set, the destination and
the W addresses it reads. -/
structure LoadRec where
  seq : Nat
  set1 : Bool
  dst : LoadDst
  words : List Nat
deriving DecidableEq, Repr

/-- One access in a core's store buffer (R91): its place in program order, the set that stored, for each word the W
address, the mask and the value, and whether it is a bit write (R93, R541). -/
structure StoreRec where
  seq : Nat
  set1 : Bool
  words : List (Nat × BitVec 16 × BitVec 16)
  bits : Bool := false
deriving DecidableEq, Repr

/-- A mismatch that a detector of R21 finds in the instruction a core issues next: a residue, a MAC residue, the two
copies of a bit operation, or a register's parity. It is the hardware's own: no command makes one, and reset
leaves none (DESIGN CHOICE, log entry 73). -/
inductive Trip where
  | residue | mac | compare | parity
deriving DecidableEq, Repr, Inhabited

/-- An occurrence waiting to enter a tile (R124): source, timestamp, handler address, and the cycle task it releases. -/
structure PendEv where
  src : Nat
  ts : BitVec 64
  pc : BitVec 21
  task : Option Nat
deriving DecidableEq, Repr

/-- One core: both register sets with what they share (R121), and its run state. The Bellwether uses set 0 alone. -/
structure CoreSt where
  s0 : RegSet
  s1 : RegSet
  inSet1 : Bool            -- set 1 is active
  run0 : Run               -- set 0
  strandSince : Bool       -- a strand start occurred while set 1 was active (R123)
  latch : PairLatch
  wait : Wait
  wake : Bool              -- wake latch (R105)
  seq : Nat                -- next place in program order
  loads : List LoadRec
  sbuf : List StoreRec     -- oldest first, at most 8 entries
  pend : List PendEv       -- pending event flags (R124)
  curTask : Option Nat     -- the cycle task whose handler set 1 runs (R169)
  inj : Bool               -- error injection armed (MC_CTRL.INJ)
  halted : Bool            -- stopped by authenticated debug
  stepOk : Bool            -- a single step lets one instruction issue
  timeLat0 : BitVec 32     -- time latch of each set (R410)
  timeLat1 : BitVec 32
  bkLat0 : BitVec 32       -- backup latch of each set (R475)
  bkLat1 : BitVec 32
  t4Loaded : Bool          -- the 4,096 words are loaded and locked (R138)
  t4Base : BitVec 21       -- first word of the locked range
  t4Preload : Bool         -- the preload of R138 is in progress
  t4Broken : Bool          -- the contract broke in this scan (R143)
  t4New : Bool             -- T4 mode was selected anew, or a change committed, since the last load (R138)
  t4Fence : BitVec 64      -- the timebase when set 0 last stood at a FENCE.ALL (R143)
  runAt : Option (BitVec 21)   -- the next word may belong to the rung run that issued last (R69, R90)
  trip : Option Trip       -- a mismatch in the instruction that issues next (R21)
deriving DecidableEq, Repr

/-- A core right after reset: idle, all registers at reset values. -/
def CoreSt.zero : CoreSt :=
  { s0 := RegSet.zero, s1 := RegSet.zero, inSet1 := false, run0 := .idle, strandSince := false, latch := .empty,
    wait := .none, wake := false, seq := 0, loads := [], sbuf := [], pend := [], curTask := none, inj := false,
    halted := false, stepOk := false, timeLat0 := 0, timeLat1 := 0, bkLat0 := 0, bkLat1 := 0, t4Loaded := false, t4Base := 0,
    t4Preload := false, t4Broken := false, t4New := false, t4Fence := 0, runAt := none, trip := none }

/-- A line of a tile's instruction cache (R12, R120): the number of the 32-word line of P space it holds, and its words. -/
structure CacheLine where
  line : Nat
  words : List (BitVec 16)
deriving DecidableEq, Repr, Inhabited

/-- The Bellwether right after an internal reset: in the boot ROM with PRIV = 1 and MODE = 1 (R41, R59). -/
def CoreSt.bellwether : CoreSt :=
  { CoreSt.zero with
    s0 := { RegSet.zero with sr := 0xC000, pc := 0x1FC000 }
    run0 := .active }

/-! ## The scan (06_scan.md) and online change (07_online_change.md) -/

/-- A masked word write waiting for a Q copy to end (R160): offset, mask, value, and the core that stored it (none: the
host). -/
structure HeldQ where
  off : Nat
  mask : BitVec 16
  val : BitVec 16
  by_ : Option CoreId
deriving DecidableEq, Repr

/-- What the commit unit holds besides its registers. -/
structure ScanSt where
  iSnap : Bool             -- which I half is the snapshot
  qShadow : Bool           -- which Q half is the shadow
  iWritten : List Nat      -- granules of the filling half written since the flip before (R154)
  copyList : List Nat      -- granules still to be copied forward (R154)
  preForce : List (Nat × BitVec 16)  -- forced words as they stood before the force (R154)
  lastForced : List Nat    -- granules that the forces of the last flip wrote (R154)
  heldI : List (Nat × Nat × BitVec 16)   -- port writes held until the flip (R153): unit, I word, value
  dirtyAll : Bool          -- every Q granule is dirty (R151)
  dirty : List Nat         -- dirty Q granules (R157)
  qFlipped : Bool          -- COMMIT step 3 has taken place
  heldQ : List HeldQ       -- set-1 stores held in COMMIT and ROLLBACK (R160)
  stopPend : Bool          -- a stop command waits for the state boundary (R149)
  resetSince : Bool        -- a reset has occurred since the last stop (R149)
  mustCold : Bool          -- the next start is cold (R149, R187)
  pmap : List (BitVec 32)  -- PMAP as the last start took it
  first : Bool             -- FIRST of the next flip (Table 6.2)
  chg : Bool               -- CHG of the next flip
  skipped : Bool           -- SKIP of the next flip
  takeover : Bool          -- TAKEOVER of the next flip
  reported : Nat           -- bit t: tile t has reported scan end
  began : BitVec 64        -- start of SNAP
  gapBegan : BitVec 64     -- start of GAP
  overrun : Bool           -- the scan in progress has overrun (R163)
  skipNow : Bool           -- the commit of the scan in progress is skipped
  skipNext : Bool          -- the commit of the next scan is skipped (R26)
  mcNow : Bool             -- a recoverable machine check belongs to the scan in progress (R26)
  mcNext : Bool            -- one belongs to the next scan
  stopBetween : Bool       -- a change of FULL kind asks for a cold start (R187)
deriving DecidableEq, Repr

def ScanSt.zero : ScanSt :=
  { iSnap := false, qShadow := false, iWritten := [], copyList := [], preForce := [], lastForced := [], heldI := [], dirtyAll := false,
    dirty := [], qFlipped := false, heldQ := [], stopPend := false, resetSince := true, mustCold := false,
    pmap := List.replicate 13 0, first := false, chg := false, skipped := false, takeover := false, reported := 0,
    began := 0, gapBegan := 0, overrun := false, skipNow := false, skipNext := false, mcNow := false,
    mcNext := false, stopBetween := false }

/-- A register write held until the swap ends (R188 step 2): register key, mask, value. -/
structure HeldReg where
  key : Nat
  mask : BitVec 32
  val : BitVec 32
deriving DecidableEq, Repr

/-- What online change holds besides its registers. -/
structure ProgSt where
  loaded : Bool            -- a program is active (R185)
  swapWait : Bool          -- step 1 of R188: entry of preempting events is stopped
  swapAt : BitVec 64       -- end of step 1
  held : List HeldReg      -- force-table writes held during SWAP
  storeB : Bool            -- the commit record names program-store copy B (R192)
  pairRes : Option Bool    -- the standby's result for the package in check (R186, R197)
  checkEnd : Option Bool   -- the own check has ended and waits for it; whether the MRAM copy failed
  markDue : Bool           -- the mirror point and marker of step 1 wait for the point before (R195, R399)
  fullLoad : Bool          -- the package is the partner's program, to be committed as a FULL load (R405)
deriving DecidableEq, Repr

def ProgSt.zero : ProgSt :=
  { loaded := false, swapWait := false, swapAt := 0, held := [], storeB := false, pairRes := none, checkEnd := none,
    markDue := false, fullLoad := false }

/-! ## The Mule and the interpolator (08_mule_loops.md, 09_trajectory.md) -/

/-! ## The rings (10_purok_ring.md, 11_ring_timing_faults.md) -/

/-- A service request outstanding on a ring (R257). `own`: a request of SVC_CTRL, else one of CONFIG. -/
structure SvcReq where
  tag : Nat
  op : Nat
  node : Nat
  index : Nat
  data : BitVec 32
  cycles : Nat
  own : Bool
deriving DecidableEq, Repr, Inhabited

/-- A passive standby in a ring (R255, R281, R282, R290). -/
structure PassSt where
  lseq : Nat               -- LSEQ of its last link-delay request
  reqAt : Option (BitVec 64)  -- when it left
  link : Option Nat        -- the measured delay of the link to the master
  off : Int                -- its ring time less the timebase
  sync : Bool              -- its ring time has been set
  dPrime : Option Int      -- D′
  used : Option (Bool × BitVec 16)  -- the master frame used last: from the upstream port, CYC
  lostOut : Bool           -- synchronization has been lost at OUT, at IN
  lostIn : Bool
  fwdOut : BitVec 64       -- no forwarding at OUT, at IN before this
  fwdIn : BitVec 64
deriving DecidableEq, Repr, Inhabited

/-- What a ring controller holds besides its registers. -/
structure RingSt where
  t : BitVec 64            -- t_n of the cycle in progress
  nnodeI : Nat             -- NNODE at the last scan start (R265)
  cpt : List (BitVec 32)   -- CPT as taken at t_n (R265)
  enumN : Nat              -- 1 + ESEQ of the last enumeration frame returned
  enumCount : Nat
  enumLoops : List Nat    -- LOOP of the streak's frames, newest first
  eseq : Nat
  linkOut : Bool           -- PCS synchronized at OUT and IN
  linkIn : Bool
  cfgNode : Nat            -- CONFIG: node and request in progress
  cfgStep : Nat
  dly : Nat                -- DLY of the last enumeration frame returned
  lat : Store Nat          -- LAT_k that each node reported
  syncGood : Nat           -- good SYNC cycles in a row
  syncBad : Bool           -- a scheduled frame of this cycle failed the SYNC condition
  req : Option SvcReq
  tag : Nat
  stopLeft : Nat           -- master frames left in STOPPING
  stopAsked : Bool         -- STOP written in a start-up step (R264)
  toRun : Bool             -- RUN begins at the next t_n
  accepted : List Nat      -- slots that accepted a frame in this cycle
  accOut : List Nat        -- those of them accepted at OUT
  closed : List Nat        -- slots whose window has closed in this cycle
  slip : Bool              -- event 5 raised in this cycle (R291)
  mfBack : Bool            -- the master frame of this cycle has returned to IN
  mfMiss : Nat             -- cycles in a row whose master frame was lost (R283)
  nOut : Option Nat        -- N_OUT of this cycle (R284)
  lower : Nat              -- cycles in a row without JLAST's frame at OUT (R285)
  outOpen : Bool           -- windows at OUT are open (R285)
  clean : Nat              -- clean cycles in a row (R286)
  outSeen : Bool           -- a node frame arrived at OUT in this cycle
  healNow : Bool           -- the break was detected in this cycle (R283, R284)
  delta : Int              -- displacement of the windows at OUT in this cycle (R285)
  tko : Bool               -- taken over by a standby: IN opens no window (R290)
  mfGone : Bool            -- the master frame of this cycle was counted as lost (R278)
  points : List Nat        -- cycle points raised in this cycle
  qPicked : Bool           -- the Q region for the next cycle has been picked up
  stepAt : BitVec 64       -- begin of the start-up step in progress
  enumAt : Option (BitVec 64) -- the last enumeration frame sent
  muleT : BitVec 64        -- the t_n at which the Mule last took this ring's axes
  anyNode : Bool           -- a node frame was accepted in this cycle
  dead : Nat               -- cycles in a row without one (R287)
  qWords : List (BitVec 16) -- the Q region picked up for the next cycle (R268)
  cmds : Store (BitVec 16 × BitVec 32)  -- command slots of the next master frame, by 4 k + channel (R270)
  standbyDs : Nat          -- D_s of a standby (R290)
  mfAt : BitVec 64         -- a standby: the last master frame with a good FCS on IN
  inDisp : Nat             -- displacement of the windows at IN after a takeover (R404)
  startAt : BitVec 64      -- no cycle starts before this (R402)
  prevT : BitVec 64        -- t_n of the cycle before
  prevDelta : Int          -- displacement of its windows at OUT
  late : List (Nat × Bool) -- its slots whose window at OUT is still open, and whether they have accepted a frame (R274)
  lateBad : Bool           -- a frame of that cycle failed the SYNC condition
  lateSlip : Bool          -- that cycle has raised event 5 (R291)
  prevOpen : Bool          -- its windows at OUT were open
  pass : PassSt
deriving DecidableEq, Repr, Inhabited

/-! ## What the device emits -/

/-- One thing the device emits at a port, in the order it leaves. The model's own record of its outputs. -/
inductive Out where
  | master (x : Nat) (outp inp : Bool) (t : BitVec 64) (octets : List (BitVec 8))
  | enumFrame (x : Nat) (octets : List (BitVec 8))
  | linkFrame (x : Nat) (port : RingPort) (octets : List (BitVec 8))
  | passFrame (x : Nat) (toOut : Bool) (f : RxFrame)
  | msix (vec : Nat)
  | hostWrite (addr : Nat) (ws : List (BitVec 16))
  | hostFetch (addr len : Nat)
  | bar (vs : List (BitVec 32)) (poisoned : Bool)
  | barWin (ws : List (BitVec 16)) (poisoned : Bool)
  | cfg (ok : Bool) (v : BitVec 32)
  | can (c : Nat) (f : CanFrame)
  | fabric (link : Nat) (f : FabFrame)
  | pair (kind : Nat) (ws : List Nat)
  | wake
  | debug (kind : Nat) (ws : List Nat)
deriving DecidableEq, Repr, Inhabited

/-! ## Time, events and the Goose (17_time_events_goose.md) -/

/-- What the timebase and the Goose hold besides their registers. -/
structure TimeSt where
  ppbAcc : Int             -- accumulated rate correction, in 10^-9 ns (R412)
  gooseNs : Nat            -- ns since COUNT last advanced (R420)
  gPeriod : Nat            -- PERIOD, OPEN and REG of the period in progress (R421)
  gOpen : Nat
  gReg : Nat
  gFail : Bool             -- a failure occurred in this period (R423)
  hostLat : BitVec 32      -- the host's time latch (R410)
  good : Nat               -- TIME exchanges in a row within 10 ns (R413)
  rw1 : List Nat           -- RW1 fields already written, each as 32 * address + low bit (R6)
  bwWake : Nat             -- occurrences the Bellwether has received
deriving DecidableEq, Repr, Inhabited

def TimeSt.zero : TimeSt :=
  { ppbAcc := 0, gooseNs := 0, gPeriod := 100000, gOpen := 0, gReg := 1, gFail := false, hostLat := 0, good := 0,
    rw1 := [], bwWake := 0 }

/-- The sources of a reset (R426, R499). -/
inductive Cause where
  | powerOn | pin | goose | machineCheck | host | pairFence | brownout | deadExit
deriving DecidableEq, Repr, Inhabited

/-- The device as a whole: fatal sequence, shutdown in progress, reset held. -/
structure SysSt where
  fatal : Bool             -- a fatal machine check has been detected (R29, R136)
  fatalClock : Bool        -- of kind clock (R409)
  fatalLog : Bool          -- KIND and MC_ADDR name it (R29, R30)
  fatalEsc : Bool          -- it is an escalation (R27)
  bellBank : Bool          -- the Bellwether's running memory bank (R41, R517)
  due : List Cause         -- the internal reset that ends the sequence in progress: its sources (R502)
  held : Bool              -- held in reset
  outsOff : Bool           -- field outputs commanded off, CAN TXD recessive (Table 1.6, R500)
  ringsOff : Bool          -- no further master frames (Table 1.6)
  pinLow : Bool            -- RESET_N and FENCE_N are low (R389, R501)
  fenceLow : Bool
  boRails : BitVec 6       -- the core-rail monitors that have tripped and not released, as in SUP_STAT (R524)
  muleTrip : Bool          -- a MAC residue mismatch in the next sample that a Mule lane computes (R21)
deriving DecidableEq, Repr, Inhabited

def SysSt.zero : SysSt :=
  { fatal := false, fatalClock := false, fatalLog := false, fatalEsc := false, bellBank := false, due := [], held := false, outsOff := false, ringsOff := false,
    pinLow := false, fenceLow := false, boRails := 0, muleTrip := false }
/-! ## Hen, NV controller, key engine, host link: what they hold besides registers -/

/-- An occurrence that waits to become a Hen record (R429): source, timestamp, and whether it is one of the three that
R427 records always. -/
structure HenOcc where
  src : Nat
  ts : BitVec 64
  special : Bool
deriving DecidableEq, Repr, Inhabited

/-- What the Hen holds besides its registers (18_hen_recorder.md). Its buffer is the array `henBuf`. -/
structure HenSt where
  occ : List HenOcc        -- oldest first, at most 64 (R429)
  lastTs : Store Nat       -- class: 1 + the timestamp of its last record; unlisted: none (R428)
  lost : Nat               -- occurrences lost since the last record (LOST of the next one)
  flushTo : Nat            -- the flush in progress ends with this SEQ
  flushDirect : Bool       -- it writes pages on the direct path only (R441)
  due : Bool               -- a further flush is due (R439)
  verIdx : Option (Bool × Nat)  -- the record a VERIFY in progress reads
  floor : Nat              -- every record up to this SEQ is flushed or lost
  oldSeq : Nat             -- records up to this SEQ carry tags of a key that no longer exists (R435, R445)
deriving DecidableEq, Repr, Inhabited

def HenSt.zero : HenSt :=
  { occ := [], lastTs := [], lost := 0, flushTo := 0, flushDirect := false, due := false, verIdx := none,
    floor := 0, oldSeq := 0 }

/-- An entry of the posted write buffer (R448): granule number, and the mask and value of its 64 bits. -/
structure NvEnt where
  gran : Nat
  mask : BitVec 64
  val : BitVec 64
deriving DecidableEq, Repr, Inhabited

/-- A record-engine operation in progress (R460). -/
structure NvOp where
  write : Bool
  addr : Nat
  buf : Nat
  len : Nat
deriving DecidableEq, Repr, Inhabited

/-- A wear ring at work (R461 to R463). -/
structure WringSt where
  trigs : Nat              -- occurrences of TRIG not yet taken (R463)
  loading : Bool
  loaded : Bool            -- the load of an accepted enable has ended
  busy : Bool              -- an update is running
  pend : Bool
  slot : Option Nat        -- the current slot
  data : List (BitVec 16)  -- the words that the running update copied from SRC
deriving DecidableEq, Repr, Inhabited

/-- What the NV controller holds besides its registers (19_nonvolatile.md). -/
structure NvSt where
  buf : List NvEnt         -- oldest first, at most 512
  vpage : Option (Nat × Nat)    -- the page of a verified write and the passes done (R453)
  op : Option NvOp
  wr : Store WringSt
  closed : Bool            -- writes are closed by a power fail (R465, R467)
  armed : Bool             -- a new power-fail sequence may start (R529)
  pfRun : Bool             -- a power-fail sequence is running
deriving DecidableEq, Repr, Inhabited

def NvSt.zero : NvSt := 
  { buf := [], vpage := none, op := none, wr := [], closed := false, armed := true, pfRun := false }

/-- A key input: absent (R493), the test root (R495), or a fused value. -/
inductive KeyIn where
  | absent | test | val (v : BitVec 256)
deriving DecidableEq, Repr, Inhabited

/-- A running burn: a lifecycle transition (R487), the programming of a key slot with its value and attribute (R490), a
copy of the protection fuse set with its value (R498). -/
inductive BurnOp where
  | lc (target : Nat) | slot (i : Nat) (attr : BitVec 8) (v : BitVec 256) | prot (v : BitVec 256)
deriving DecidableEq, Repr, Inhabited

/-- The key inputs the key engine holds until the next reset (R491). -/
structure KeySt where
  root : KeyIn
  pair : KeyIn
  fab : KeyIn
  dbg : KeyIn
  op : Option BurnOp       -- the burn or programming that is running
  damaged : Option Nat     -- a slot that a reset left DAMAGED, until KS_STATE is read (R490)
  draws : Nat              -- numbers drawn from the TRNG
  challenge : Option (BitVec 256)  -- the debug challenge that awaits its response (R497)
  refusedAt : Option (BitVec 64)   -- when a response was last refused
deriving DecidableEq, Repr, Inhabited

/-- In FACTORY every input is the test root (R495). -/
def KeySt.zero : KeySt :=
  { root := .test, pair := .test, fab := .test, dbg := .test, op := none, damaged := none, draws := 0, challenge := none
    refusedAt := none }

/-- A command descriptor (Table 14.3): OPC, the byte that must be 0, CID, ARG0, HADDR, LEN, DADDR with its top byte,
ARG1, ARG2. -/
structure HostCmd where
  opc : Nat
  zero : Nat
  cid : Nat
  arg0 : Nat
  haddr : Nat
  len : Nat
  daddr : Nat
  arg1 : Nat
  arg2 : Nat
deriving DecidableEq, Repr, Inhabited

/-- What a running command waits for: its next chunk (R356), the scan gap (R347), SNAP, STOP, the end of CHECKING and
SWAP, the end of a firmware handover, the 100 µs of DEV_RESET. -/
inductive HostWait where
  | chunk | snap | scanStart | scanStop | prog | handover
deriving DecidableEq, Repr, Inhabited

/-- A running command: its queue, the words transferred, the word index of the first uncorrectable granule. -/
structure HostRun where
  q : Nat
  cmd : HostCmd
  done : Nat
  bad : Option Nat
  wait : HostWait
  page : Option Nat        -- the pool page it has locked (R356)
  counts : Bool            -- its end advances HEAD: its queue has not been disabled since (R338)
deriving DecidableEq, Repr, Inhabited

/-- A bound host segment ring (R349). -/
structure SegRing where
  base : Nat
  size : Nat
  ciAddr : Nat
  pIdx : Nat
  cIdx : Nat
  ents : List (List (BitVec 16))   -- the occupied entries as the host published them, oldest first
deriving DecidableEq, Repr, Inhabited

/-- The host link: the PCIe link, MSI-X and what the queues hold (14_host_interface.md). -/
structure HifSt where
  link : Bool              -- the PCIe link is up
  perst : Bool             -- PERST_N is high
  cfg : Store (BitVec 32)  -- writable configuration-space dwords that differ from their reset value
  msixEn : Bool            -- MSI-X Enable and Function Mask of the MSI-X capability
  fmask : Bool
  tbl : Store (BitVec 32)  -- the MSI-X table by dword
  pba : BitVec 32          -- pending bits
  snapPend : Bool          -- a SNAP_READ waits for the scan gap (R347)
  tailDb : Store Nat       -- command queues: tail doorbell, next entry to fetch, fetched commands not started
  fetchIx : Store Nat
  fetched : Store (List HostCmd)
  cplHead : Store Nat      -- completion queues: head doorbell, entries written and not released
  cplUsed : Store Nat
  owed : List (Nat × Nat × Nat)    -- completions that wait for a free entry or an earlier command: queue, CID, status
  kept : List (Nat × BitVec 32 × List (List (BitVec 16)))   -- doorbells kept while RDY is 0 (R360): offset, value, entries
  rr : Nat                 -- the queue that the last command was taken from (R341)
  hoRun : Bool             -- a firmware handover runs; its commit-record write has begun (R517)
  hoCommit : Bool
  vecHeld : Nat            -- bit q: vector of CPLQ[q] sent since the last head doorbell (R357)
  running : List HostRun   -- in the order in which they started, at most 4 (R341)
  segs : Store (Option SegRing)
  resetDue : Bool          -- DEV_RESET has written its completion (R499)
deriving DecidableEq, Repr, Inhabited

def HifSt.zero : HifSt :=
  { link := false, perst := false, cfg := [], msixEn := false, fmask := false, tbl := [], pba := 0,
    snapPend := false, tailDb := [], fetchIx := [], fetched := [], cplHead := [], cplUsed := [], owed := [], kept := [],
    rr := 15, hoRun := false, hoCommit := false, vecHeld := 0,
    running := [], segs := [], resetDue := false }

/-! ## The pair (16_pair_redundancy.md) -/

/-- What the pair unit holds besides its registers. -/
structure PairSt where
  lines : List Nat         -- lines written since the last mirror point, by W address / 64 (R394)
  point : Nat              -- the number of the last point closed
  unsent : Bool            -- the partner has not acknowledged it (R399)
  late : Option Bool       -- under SYNC_COMMIT, the point that found it so closes with its acknowledgement: with an image (R399)
  lastEnd : Nat            -- the timebase at the last scan end or timer point looked at (R395)
  hold : Bool              -- a planned switchover holds the next SNAP (R407)
  pRole : Nat              -- ROLE and SYNC that the partner last announced, and its UID
  pSync : Nat
  pUid : Nat
  hbAt : Option (BitVec 64)    -- the last heartbeat, until its loss has been declared
  hbActAt : Option (BitVec 64) -- the last heartbeat with ROLE ACTIVE
  pactAt : BitVec 64       -- the last change of PARTNER_ACT
  nonce : BitVec 128       -- own nonce (R494)
  pNonce : Option (BitVec 128) -- the partner's last nonce
  auth : Bool              -- the link is authenticated
  denied : Bool            -- a proof did not verify
  fenceAt : Option (BitVec 64) -- PARTNER_RST_N was driven low, and is still low (R401)
  fencing : Bool           -- the takeover waits for PARTNER_ACT
  mwOut : List MuleWr      -- Mule-table writes since the last cycle start, to be mirrored (R392)
  mwIn : List MuleWr       -- those received, to be taken with the next record
  recAt : Store Nat        -- ring: 1 + t_n of the last complete Mule record
  pRings : Store Nat       -- ring: 2 STATE + HEALED of the partner's ring (R392)
  stage : List (Nat × Nat × List (BitVec 16))  -- lines staged for a point: number, W address, words (R395)
  cold : Bool              -- COLD of the partner's last scan
  image : Bool             -- a point with a committed image has been applied
  copied : Bool            -- a point has ended since SYNCING began (R405)
  switch : Bool            -- a planned switchover waits for its point (R407)
  hand : Option (Nat × Nat)    -- the point closed with HANDOVER, and t_h
  handAck : Bool           -- it has been acknowledged
  sbyTicks : Nat           -- field ticks until the old active member sets SBY (R407)
deriving DecidableEq, Repr, Inhabited

def PairSt.zero : PairSt := default


/-! ## CAN channels (12_can_fd.md) and field channels (13_field_channels.md) -/

/-- What a CAN channel holds besides its registers and its message RAM. -/
structure CanSt where
  onBus : Option Nat       -- the buffer whose frame is on the bus
  sof : BitVec 64          -- when its SOF began
  stopping : Bool          -- STOP waits for the next bus idle (Table 12.7)
  ldcDue : Bool            -- the next FD frame with BRS measures the loop delay (R295)
  recAt : BitVec 64        -- entry into RECOVER
  pickAt : BitVec 64       -- the last pickup of the Q region
  held : Store (List (BitVec 16))   -- data of bound buffers whose frame is in progress (R312)
deriving DecidableEq, Repr, Inhabited

/-- What the field port holds besides its registers. -/
structure FioSt where
  dir : BitVec 32          -- the directions in force (R315)
  on : BitVec 32           -- the switches that are on
  filt : BitVec 32         -- filtered states and readback as of the last samples (R317)
  rb : BitVec 32
  runs : Store Nat         -- equal raw samples in a row, by channel
  sampled : Store Nat      -- 1 + the time of the last sample, by group
  limit : Store Nat        -- 1 + the time at which a channel entered current limit
  latched : List Nat       -- latched channels (R324)
  hot : Bool               -- the field die is at 140 °C or above
  loss : Bool              -- supply loss (R326)
  lockout : Bool           -- VFLD has fallen below 14.0 V and not risen above 15.0 V (R325)
  tickAt : Option (BitVec 64)  -- the last field tick
  written : Bool           -- its image has been written
  ticks : Nat              -- SEQA of the last write
  chg : List Nat           -- groups that have raised their change event since the tick
  relAt : BitVec 64        -- when the reset was released (R329)
deriving DecidableEq, Repr, Inhabited

/-- The field port after reset: every channel an input, every switch off (R315, R329). -/
def FioSt.zero : FioSt :=
  { dir := 0, on := 0, filt := 0, rb := 0, runs := [], sampled := [], limit := [], latched := [], hot := false, loss := false,
    lockout := false, tickAt := none, written := true, ticks := 0, chg := [], relAt := 0 }

/-! ## The backup domain (20_backup_clock.md) -/

/-- What the backup domain holds besides its registers. It survives every reset of the device (R469). -/
structure BkSt where
  sec : BitVec 32          -- SEC
  sub : Nat                -- SUB
  acc : Nat                -- progress to the next crystal tick: 32,768 for each ns, a tick at 10^9
  n : Nat                  -- ticks of the trim period in progress (R474)
  trim : Int               -- the trim being spread over it
  edges : Option Nat       -- a SET in progress: tick edges since it was written (R476)
  wakePend : Bool          -- a write to BK_WAKE takes effect at the next tick (R478)
  vbat : Bool              -- the domain draws from VBAT (R469)
  bbofNew : Bool           -- BBOF newly set while on VBAT (R482)
  hostLat : BitVec 32      -- the host's backup latch (R475)
deriving DecidableEq, Repr, Inhabited

/-- The domain after it powers up (R481). -/
def BkSt.zero : BkSt :=
  { sec := 0, sub := 0, acc := 0, n := 0, trim := 0, edges := none, wakePend := false, vbat := false, bbofNew := false,
    hostLat := 0 }

/-! ## The unit fabric (15_unit_fabric.md) -/

/-- What the device holds of one fabric link besides its registers. -/
structure LinkSt where
  lock : Bool              -- block lock
  good : Nat               -- good HELLOs in a row, up to 3
  lastHello : BitVec 64    -- the last good HELLO
  nUid : Nat               -- what the neighbour last announced: UID, root, hops, epoch, capability
  nRoot : Nat
  nHops : Nat
  nEpoch : Nat
  nCap : BitVec 32
  nonce : BitVec 128       -- own nonce, drawn on entering LOCK (R494)
  nNonce : Option (BitVec 128)   -- the last nonce received
  auth : Bool              -- the neighbour has proved possession of the key
deriving DecidableEq, Repr, Inhabited

/-- A JOIN (R373): UID, present and requested number where valid. -/
structure JoinRec where
  uid : Nat
  cur : Option Nat
  req : Option Nat
deriving DecidableEq, Repr, Inhabited

/-- An LSA held for an origin (R374): number, LSEQ, UID, for each link the neighbour's number where UP, and the group
memberships with their flags; `at_`: when it was refreshed. -/
structure Lsa where
  num : Nat
  lseq : Nat
  uid : Nat
  nbrs : List (Option Nat)
  grps : List (Nat × Nat)
  at_ : BitVec 64
deriving DecidableEq, Repr, Inhabited

/-- A subscription in use (R379). -/
structure SubSt where
  stale : Bool
  age : Nat
  got : Bool               -- a publication was accepted in the period in progress
deriving DecidableEq, Repr, Inhabited

/-- What the fabric holds besides its registers. -/
structure FabSt where
  links : Store LinkSt
  root : Nat               -- UID of the root, own hop count to it, its EPOCH and when that last increased
  hops : Nat
  epoch : Nat
  epochAt : BitVec 64
  rootSince : BitVec 64    -- when the root last changed
  dead : Option (Nat × Nat)    -- the root discarded last, with its EPOCH (R372)
  joinAt : BitVec 64       -- when STATE became JOIN
  joins : List JoinRec     -- JOINs that the root has gathered
  via : List (Nat × Nat)   -- the link on which the JOIN of a UID arrived
  nums : List (Nat × Nat)  -- numbers that the root has assigned: number, UID
  assigned : Bool          -- the root has run its three passes
  lsdb : List Lsa
  lseq : Nat
  seq : Nat                -- frames sent
  pseq : Store Nat
  subs : Store SubSt
  t1 : Option (BitVec 64)  -- TSYNC_REQ in flight
  exch : Nat               -- exchanges in a row with an offset of at most 50 ns
  exchAt : BitVec 64
  delay : Int              -- link delay of the last exchange
  nPpb : Nat               -- rate corrections chosen so far
deriving DecidableEq, Repr, Inhabited

/-! ## The device and the state -/

/-- The device: everything but the fuses. -/
structure Dev where
  time : BitVec 64             -- the timebase (R409)
  regs : Store (BitVec 32)     -- registers by even address; unlisted: the reset value of Machine/RegMap.lean
  mem : Store (BitVec 16)      -- memory words by array and offset; unlisted: 0
  ecc : Store Ecc              -- granules that hold an error
  cores : Vector CoreSt 17     -- Ox tiles 0 to 15 and the Bellwether
  icache : Store CacheLine     -- instruction caches by 128 tile + line; unlisted: no line held (R120)
  scan : ScanSt
  prog : ProgSt
  axes : Store AxisSt
  groups : Store GroupSt
  mule : MuleSt
  rings : Store RingSt
  tm : TimeSt
  sys : SysSt
  hen : HenSt
  nv : NvSt
  key : KeySt
  hif : HifSt
  pair : PairSt
  can : Store CanSt
  fio : FioSt
  bk : BkSt
  fab : FabSt
  out : List Out               -- what the device has emitted, newest first
deriving DecidableEq, Repr

/-- A programmable fuse field (R488). `attr`: the attribute byte of a key slot. -/
structure FuseField where
  prog : Bool
  done : Bool
  value : BitVec 256
  attr : BitVec 8
  crc : BitVec 16
deriving DecidableEq, Repr, Inhabited

/-- A field that nothing has burnt. -/
def FuseField.empty : FuseField := { prog := false, done := false, value := 0, attr := 0, crc := 0 }

/-- A fuse bank: two root fields and 32 key slots by number; a slot not listed is unprogrammed. -/
structure Bank where
  rootA : FuseField
  rootB : FuseField
  slots : Store FuseField
deriving DecidableEq, Repr, Inhabited

/-- A bank that nothing has burnt. -/
def Bank.empty : Bank := { rootA := FuseField.empty, rootB := FuseField.empty, slots := [] }

/-- The fuse array. -/
structure Fuses where
  lc : BitVec 16           -- the lifecycle word (R484)
  openB : Bank             -- the banks of OPEN and SEALED (R488)
  sealedB : Bank
  protA : FuseField        -- the copies of the protection fuse set (R498): PS_HREG, PS_CMDA, PS_POL, low dword first
  protB : FuseField
  opk : BitVec 384         -- OPK_HASH, dword 0 lowest
  uid : BitVec 64
deriving DecidableEq, Repr, Inhabited

/-- The machine: the commands waiting, first in, first out; the fuses; the device. -/
structure State where
  pending : List Instr
  fuses : Fuses
  dev : Dev
deriving DecidableEq, Repr

/-- The fuses of a part in FACTORY that nothing has burnt. The spec gives a part no OPK_HASH and no UID: DESIGN CHOICE 0,
log entry 7. -/
def Fuses.blank : Fuses :=
  { lc := 0, openB := Bank.empty, sealedB := Bank.empty, protA := FuseField.empty, protB := FuseField.empty, opk := 0, uid := 0 }

/-- The cores after reset. -/
def coresReset : Vector CoreSt 17 :=
  (Vector.replicate 17 CoreSt.zero).set 16 CoreSt.bellwether

/-- The device after a power-on reset with unprogrammed fuses and empty MRAM. -/
def Dev.reset : Dev :=
  { time := 0, regs := [], mem := [], ecc := [], cores := coresReset, icache := [], scan := ScanSt.zero, prog := ProgSt.zero,
    axes := [], groups := [], mule := { ux := [], diffLim := [], listT := 0, evs := [], seen := [] }, rings := [], tm := TimeSt.zero, sys := SysSt.zero,
    hen := HenSt.zero, nv := NvSt.zero, key := KeySt.zero, hif := HifSt.zero, pair := PairSt.zero, can := [],
    fio := FioSt.zero, bk := BkSt.zero, fab := default, out := [] }

/-- The machine right after reset: no command waits. -/
def State.reset : State :=
  { pending := [], fuses := Fuses.blank, dev := Dev.reset }

end Sys2Proof.Machine
end

