-- ==== Sys2Proof/Machine/RegMap.lean ====
section
/-! DEFINITION. The register map: every 32-bit register the spec names, with its address, its instances, its reset
value (R9) and its fields with their access codes (Table 0.5), as the register tables of the chapters of spec/ give
them. A register that no W address reaches (the host-link set-up registers of 14_host_interface.md) has the key
0x1000000 plus half its H offset. -/

namespace Sys2Proof.Machine

/-- The access codes of Table 0.5 (R6). `woh`: a WO field whose written value the block holds. -/
inductive Acc where
  | ro | rw | wo | woh | w1c | w1s | rw1 | fuse
deriving DecidableEq, Repr, Inhabited

/-- A named bit range of one register (R5). -/
structure Fld where
  addr : Nat
  hi : Nat
  lo : Nat
deriving DecidableEq, Repr, Inhabited

/-- One field row of a register table. -/
structure FieldRow where
  hi : Nat
  lo : Nat
  acc : Acc
deriving DecidableEq, Repr, Inhabited

/-- The registers, by name. -/
inductive RegName where
  | AXIS_CTRL | AXIS_CMD | AXIS_STAT | AXIS_SAT | AXIS_MAP | AXIS_FB_CFG | AXIS_POS_OFS | AXIS_POS_ACT
  | AXIS_VEL_ACT | AXIS_POS_SP | AXIS_VEL_SP | AXIS_ACC_SP | AXIS_POS_ERR | AXIS_VEL_CMD | AXIS_VEL_ERR | AXIS_TRQ
  | AXIS_OUT | AXIS_OUT_MAX | AXIS_OUT_MIN | AXIS_VCMD_MAX | AXIS_TRQ_OFS | AXIS_FE_LIM | AXIS_FE_TIME
  | AXIS_FE_WARN | AXIS_FE_CNT | AXIS_FE_PEAK | AXIS_EN_TIME | AXIS_FB_AGE | AXIS_HOLD_CNT | AXIS_SAMPLE_CNT
  | AXIS_FAULT_TLO | AXIS_FAULT_THI | AXIS_DRV_STAT | AXIS_DRV_CTRL | AXIS_POS_PREV | AXIS_VEL_RAW | AXIS_XC_OUT
  | AXIS_SWAP_CNT | AXIS_N1_OUT | AXIS_N2_OUT | AXIS_S_POS | AXIS_S_VEL | AXIS_S_NA | AXIS_S_NB | COEF | SEGQ
  | GROUP_CFG | GROUP_CMD | GROUP_STAT | GROUP_QPTR | GROUP_SYNC_MASK | GROUP_CUR | GROUP_ERR | GROUP_SEG_CNT
  | GROUP_MEMBER_AXIS | GROUP_MEMBER_VMAX | GROUP_MEMBER_AMAX | GROUP_MEMBER_JMAX | GROUP_MEMBER_QAMAX
  | GROUP_MEMBER_QJMAX | GROUP_MEMBER_PLAN | GROUP_MEMBER_TARGET | MULE_CMD | MULE_STAT | SWAP_SEL | MULE_FAULT
  | GANTRY_CTRL | GANTRY_STAT | GANTRY_OFS | GANTRY_DIFF | GANTRY_DIFF_LIM | GANTRY_S_XC | SETUP_LOCK | AE_STATUS
  | AE_ADDR | RESET_CAUSE | BOOT_STAT | FW_VER | FW_STAT | BOOT_ARUN | SUP_STAT | MC_STATUS | MC_ADDR | MC_CTRL
  | GOOSE_PERIOD | GOOSE_OPEN | GOOSE_REG | GOOSE_CHK | GOOSE_STAT | GOOSE_COUNT | GOOSE_SEEN | GOOSE_MISSING
  | GOOSE_DUP | TIME_LO | TIME_HI | TB_SET_LO | TB_SET_HI | TB_CTRL | TB_STAT | TB_ADJ | EV_RAISED | EV_HPEND
  | EV_ROUTE | EV_VEC | EV_TSL | SCAN_CTRL | SCAN_STAT | SCAN_GAP | SCAN_CEIL | SCAN_CNT | SCAN_LAST | SCAN_MAX
  | PMAP | CTASK | CTASK_STAT | FORCE_CTRL | FORCE_ORPHAN | TILE_EMU_VEC | TILE_ENTRY | TILE_STK | TILE_EVT_STK
  | TILE_ACC_VEC | TILE_CTRL | TILE_STATE | PROG_STAT | PROG_ID | CHG_CTRL | STAGE_PTR | STAGE_DATA | CHG_BOUND
  | CHG_LAST | CHG_COUNT | PAIR_CFG | PAIR_CTRL | PAIR_STAT | MIR_VER | MIR_PT | MIR_CYC | MIR_LAG | TKO_CNT
  | FAB_CFG | FAB_CMD | FAB_STAT | FAB_ADDR | UID_LO | UID_HI | ROOT_LO | ROOT_HI | LINK_STAT | LINK_CAP
  | LINK_CRC | FAB_DROP | TSYNC_STAT | TSYNC_OFS | GRP | PUB_SRC | PUB_DST | PUB_CTRL | SUB_CTRL | SUB_DST | ROUTE
  | NV_CFG | NV_STAT | NVR_CMD | NVR_ADDR | NVR_BUF | NVR_LEN | NVR_RES | NVR_SEQ | NV_PF | NV_ECNT | NV_VRANGE
  | WRING_BASE | WRING_CFG | WRING_SRC | WRING_SEQ | WRING_DATA | HEN_CFG | HEN_CMD | HEN_STAT | HEN_SEQ
  | HEN_FSEQ | HEN_SUPP | HEN_SEN | HEN_MAP | HEN_CLS | HEN_RANGE | HEN_RSEL | HEN_RWIN | KE_STAT | LC_STAT
  | LC_CMD | PS_HREG | PS_CMDA | PS_POL | PS_SHREG | PS_SCMDA | PS_SPOL | PS_BURN | KS_STATE | KS_DATA | KS_PROG
  | KS_ATTR | OPK_HASH | FIO_DIR | FIO_IN | FIO_RB | FIO_OUT | FIO_GCFG | FIO_CCFG | FIO_STAT | FIO_RETRY | BK_IF
  | BK_CMD | BK_SET_SEC | BK_SET_SUB | BK_SUB | BK_SEC | BK_WAKE | BK_NEXT_SEC | BK_NEXT_SUB | BK_STAT | BK_CAL
  | PFLAG | WIN_POOL | PG_CMD | WIN_STAT | HOST_IRQ | RING_CFG | RING_CMD | RING_STAT | RING_LOOP | RING_CYC
  | RING_TAPPLY | RING_CPT | RING_SVC_CTRL | RING_SVC_DATA | RING_SVC_STAT | RING_NODE_VENDOR | RING_NODE_PRODUCT
  | RING_NODE_DLY | RING_NODE_TXOFS | RING_HEAL_STAT | RING_HEAL_DELTA | RING_CNT_CLR | RING_MISSMAP
  | RING_SLOT_MISS | RING_EARLY | RING_LATE | RING_FCS_ERR | RING_STRAY | RING_MF_LOST | RING_BREAK_CNT
  | RING_NODE_MISS | RING_NODE_AERR | CAN_ARBT | CAN_DATT | CAN_LDC | CAN_CFG | CAN_CMD | CAN_STAT | CAN_ECNT
  | CAN_IMG | CAN_TAT_WIN | CAN_MRA | CAN_MRW | CAN_MRR | CAN_TXREQ | CAN_TXCAN | CAN_TXOK | CAN_TXFAIL | CAN_RXQS
  | CAN_RXQA | CAN_RXQ_DROP | CAN_RXQ_WM | FORCE_LO | FORCE_HI | RING_SCHED_LO | RING_SCHED_HI | HIF_STAT
  | CMDQ_BASE_LO | CMDQ_BASE_HI | CMDQ_CFG | CMDQ_STAT | CPLQ_BASE_LO | CPLQ_BASE_HI | CPLQ_CFG | CPLQ_STAT
deriving DecidableEq, Repr, Inhabited

/-- One register table: base address, instance counts with their strides, reset value, fields. -/
structure RegRow where
  name : RegName
  base : Nat
  dims : List (Nat × Nat)
  reset : Nat
  fields : List FieldRow
deriving DecidableEq, Repr, Inhabited

/-- Registers of the block group Axis. -/
def regRowsAxis : List RegRow := [
  ⟨.AXIS_CTRL, 0xD0000, [(128, 0x80)], 0x0, [⟨7, 7, .rw⟩, ⟨6, 6, .rw⟩, ⟨5, 5, .rw⟩, ⟨4, 4, .rw⟩, ⟨3, 3, .rw⟩, ⟨2, 2, .rw⟩, ⟨1, 0, .rw⟩]⟩,
  ⟨.AXIS_CMD, 0xD0002, [(128, 0x80)], 0x0, [⟨4, 4, .wo⟩, ⟨3, 3, .wo⟩, ⟨2, 2, .wo⟩, ⟨1, 1, .wo⟩, ⟨0, 0, .wo⟩]⟩,
  ⟨.AXIS_STAT, 0xD0004, [(128, 0x80)], 0x0, [⟨23, 16, .ro⟩, ⟨12, 12, .w1c⟩, ⟨11, 11, .w1c⟩, ⟨10, 10, .w1c⟩, ⟨9, 9, .w1c⟩, ⟨8, 8, .w1c⟩, ⟨5, 5, .ro⟩, ⟨4, 4, .ro⟩, ⟨2, 0, .ro⟩]⟩,
  ⟨.AXIS_SAT, 0xD0006, [(128, 0x80)], 0x0, [⟨11, 11, .w1c⟩, ⟨10, 10, .w1c⟩, ⟨9, 9, .w1c⟩, ⟨8, 8, .w1c⟩, ⟨7, 7, .w1c⟩, ⟨6, 6, .w1c⟩, ⟨5, 5, .w1c⟩, ⟨4, 4, .w1c⟩, ⟨3, 3, .w1c⟩, ⟨2, 2, .w1c⟩, ⟨1, 1, .w1c⟩, ⟨0, 0, .w1c⟩]⟩,
  ⟨.AXIS_MAP, 0xD0008, [(128, 0x80)], 0x0, [⟨15, 15, .rw⟩, ⟨8, 7, .rw⟩, ⟨6, 2, .rw⟩, ⟨1, 0, .rw⟩]⟩,
  ⟨.AXIS_FB_CFG, 0xD000A, [(128, 0x80)], 0x300, [⟨15, 8, .rw⟩, ⟨3, 3, .rw⟩, ⟨2, 0, .rw⟩]⟩,
  ⟨.AXIS_POS_OFS, 0xD000C, [(128, 0x80)], 0x0, [⟨31, 0, .rw⟩]⟩,
  ⟨.AXIS_POS_ACT, 0xD000E, [(128, 0x80)], 0x0, [⟨31, 0, .ro⟩]⟩,
  ⟨.AXIS_VEL_ACT, 0xD0010, [(128, 0x80)], 0x0, [⟨31, 0, .ro⟩]⟩,
  ⟨.AXIS_POS_SP, 0xD0012, [(128, 0x80)], 0x0, [⟨31, 0, .rw⟩]⟩,
  ⟨.AXIS_VEL_SP, 0xD0014, [(128, 0x80)], 0x0, [⟨31, 0, .rw⟩]⟩,
  ⟨.AXIS_ACC_SP, 0xD0016, [(128, 0x80)], 0x0, [⟨31, 0, .rw⟩]⟩,
  ⟨.AXIS_POS_ERR, 0xD0018, [(128, 0x80)], 0x0, [⟨31, 0, .ro⟩]⟩,
  ⟨.AXIS_VEL_CMD, 0xD001A, [(128, 0x80)], 0x0, [⟨31, 0, .ro⟩]⟩,
  ⟨.AXIS_VEL_ERR, 0xD001C, [(128, 0x80)], 0x0, [⟨31, 0, .ro⟩]⟩,
  ⟨.AXIS_TRQ, 0xD001E, [(128, 0x80)], 0x0, [⟨31, 0, .ro⟩]⟩,
  ⟨.AXIS_OUT, 0xD0020, [(128, 0x80)], 0x0, [⟨31, 0, .ro⟩]⟩,
  ⟨.AXIS_OUT_MAX, 0xD0022, [(128, 0x80)], 0x7FFFFFFF, [⟨31, 0, .rw⟩]⟩,
  ⟨.AXIS_OUT_MIN, 0xD0024, [(128, 0x80)], 0x80000000, [⟨31, 0, .rw⟩]⟩,
  ⟨.AXIS_VCMD_MAX, 0xD0026, [(128, 0x80)], 0x7FFFFFFF, [⟨31, 0, .rw⟩]⟩,
  ⟨.AXIS_TRQ_OFS, 0xD0028, [(128, 0x80)], 0x0, [⟨31, 0, .rw⟩]⟩,
  ⟨.AXIS_FE_LIM, 0xD002A, [(128, 0x80)], 0x0, [⟨31, 0, .rw⟩]⟩,
  ⟨.AXIS_FE_TIME, 0xD002C, [(128, 0x80)], 0x0, [⟨31, 0, .rw⟩]⟩,
  ⟨.AXIS_FE_WARN, 0xD002E, [(128, 0x80)], 0x0, [⟨31, 0, .rw⟩]⟩,
  ⟨.AXIS_FE_CNT, 0xD0030, [(128, 0x80)], 0x0, [⟨31, 0, .ro⟩]⟩,
  ⟨.AXIS_FE_PEAK, 0xD0032, [(128, 0x80)], 0x0, [⟨31, 0, .ro⟩]⟩,
  ⟨.AXIS_EN_TIME, 0xD0034, [(128, 0x80)], 0xC80, [⟨31, 0, .rw⟩]⟩,
  ⟨.AXIS_FB_AGE, 0xD0036, [(128, 0x80)], 0xFF, [⟨31, 0, .ro⟩]⟩,
  ⟨.AXIS_HOLD_CNT, 0xD0038, [(128, 0x80)], 0x0, [⟨31, 0, .ro⟩]⟩,
  ⟨.AXIS_SAMPLE_CNT, 0xD003A, [(128, 0x80)], 0x0, [⟨31, 0, .ro⟩]⟩,
  ⟨.AXIS_FAULT_TLO, 0xD003C, [(128, 0x80)], 0x0, [⟨31, 0, .ro⟩]⟩,
  ⟨.AXIS_FAULT_THI, 0xD003E, [(128, 0x80)], 0x0, [⟨31, 0, .ro⟩]⟩,
  ⟨.AXIS_DRV_STAT, 0xD0040, [(128, 0x80)], 0x0, [⟨31, 0, .ro⟩]⟩,
  ⟨.AXIS_DRV_CTRL, 0xD0042, [(128, 0x80)], 0x0, [⟨15, 0, .rw⟩]⟩,
  ⟨.AXIS_POS_PREV, 0xD0044, [(128, 0x80)], 0x0, [⟨31, 0, .ro⟩]⟩,
  ⟨.AXIS_VEL_RAW, 0xD0046, [(128, 0x80)], 0x0, [⟨31, 0, .ro⟩]⟩,
  ⟨.AXIS_XC_OUT, 0xD0048, [(128, 0x80)], 0x0, [⟨31, 0, .ro⟩]⟩,
  ⟨.AXIS_SWAP_CNT, 0xD004A, [(128, 0x80)], 0x0, [⟨31, 0, .ro⟩]⟩,
  ⟨.AXIS_N1_OUT, 0xD004C, [(128, 0x80)], 0x0, [⟨31, 0, .ro⟩]⟩,
  ⟨.AXIS_N2_OUT, 0xD004E, [(128, 0x80)], 0x0, [⟨31, 0, .ro⟩]⟩,
  ⟨.AXIS_S_POS, 0xD0050, [(128, 0x80), (4, 0x2)], 0x0, [⟨31, 0, .ro⟩]⟩,
  ⟨.AXIS_S_VEL, 0xD0058, [(128, 0x80), (6, 0x2)], 0x0, [⟨31, 0, .ro⟩]⟩,
  ⟨.AXIS_S_NA, 0xD0064, [(128, 0x80), (4, 0x2)], 0x0, [⟨31, 0, .ro⟩]⟩,
  ⟨.AXIS_S_NB, 0xD006C, [(128, 0x80), (4, 0x2)], 0x0, [⟨31, 0, .ro⟩]⟩]

/-- Registers of the block group Mule. -/
def regRowsMule : List RegRow := [
  ⟨.COEF, 0xD4000, [(128, 0x80), (2, 0x40), (32, 0x2)], 0x0, [⟨31, 0, .rw⟩]⟩,
  ⟨.SEGQ, 0xD8000, [(16, 0x400), (512, 0x2)], 0x0, [⟨31, 0, .rw⟩]⟩,
  ⟨.GROUP_CFG, 0xDC000, [(16, 0x100)], 0x0, [⟨31, 31, .rw⟩, ⟨15, 8, .rw⟩, ⟨1, 0, .rw⟩]⟩,
  ⟨.GROUP_CMD, 0xDC002, [(16, 0x100)], 0x0, [⟨4, 4, .wo⟩, ⟨3, 3, .wo⟩, ⟨2, 2, .wo⟩, ⟨1, 1, .wo⟩, ⟨0, 0, .wo⟩]⟩,
  ⟨.GROUP_STAT, 0xDC004, [(16, 0x100)], 0x0, [⟨19, 16, .ro⟩, ⟨12, 12, .ro⟩, ⟨11, 11, .ro⟩, ⟨10, 10, .ro⟩, ⟨9, 9, .ro⟩, ⟨7, 7, .w1c⟩, ⟨6, 6, .w1c⟩, ⟨5, 5, .w1c⟩, ⟨4, 4, .w1c⟩, ⟨2, 0, .ro⟩]⟩,
  ⟨.GROUP_QPTR, 0xDC006, [(16, 0x100)], 0x0, [⟨30, 24, .ro⟩, ⟨22, 16, .ro⟩, ⟨6, 0, .rw⟩]⟩,
  ⟨.GROUP_SYNC_MASK, 0xDC008, [(16, 0x100)], 0x0, [⟨15, 0, .rw⟩]⟩,
  ⟨.GROUP_CUR, 0xDC00A, [(16, 0x100)], 0x0, [⟨31, 24, .ro⟩, ⟨17, 0, .ro⟩]⟩,
  ⟨.GROUP_ERR, 0xDC00C, [(16, 0x100)], 0x0, [⟨14, 8, .ro⟩, ⟨7, 0, .ro⟩]⟩,
  ⟨.GROUP_SEG_CNT, 0xDC00E, [(16, 0x100)], 0x0, [⟨31, 0, .ro⟩]⟩,
  ⟨.GROUP_MEMBER_AXIS, 0xDC020, [(16, 0x100), (8, 0x10)], 0x0, [⟨15, 15, .rw⟩, ⟨6, 0, .rw⟩]⟩,
  ⟨.GROUP_MEMBER_VMAX, 0xDC022, [(16, 0x100), (8, 0x10)], 0x0, [⟨31, 0, .rw⟩]⟩,
  ⟨.GROUP_MEMBER_AMAX, 0xDC024, [(16, 0x100), (8, 0x10)], 0x0, [⟨31, 0, .rw⟩]⟩,
  ⟨.GROUP_MEMBER_JMAX, 0xDC026, [(16, 0x100), (8, 0x10)], 0x0, [⟨31, 0, .rw⟩]⟩,
  ⟨.GROUP_MEMBER_QAMAX, 0xDC028, [(16, 0x100), (8, 0x10)], 0x0, [⟨31, 0, .rw⟩]⟩,
  ⟨.GROUP_MEMBER_QJMAX, 0xDC02A, [(16, 0x100), (8, 0x10)], 0x0, [⟨31, 0, .rw⟩]⟩,
  ⟨.GROUP_MEMBER_PLAN, 0xDC02C, [(16, 0x100), (8, 0x10)], 0x0, [⟨31, 0, .ro⟩]⟩,
  ⟨.GROUP_MEMBER_TARGET, 0xDC02E, [(16, 0x100), (8, 0x10)], 0x0, [⟨31, 0, .ro⟩]⟩,
  ⟨.MULE_CMD, 0xDD000, [], 0x0, [⟨1, 1, .wo⟩, ⟨0, 0, .wo⟩]⟩,
  ⟨.MULE_STAT, 0xDD002, [], 0x0, [⟨9, 9, .w1c⟩, ⟨8, 8, .ro⟩, ⟨7, 0, .ro⟩]⟩,
  ⟨.SWAP_SEL, 0xDD008, [(4, 0x2)], 0x0, [⟨31, 0, .rw⟩]⟩,
  ⟨.MULE_FAULT, 0xDD010, [(4, 0x2)], 0x0, [⟨31, 0, .ro⟩]⟩,
  ⟨.GANTRY_CTRL, 0xDD100, [(16, 0x20)], 0x0, [⟨31, 31, .rw⟩, ⟨15, 15, .rw⟩, ⟨14, 8, .rw⟩, ⟨6, 0, .rw⟩]⟩,
  ⟨.GANTRY_STAT, 0xDD102, [(16, 0x20)], 0x0, [⟨1, 1, .ro⟩, ⟨0, 0, .w1c⟩]⟩,
  ⟨.GANTRY_OFS, 0xDD104, [(16, 0x20)], 0x0, [⟨31, 0, .rw⟩]⟩,
  ⟨.GANTRY_DIFF, 0xDD106, [(16, 0x20)], 0x0, [⟨31, 0, .ro⟩]⟩,
  ⟨.GANTRY_DIFF_LIM, 0xDD108, [(16, 0x20)], 0x0, [⟨31, 0, .rw⟩]⟩,
  ⟨.GANTRY_S_XC, 0xDD110, [(16, 0x20), (4, 0x2)], 0x0, [⟨31, 0, .ro⟩]⟩]

/-- Registers of the block group Id. -/
def regRowsId : List RegRow := [
  ⟨.SETUP_LOCK, 0xE0020, [], 0x0, [⟨0, 0, .w1s⟩]⟩,
  ⟨.AE_STATUS, 0xE0022, [], 0x0, [⟨31, 24, .ro⟩, ⟨23, 16, .ro⟩, ⟨11, 8, .ro⟩, ⟨2, 2, .wo⟩, ⟨1, 1, .w1c⟩, ⟨0, 0, .w1c⟩]⟩,
  ⟨.AE_ADDR, 0xE0024, [], 0x0, [⟨31, 28, .ro⟩, ⟨27, 24, .ro⟩, ⟨23, 0, .ro⟩]⟩,
  ⟨.RESET_CAUSE, 0xE0028, [], 0x1, [⟨7, 7, .w1c⟩, ⟨6, 6, .w1c⟩, ⟨5, 5, .w1c⟩, ⟨4, 4, .w1c⟩, ⟨3, 3, .w1c⟩, ⟨2, 2, .w1c⟩, ⟨1, 1, .w1c⟩, ⟨0, 0, .w1c⟩]⟩,
  ⟨.BOOT_STAT, 0xE002A, [], 0x0, [⟨23, 20, .ro⟩, ⟨11, 8, .ro⟩, ⟨7, 7, .ro⟩, ⟨6, 6, .ro⟩, ⟨5, 5, .ro⟩]⟩,
  ⟨.FW_VER, 0xE002C, [], 0x0, [⟨31, 0, .ro⟩]⟩,
  ⟨.FW_STAT, 0xE002E, [], 0x0, [⟨23, 16, .ro⟩, ⟨2, 2, .ro⟩, ⟨1, 1, .ro⟩]⟩,
  ⟨.BOOT_ARUN, 0xE0030, [], 0x0, [⟨31, 31, .wo⟩, ⟨1, 0, .rw⟩]⟩,
  ⟨.SUP_STAT, 0xE0100, [], 0x0, [⟨31, 24, .ro⟩, ⟨23, 16, .ro⟩, ⟨8, 8, .w1c⟩, ⟨5, 5, .w1c⟩, ⟨4, 4, .w1c⟩, ⟨3, 3, .w1c⟩, ⟨2, 2, .w1c⟩, ⟨1, 1, .w1c⟩, ⟨0, 0, .w1c⟩]⟩,
  ⟨.MC_STATUS, 0xE0200, [], 0x0, [⟨31, 16, .ro⟩, ⟨11, 11, .w1c⟩, ⟨10, 8, .ro⟩, ⟨7, 4, .ro⟩, ⟨3, 3, .w1c⟩, ⟨2, 2, .w1c⟩, ⟨1, 1, .w1c⟩]⟩,
  ⟨.MC_ADDR, 0xE0202, [], 0x0, [⟨31, 28, .ro⟩, ⟨27, 24, .ro⟩, ⟨23, 0, .ro⟩]⟩,
  ⟨.MC_CTRL, 0xE0204, [], 0x4, [⟨12, 12, .wo⟩, ⟨8, 8, .wo⟩, ⟨3, 0, .rw⟩]⟩,
  ⟨.GOOSE_PERIOD, 0xE0300, [], 0x186A0, [⟨19, 0, .rw1⟩]⟩,
  ⟨.GOOSE_OPEN, 0xE0302, [], 0x0, [⟨19, 0, .rw1⟩]⟩,
  ⟨.GOOSE_REG, 0xE0304, [], 0x1, [⟨15, 0, .rw1⟩]⟩,
  ⟨.GOOSE_CHK, 0xE0306, [], 0x0, [⟨31, 16, .wo⟩, ⟨3, 0, .wo⟩]⟩,
  ⟨.GOOSE_STAT, 0xE0308, [], 0x0, [⟨8, 8, .w1c⟩, ⟨7, 7, .w1c⟩, ⟨6, 6, .w1c⟩, ⟨5, 5, .w1c⟩, ⟨4, 4, .w1c⟩, ⟨0, 0, .ro⟩]⟩,
  ⟨.GOOSE_COUNT, 0xE030A, [], 0x0, [⟨19, 0, .ro⟩]⟩,
  ⟨.GOOSE_SEEN, 0xE030C, [], 0x0, [⟨31, 0, .ro⟩]⟩,
  ⟨.GOOSE_MISSING, 0xE030E, [], 0x0, [⟨31, 0, .ro⟩]⟩,
  ⟨.GOOSE_DUP, 0xE0310, [], 0x0, [⟨31, 0, .w1c⟩]⟩]

/-- Registers of the block group Time. -/
def regRowsTime : List RegRow := [
  ⟨.TIME_LO, 0xE0400, [], 0x0, [⟨31, 0, .ro⟩]⟩,
  ⟨.TIME_HI, 0xE0402, [], 0x0, [⟨31, 0, .ro⟩]⟩,
  ⟨.TB_SET_LO, 0xE0404, [], 0x0, [⟨31, 0, .rw⟩]⟩,
  ⟨.TB_SET_HI, 0xE0406, [], 0x0, [⟨31, 0, .rw⟩]⟩,
  ⟨.TB_CTRL, 0xE0408, [], 0x0, [⟨0, 0, .wo⟩]⟩,
  ⟨.TB_STAT, 0xE040A, [], 0x0, [⟨31, 16, .ro⟩, ⟨4, 4, .w1c⟩, ⟨3, 3, .ro⟩, ⟨1, 0, .ro⟩]⟩,
  ⟨.TB_ADJ, 0xE040C, [], 0x0, [⟨31, 0, .ro⟩]⟩,
  ⟨.EV_RAISED, 0xE0410, [(4, 0x2)], 0x0, [⟨31, 0, .w1c⟩]⟩,
  ⟨.EV_HPEND, 0xE0418, [(4, 0x2)], 0x0, [⟨31, 0, .w1c⟩]⟩,
  ⟨.EV_ROUTE, 0xE0500, [(128, 0x2)], 0x0, [⟨31, 31, .rw⟩, ⟨30, 30, .rw⟩, ⟨28, 24, .rw⟩, ⟨15, 0, .rw⟩]⟩,
  ⟨.EV_VEC, 0xE0600, [(128, 0x2)], 0x0, [⟨20, 0, .rw⟩]⟩,
  ⟨.EV_TSL, 0xE0700, [(128, 0x2)], 0x0, [⟨31, 0, .ro⟩]⟩]

/-- Registers of the block group Scan. -/
def regRowsScan : List RegRow := [
  ⟨.SCAN_CTRL, 0xE0800, [], 0x0, [⟨7, 7, .wo⟩, ⟨3, 3, .rw⟩, ⟨2, 0, .wo⟩]⟩,
  ⟨.SCAN_STAT, 0xE0802, [], 0x0, [⟨31, 16, .ro⟩, ⟨10, 10, .w1c⟩, ⟨9, 9, .w1c⟩, ⟨8, 8, .w1c⟩, ⟨7, 7, .ro⟩, ⟨2, 0, .ro⟩]⟩,
  ⟨.SCAN_GAP, 0xE0804, [], 0x0, [⟨16, 0, .rw⟩]⟩,
  ⟨.SCAN_CEIL, 0xE0806, [], 0x0, [⟨23, 0, .rw⟩]⟩,
  ⟨.SCAN_CNT, 0xE0808, [], 0x0, [⟨31, 0, .ro⟩]⟩,
  ⟨.SCAN_LAST, 0xE080A, [], 0x0, [⟨31, 0, .ro⟩]⟩,
  ⟨.SCAN_MAX, 0xE080C, [], 0x0, [⟨31, 0, .ro⟩]⟩,
  ⟨.PMAP, 0xE0820, [(13, 0x2)], 0x0, [⟨31, 31, .rw⟩, ⟨30, 16, .rw⟩, ⟨15, 15, .rw⟩, ⟨14, 0, .rw⟩]⟩,
  ⟨.CTASK, 0xE0840, [(8, 0x2)], 0x0, [⟨31, 31, .rw⟩, ⟨30, 29, .rw⟩, ⟨28, 26, .rw⟩, ⟨25, 22, .rw⟩, ⟨20, 0, .rw⟩]⟩,
  ⟨.CTASK_STAT, 0xE0850, [], 0x0, [⟨31, 16, .ro⟩, ⟨15, 8, .ro⟩, ⟨7, 0, .w1c⟩]⟩,
  ⟨.FORCE_CTRL, 0xE0860, [], 0x0, [⟨28, 16, .ro⟩, ⟨15, 15, .wo⟩, ⟨14, 14, .wo⟩, ⟨12, 0, .ro⟩]⟩,
  ⟨.FORCE_ORPHAN, 0xE0862, [], 0x0, [⟨12, 0, .ro⟩]⟩,
  ⟨.TILE_EMU_VEC, 0xE0B00, [(16, 0x2)], 0x0, [⟨31, 31, .rw⟩, ⟨20, 0, .rw⟩]⟩,
  ⟨.TILE_ENTRY, 0xE0B20, [(16, 0x2)], 0x0, [⟨31, 31, .rw⟩, ⟨20, 0, .rw⟩]⟩,
  ⟨.TILE_STK, 0xE0B40, [(16, 0x2)], 0x20000, [⟨23, 0, .rw⟩]⟩,
  ⟨.TILE_EVT_STK, 0xE0B60, [(16, 0x2)], 0x1F000, [⟨23, 0, .rw⟩]⟩,
  ⟨.TILE_ACC_VEC, 0xE0B80, [(16, 0x2)], 0x0, [⟨31, 31, .rw⟩, ⟨20, 0, .rw⟩]⟩,
  ⟨.TILE_CTRL, 0xE0BA0, [(16, 0x2)], 0x0, [⟨0, 0, .rw⟩]⟩,
  ⟨.TILE_STATE, 0xE0BC0, [(16, 0x2)], 0x0, [⟨11, 8, .ro⟩, ⟨7, 7, .w1c⟩, ⟨6, 6, .w1c⟩, ⟨5, 5, .ro⟩, ⟨1, 0, .ro⟩]⟩]

/-- Registers of the block group Prog. -/
def regRowsProg : List RegRow := [
  ⟨.PROG_STAT, 0xE0C00, [], 0x0, [⟨31, 31, .ro⟩, ⟨23, 16, .ro⟩, ⟨7, 7, .w1c⟩, ⟨2, 0, .ro⟩]⟩,
  ⟨.PROG_ID, 0xE0C02, [], 0x0, [⟨31, 0, .ro⟩]⟩,
  ⟨.CHG_CTRL, 0xE0C04, [], 0x0, [⟨2, 0, .wo⟩]⟩,
  ⟨.STAGE_PTR, 0xE0C06, [], 0x0, [⟨20, 0, .rw⟩]⟩,
  ⟨.STAGE_DATA, 0xE0C08, [], 0x0, [⟨31, 16, .wo⟩, ⟨15, 0, .wo⟩]⟩,
  ⟨.CHG_BOUND, 0xE0C0A, [], 0x0, [⟨31, 0, .ro⟩]⟩,
  ⟨.CHG_LAST, 0xE0C0C, [], 0x0, [⟨31, 0, .ro⟩]⟩,
  ⟨.CHG_COUNT, 0xE0C0E, [], 0x0, [⟨31, 24, .ro⟩, ⟨23, 16, .ro⟩, ⟨15, 0, .ro⟩]⟩]

/-- Registers of the block group Link. -/
def regRowsLink : List RegRow := [
  ⟨.PAIR_CFG, 0xE1000, [], 0x100, [⟨31, 31, .rw⟩, ⟨30, 30, .rw1⟩, ⟨29, 29, .rw⟩, ⟨28, 28, .wo⟩, ⟨15, 8, .rw⟩, ⟨1, 0, .rw⟩]⟩,
  ⟨.PAIR_CTRL, 0xE1002, [], 0x0, [⟨1, 1, .wo⟩, ⟨0, 0, .wo⟩]⟩,
  ⟨.PAIR_STAT, 0xE1004, [], 0x0, [⟨31, 30, .ro⟩, ⟨29, 28, .ro⟩, ⟨27, 24, .ro⟩, ⟨7, 7, .w1c⟩, ⟨6, 6, .w1c⟩, ⟨5, 5, .w1c⟩, ⟨4, 4, .w1c⟩, ⟨3, 3, .ro⟩, ⟨2, 2, .ro⟩, ⟨1, 1, .ro⟩]⟩,
  ⟨.MIR_VER, 0xE1006, [], 0x100, [⟨31, 16, .ro⟩, ⟨15, 8, .ro⟩, ⟨7, 0, .ro⟩]⟩,
  ⟨.MIR_PT, 0xE1008, [], 0x0, [⟨31, 0, .ro⟩]⟩,
  ⟨.MIR_CYC, 0xE100A, [], 0x0, [⟨31, 0, .ro⟩]⟩,
  ⟨.MIR_LAG, 0xE100C, [], 0x0, [⟨31, 16, .ro⟩, ⟨15, 0, .ro⟩]⟩,
  ⟨.TKO_CNT, 0xE100E, [], 0x0, [⟨31, 16, .ro⟩, ⟨15, 0, .ro⟩]⟩,
  ⟨.FAB_CFG, 0xE1400, [], 0xF0000, [⟨31, 31, .rw⟩, ⟨30, 30, .rw⟩, ⟨19, 16, .rw⟩, ⟨15, 15, .rw⟩, ⟨7, 0, .rw⟩]⟩,
  ⟨.FAB_CMD, 0xE1402, [], 0x0, [⟨1, 1, .wo⟩, ⟨0, 0, .wo⟩]⟩,
  ⟨.FAB_STAT, 0xE1404, [], 0x0, [⟨31, 24, .ro⟩, ⟨23, 23, .ro⟩, ⟨22, 22, .ro⟩, ⟨21, 21, .w1c⟩, ⟨20, 20, .ro⟩, ⟨19, 19, .ro⟩, ⟨18, 18, .w1c⟩, ⟨15, 8, .ro⟩, ⟨2, 0, .ro⟩]⟩,
  ⟨.FAB_ADDR, 0xE1406, [], 0xFFFFFF00, [⟨31, 8, .ro⟩]⟩,
  ⟨.UID_LO, 0xE1408, [], 0x0, [⟨31, 0, .fuse⟩]⟩,
  ⟨.UID_HI, 0xE140A, [], 0x0, [⟨31, 0, .fuse⟩]⟩,
  ⟨.ROOT_LO, 0xE140C, [], 0x0, [⟨31, 0, .ro⟩]⟩,
  ⟨.ROOT_HI, 0xE140E, [], 0x0, [⟨31, 0, .ro⟩]⟩,
  ⟨.LINK_STAT, 0xE1410, [(4, 0x2)], 0x0, [⟨31, 24, .ro⟩, ⟨23, 23, .ro⟩, ⟨2, 0, .ro⟩]⟩,
  ⟨.LINK_CAP, 0xE1418, [(4, 0x2)], 0x0, [⟨31, 0, .ro⟩]⟩,
  ⟨.LINK_CRC, 0xE1420, [(4, 0x2)], 0x0, [⟨31, 0, .ro⟩]⟩,
  ⟨.FAB_DROP, 0xE1428, [], 0x0, [⟨31, 0, .ro⟩]⟩,
  ⟨.TSYNC_STAT, 0xE142A, [], 0xFF, [⟨7, 0, .ro⟩]⟩,
  ⟨.TSYNC_OFS, 0xE142C, [], 0x0, [⟨31, 0, .ro⟩]⟩,
  ⟨.GRP, 0xE1430, [(2, 0x2)], 0x0, [⟨31, 31, .rw⟩, ⟨30, 30, .rw⟩, ⟨29, 29, .rw⟩, ⟨7, 0, .rw⟩]⟩,
  ⟨.PUB_SRC, 0xE1500, [(32, 0x8)], 0x0, [⟨30, 24, .rw⟩, ⟨23, 0, .rw⟩]⟩,
  ⟨.PUB_DST, 0xE1502, [(32, 0x8)], 0x0, [⟨31, 0, .rw⟩]⟩,
  ⟨.PUB_CTRL, 0xE1504, [(32, 0x8)], 0x0, [⟨31, 31, .rw⟩, ⟨15, 0, .rw⟩]⟩,
  ⟨.SUB_CTRL, 0xE1600, [(32, 0x8)], 0x0, [⟨31, 31, .rw⟩, ⟨28, 24, .rw⟩, ⟨23, 16, .rw⟩, ⟨15, 0, .rw⟩]⟩,
  ⟨.SUB_DST, 0xE1602, [(32, 0x8)], 0x0, [⟨30, 24, .rw⟩, ⟨23, 0, .rw⟩]⟩,
  ⟨.ROUTE, 0xE1700, [(64, 0x2)], 0xFFFFFFFF, [⟨31, 0, .ro⟩]⟩]

/-- Registers of the block group Nv. -/
def regRowsNv : List RegRow := [
  ⟨.NV_CFG, 0xE1800, [], 0x40, [⟨7, 4, .rw⟩]⟩,
  ⟨.NV_STAT, 0xE1802, [], 0x0, [⟨9, 9, .ro⟩, ⟨8, 8, .ro⟩, ⟨7, 7, .w1c⟩, ⟨6, 6, .w1c⟩, ⟨5, 5, .w1c⟩, ⟨4, 4, .w1c⟩, ⟨3, 3, .w1c⟩, ⟨1, 1, .ro⟩, ⟨0, 0, .ro⟩]⟩,
  ⟨.NVR_CMD, 0xE1804, [], 0x0, [⟨1, 0, .wo⟩]⟩,
  ⟨.NVR_ADDR, 0xE1806, [], 0x0, [⟨22, 0, .woh⟩]⟩,
  ⟨.NVR_BUF, 0xE1808, [], 0x0, [⟨23, 0, .woh⟩]⟩,
  ⟨.NVR_LEN, 0xE180A, [], 0x0, [⟨9, 0, .woh⟩]⟩,
  ⟨.NVR_RES, 0xE180C, [], 0x0, [⟨4, 4, .ro⟩, ⟨3, 0, .ro⟩]⟩,
  ⟨.NVR_SEQ, 0xE180E, [], 0x0, [⟨31, 0, .ro⟩]⟩,
  ⟨.NV_PF, 0xE1810, [], 0x0, [⟨31, 16, .ro⟩, ⟨15, 0, .ro⟩]⟩,
  ⟨.NV_ECNT, 0xE1812, [], 0x0, [⟨31, 16, .ro⟩, ⟨15, 0, .ro⟩]⟩,
  ⟨.NV_VRANGE, 0xE1820, [(8, 0x2)], 0xFFFF, [⟨31, 16, .rw⟩, ⟨15, 0, .rw⟩]⟩,
  ⟨.WRING_BASE, 0xE1840, [(16, 0x8)], 0x0, [⟨22, 0, .rw⟩]⟩,
  ⟨.WRING_CFG, 0xE1842, [(16, 0x8)], 0x0, [⟨31, 31, .rw⟩, ⟨30, 30, .rw⟩, ⟨28, 22, .rw⟩, ⟨19, 16, .rw⟩, ⟨11, 0, .rw⟩]⟩,
  ⟨.WRING_SRC, 0xE1844, [(16, 0x8)], 0x0, [⟨23, 0, .rw⟩]⟩,
  ⟨.WRING_SEQ, 0xE1846, [(16, 0x8)], 0x0, [⟨31, 0, .ro⟩]⟩,
  ⟨.WRING_DATA, 0xE1900, [(16, 0x10), (6, 0x2)], 0x0, [⟨31, 0, .ro⟩]⟩,
  ⟨.HEN_CFG, 0xE1C00, [], 0x80000000, [⟨31, 31, .rw⟩, ⟨30, 30, .rw⟩]⟩,
  ⟨.HEN_CMD, 0xE1C02, [], 0x0, [⟨4, 4, .wo⟩, ⟨3, 3, .wo⟩, ⟨2, 2, .wo⟩, ⟨1, 1, .wo⟩, ⟨0, 0, .wo⟩]⟩,
  ⟨.HEN_STAT, 0xE1C04, [], 0x0, [⟨31, 16, .ro⟩, ⟨10, 10, .ro⟩, ⟨9, 8, .ro⟩, ⟨7, 7, .w1c⟩, ⟨6, 6, .w1c⟩, ⟨5, 5, .ro⟩, ⟨4, 4, .ro⟩, ⟨3, 3, .ro⟩]⟩,
  ⟨.HEN_SEQ, 0xE1C06, [], 0x0, [⟨31, 0, .ro⟩]⟩,
  ⟨.HEN_FSEQ, 0xE1C08, [], 0x0, [⟨31, 0, .ro⟩]⟩,
  ⟨.HEN_SUPP, 0xE1C0A, [], 0x0, [⟨31, 0, .ro⟩]⟩,
  ⟨.HEN_SEN, 0xE1C10, [(4, 0x2)], 0x0, [⟨31, 0, .rw⟩]⟩,
  ⟨.HEN_MAP, 0xE1C20, [(16, 0x2)], 0x0, [⟨31, 0, .rw⟩]⟩,
  ⟨.HEN_CLS, 0xE1C40, [(16, 0x2)], 0x0, [⟨31, 31, .rw⟩, ⟨15, 0, .rw⟩]⟩,
  ⟨.HEN_RANGE, 0xE1C80, [(16, 0x8), (4, 0x2)], 0x0, [⟨29, 24, .rw⟩, ⟨23, 0, .rw⟩]⟩,
  ⟨.HEN_RSEL, 0xE1D00, [], 0x0, [⟨31, 31, .woh⟩, ⟨11, 0, .woh⟩]⟩,
  ⟨.HEN_RWIN, 0xE1D40, [(32, 0x2)], 0x0, [⟨31, 0, .ro⟩]⟩]

/-- Registers of the block group Key. -/
def regRowsKey : List RegRow := [
  ⟨.KE_STAT, 0xE2000, [], 0x0, [⟨31, 24, .ro⟩, ⟨23, 8, .ro⟩, ⟨1, 1, .ro⟩, ⟨0, 0, .w1c⟩]⟩,
  ⟨.LC_STAT, 0xE2010, [], 0xA00000, [⟨24, 24, .ro⟩, ⟨23, 22, .ro⟩, ⟨21, 21, .ro⟩, ⟨20, 20, .ro⟩, ⟨19, 19, .ro⟩, ⟨17, 16, .ro⟩, ⟨15, 0, .fuse⟩]⟩,
  ⟨.LC_CMD, 0xE2012, [], 0x0, [⟨31, 16, .wo⟩, ⟨1, 0, .wo⟩]⟩,
  ⟨.PS_HREG, 0xE2020, [], 0xFFFF, [⟨31, 0, .fuse⟩]⟩,
  ⟨.PS_CMDA, 0xE2022, [], 0x3FFF, [⟨31, 0, .fuse⟩]⟩,
  ⟨.PS_POL, 0xE2024, [], 0x0, [⟨31, 0, .fuse⟩]⟩,
  ⟨.PS_SHREG, 0xE2028, [], 0x0, [⟨31, 0, .rw⟩]⟩,
  ⟨.PS_SCMDA, 0xE202A, [], 0x0, [⟨31, 0, .rw⟩]⟩,
  ⟨.PS_SPOL, 0xE202C, [], 0x0, [⟨31, 0, .rw⟩]⟩,
  ⟨.PS_BURN, 0xE202E, [], 0x0, [⟨31, 16, .wo⟩]⟩,
  ⟨.KS_STATE, 0xE2040, [(2, 0x2)], 0xFFFFFFFF, [⟨31, 0, .fuse⟩]⟩,
  ⟨.KS_DATA, 0xE2060, [(8, 0x2)], 0x0, [⟨31, 0, .woh⟩]⟩,
  ⟨.KS_PROG, 0xE2070, [], 0x0, [⟨31, 16, .wo⟩, ⟨10, 8, .wo⟩, ⟨4, 0, .wo⟩]⟩,
  ⟨.KS_ATTR, 0xE2080, [(32, 0x2)], 0x0, [⟨2, 0, .fuse⟩]⟩,
  ⟨.OPK_HASH, 0xE20C0, [(12, 0x2)], 0x0, [⟨31, 0, .fuse⟩]⟩,
  ⟨.FIO_DIR, 0xE2400, [], 0x0, [⟨31, 0, .rw⟩]⟩,
  ⟨.FIO_IN, 0xE2402, [], 0x0, [⟨31, 0, .ro⟩]⟩,
  ⟨.FIO_RB, 0xE2404, [], 0x0, [⟨31, 0, .ro⟩]⟩,
  ⟨.FIO_OUT, 0xE2406, [], 0x0, [⟨31, 0, .ro⟩]⟩,
  ⟨.FIO_GCFG, 0xE2408, [(8, 0x2)], 0x400, [⟨14, 8, .rw⟩, ⟨1, 0, .rw⟩]⟩,
  ⟨.FIO_CCFG, 0xE2420, [(32, 0x2)], 0x0, [⟨7, 4, .rw⟩, ⟨2, 2, .rw⟩, ⟨1, 1, .rw⟩, ⟨0, 0, .rw⟩]⟩,
  ⟨.FIO_STAT, 0xE2460, [], 0x0, [⟨31, 24, .ro⟩, ⟨3, 3, .w1c⟩, ⟨2, 2, .ro⟩, ⟨1, 1, .ro⟩, ⟨0, 0, .w1c⟩]⟩,
  ⟨.FIO_RETRY, 0xE2462, [], 0x0, [⟨31, 0, .wo⟩]⟩]

/-- Registers of the block group Bk. -/
def regRowsBk : List RegRow := [
  ⟨.BK_IF, 0xE2800, [], 0x0, [⟨2, 2, .w1c⟩, ⟨1, 1, .ro⟩, ⟨0, 0, .ro⟩]⟩,
  ⟨.BK_CMD, 0xE2802, [], 0x0, [⟨0, 0, .wo⟩]⟩,
  ⟨.BK_SET_SEC, 0xE2804, [], 0x0, [⟨31, 0, .rw⟩]⟩,
  ⟨.BK_SET_SUB, 0xE2806, [], 0x0, [⟨14, 0, .rw⟩]⟩,
  ⟨.BK_SUB, 0xE2808, [], 0x0, [⟨14, 0, .ro⟩]⟩,
  ⟨.BK_SEC, 0xE280A, [], 0x0, [⟨31, 0, .ro⟩]⟩,
  ⟨.BK_WAKE, 0xE280C, [], 0x0, [⟨31, 31, .rw⟩, ⟨23, 0, .rw⟩]⟩,
  ⟨.BK_NEXT_SEC, 0xE280E, [], 0x0, [⟨31, 0, .ro⟩]⟩,
  ⟨.BK_NEXT_SUB, 0xE2810, [], 0x0, [⟨14, 0, .ro⟩]⟩,
  ⟨.BK_STAT, 0xE2812, [], 0x6, [⟨6, 6, .ro⟩, ⟨5, 5, .w1c⟩, ⟨4, 4, .w1c⟩, ⟨3, 3, .w1c⟩, ⟨2, 2, .w1c⟩, ⟨1, 1, .w1c⟩]⟩,
  ⟨.BK_CAL, 0xE2814, [], 0x0, [⟨7, 0, .rw⟩]⟩,
  ⟨.PFLAG, 0xE2C00, [(32, 0x2)], 0x0, [⟨31, 0, .ro⟩]⟩,
  ⟨.WIN_POOL, 0xE2C40, [(16, 0x2)], 0x0, [⟨31, 0, .rw⟩]⟩,
  ⟨.PG_CMD, 0xE2C60, [], 0x0, [⟨31, 30, .wo⟩, ⟨29, 28, .wo⟩, ⟨8, 0, .wo⟩]⟩,
  ⟨.WIN_STAT, 0xE2C62, [], 0x0, [⟨31, 16, .ro⟩, ⟨15, 0, .ro⟩]⟩,
  ⟨.HOST_IRQ, 0xE2C64, [], 0x0, [⟨4, 0, .wo⟩]⟩]

/-- Registers of the block group Ring. -/
def regRowsRing : List RegRow := [
  ⟨.RING_CFG, 0xE3000, [(4, 0x200)], 0x500001, [⟨23, 16, .rw⟩, ⟨13, 8, .rw⟩, ⟨7, 7, .rw⟩, ⟨6, 4, .rw⟩, ⟨2, 0, .rw⟩]⟩,
  ⟨.RING_CMD, 0xE3002, [(4, 0x200)], 0x0, [⟨1, 1, .wo⟩, ⟨0, 0, .wo⟩]⟩,
  ⟨.RING_STAT, 0xE3004, [(4, 0x200)], 0x0, [⟨31, 24, .ro⟩, ⟨23, 16, .ro⟩, ⟨12, 8, .ro⟩, ⟨5, 5, .w1c⟩, ⟨4, 4, .ro⟩, ⟨2, 0, .ro⟩]⟩,
  ⟨.RING_LOOP, 0xE3006, [(4, 0x200)], 0x0, [⟨31, 0, .ro⟩]⟩,
  ⟨.RING_CYC, 0xE3008, [(4, 0x200)], 0x0, [⟨31, 0, .ro⟩]⟩,
  ⟨.RING_TAPPLY, 0xE300A, [(4, 0x200)], 0x0, [⟨31, 0, .ro⟩]⟩,
  ⟨.RING_CPT, 0xE3010, [(4, 0x200), (8, 0x2)], 0x0, [⟨31, 31, .rw⟩, ⟨30, 30, .rw⟩, ⟨18, 0, .rw⟩]⟩,
  ⟨.RING_SVC_CTRL, 0xE3020, [(4, 0x200)], 0x0, [⟨31, 31, .wo⟩, ⟨28, 24, .wo⟩, ⟨17, 16, .wo⟩, ⟨15, 0, .wo⟩]⟩,
  ⟨.RING_SVC_DATA, 0xE3022, [(4, 0x200)], 0x0, [⟨31, 0, .rw⟩]⟩,
  ⟨.RING_SVC_STAT, 0xE3024, [(4, 0x200)], 0x0, [⟨31, 31, .ro⟩, ⟨23, 16, .ro⟩, ⟨0, 0, .w1c⟩]⟩,
  ⟨.RING_NODE_VENDOR, 0xE3040, [(4, 0x200), (32, 0x8)], 0x0, [⟨31, 0, .ro⟩]⟩,
  ⟨.RING_NODE_PRODUCT, 0xE3042, [(4, 0x200), (32, 0x8)], 0x0, [⟨31, 0, .ro⟩]⟩,
  ⟨.RING_NODE_DLY, 0xE3044, [(4, 0x200), (32, 0x8)], 0x0, [⟨31, 0, .ro⟩]⟩,
  ⟨.RING_NODE_TXOFS, 0xE3046, [(4, 0x200), (32, 0x8)], 0x0, [⟨31, 0, .ro⟩]⟩,
  ⟨.RING_HEAL_STAT, 0xE3140, [(4, 0x200)], 0xFF0000, [⟨31, 31, .ro⟩, ⟨30, 30, .ro⟩, ⟨23, 16, .ro⟩, ⟨1, 0, .ro⟩]⟩,
  ⟨.RING_HEAL_DELTA, 0xE3142, [(4, 0x200)], 0x0, [⟨31, 0, .ro⟩]⟩,
  ⟨.RING_CNT_CLR, 0xE3144, [(4, 0x200)], 0x0, [⟨0, 0, .wo⟩]⟩,
  ⟨.RING_MISSMAP, 0xE3146, [(4, 0x200)], 0x0, [⟨31, 0, .w1c⟩]⟩,
  ⟨.RING_SLOT_MISS, 0xE3148, [(4, 0x200)], 0x0, [⟨31, 0, .ro⟩]⟩,
  ⟨.RING_EARLY, 0xE314A, [(4, 0x200)], 0x0, [⟨31, 0, .ro⟩]⟩,
  ⟨.RING_LATE, 0xE314C, [(4, 0x200)], 0x0, [⟨31, 0, .ro⟩]⟩,
  ⟨.RING_FCS_ERR, 0xE314E, [(4, 0x200)], 0x0, [⟨31, 0, .ro⟩]⟩,
  ⟨.RING_STRAY, 0xE3150, [(4, 0x200)], 0x0, [⟨31, 0, .ro⟩]⟩,
  ⟨.RING_MF_LOST, 0xE3152, [(4, 0x200)], 0x0, [⟨31, 0, .ro⟩]⟩,
  ⟨.RING_BREAK_CNT, 0xE3154, [(4, 0x200)], 0x0, [⟨31, 0, .ro⟩]⟩,
  ⟨.RING_NODE_MISS, 0xE3180, [(4, 0x200), (32, 0x4)], 0x0, [⟨31, 0, .ro⟩]⟩,
  ⟨.RING_NODE_AERR, 0xE3182, [(4, 0x200), (32, 0x4)], 0x0, [⟨31, 16, .ro⟩, ⟨15, 0, .ro⟩]⟩]

/-- Registers of the block group Can. -/
def regRowsCan : List RegRow := [
  ⟨.CAN_ARBT, 0xE3800, [(8, 0x100)], 0x184F3F0F, [⟨31, 24, .rw⟩, ⟨23, 16, .rw⟩, ⟨15, 8, .rw⟩, ⟨6, 0, .rw⟩]⟩,
  ⟨.CAN_DATT, 0xE3802, [(8, 0x100)], 0x13181304, [⟨31, 24, .rw⟩, ⟨23, 16, .rw⟩, ⟨15, 8, .rw⟩, ⟨6, 0, .rw⟩]⟩,
  ⟨.CAN_LDC, 0xE3804, [(8, 0x100)], 0x80000000, [⟨31, 31, .rw⟩, ⟨24, 16, .rw⟩, ⟨15, 15, .ro⟩, ⟨8, 0, .ro⟩]⟩,
  ⟨.CAN_CFG, 0xE3806, [(8, 0x100)], 0x0, [⟨9, 8, .rw⟩, ⟨4, 4, .rw⟩, ⟨3, 3, .rw⟩, ⟨2, 2, .rw⟩, ⟨1, 1, .rw⟩, ⟨0, 0, .rw⟩]⟩,
  ⟨.CAN_CMD, 0xE3808, [(8, 0x100)], 0x0, [⟨2, 2, .wo⟩, ⟨1, 1, .wo⟩, ⟨0, 0, .wo⟩]⟩,
  ⟨.CAN_STAT, 0xE380A, [(8, 0x100)], 0x0, [⟨31, 24, .ro⟩, ⟨7, 7, .w1c⟩, ⟨6, 6, .w1c⟩, ⟨5, 5, .ro⟩, ⟨4, 4, .ro⟩, ⟨2, 0, .ro⟩]⟩,
  ⟨.CAN_ECNT, 0xE380C, [(8, 0x100)], 0x0, [⟨31, 24, .ro⟩, ⟨15, 8, .ro⟩, ⟨7, 0, .ro⟩]⟩,
  ⟨.CAN_IMG, 0xE380E, [(8, 0x100)], 0x0, [⟨31, 16, .rw⟩, ⟨13, 8, .rw⟩, ⟨4, 0, .rw⟩]⟩,
  ⟨.CAN_TAT_WIN, 0xE3810, [(8, 0x100)], 0x0, [⟨31, 16, .ro⟩, ⟨15, 0, .rw⟩]⟩,
  ⟨.CAN_MRA, 0xE3812, [(8, 0x100)], 0x0, [⟨12, 0, .woh⟩]⟩,
  ⟨.CAN_MRW, 0xE3814, [(8, 0x100)], 0x0, [⟨31, 0, .wo⟩]⟩,
  ⟨.CAN_MRR, 0xE3816, [(8, 0x100)], 0x0, [⟨31, 0, .ro⟩]⟩,
  ⟨.CAN_TXREQ, 0xE3818, [(8, 0x100)], 0x0, [⟨31, 0, .w1s⟩]⟩,
  ⟨.CAN_TXCAN, 0xE381A, [(8, 0x100)], 0x0, [⟨31, 0, .w1s⟩]⟩,
  ⟨.CAN_TXOK, 0xE381C, [(8, 0x100)], 0x0, [⟨31, 0, .w1c⟩]⟩,
  ⟨.CAN_TXFAIL, 0xE381E, [(8, 0x100)], 0x0, [⟨31, 0, .w1c⟩]⟩,
  ⟨.CAN_RXQS, 0xE3820, [(8, 0x100), (2, 0x2)], 0x0, [⟨22, 16, .ro⟩, ⟨13, 8, .ro⟩, ⟨5, 0, .ro⟩]⟩,
  ⟨.CAN_RXQA, 0xE3824, [(8, 0x100), (2, 0x2)], 0x0, [⟨6, 0, .wo⟩]⟩,
  ⟨.CAN_RXQ_DROP, 0xE3828, [(8, 0x100), (2, 0x2)], 0x0, [⟨31, 0, .ro⟩]⟩,
  ⟨.CAN_RXQ_WM, 0xE382C, [(8, 0x100)], 0x10001, [⟨22, 16, .rw⟩, ⟨6, 0, .rw⟩]⟩]

/-- Registers of the block group Tab. -/
def regRowsTab : List RegRow := [
  ⟨.FORCE_LO, 0xE4000, [(4096, 0x4)], 0x0, [⟨31, 0, .rw⟩]⟩,
  ⟨.FORCE_HI, 0xE4002, [(4096, 0x4)], 0x0, [⟨31, 0, .rw⟩]⟩,
  ⟨.RING_SCHED_LO, 0xE8000, [(4, 0x1000), (1024, 0x4)], 0x0, [⟨31, 31, .rw⟩, ⟨20, 16, .rw⟩]⟩,
  ⟨.RING_SCHED_HI, 0xE8002, [(4, 0x1000), (1024, 0x4)], 0x0, [⟨18, 0, .rw⟩]⟩]

/-- Registers of the block group Host. -/
def regRowsHost : List RegRow := [
  ⟨.HIF_STAT, 0x1020000, [], 0x0, [⟨18, 18, .w1c⟩, ⟨17, 17, .w1c⟩, ⟨16, 16, .ro⟩, ⟨15, 0, .ro⟩]⟩,
  ⟨.CMDQ_BASE_LO, 0x1020080, [(16, 0x8)], 0x0, [⟨31, 0, .rw⟩]⟩,
  ⟨.CMDQ_BASE_HI, 0x1020082, [(16, 0x8)], 0x0, [⟨31, 0, .rw⟩]⟩,
  ⟨.CMDQ_CFG, 0x1020084, [(16, 0x8)], 0x0, [⟨31, 31, .wo⟩, ⟨30, 30, .wo⟩, ⟨19, 16, .rw⟩, ⟨3, 0, .rw⟩]⟩,
  ⟨.CMDQ_STAT, 0x1020086, [(16, 0x8)], 0x0, [⟨31, 31, .ro⟩, ⟨30, 30, .ro⟩, ⟨23, 16, .ro⟩, ⟨11, 0, .ro⟩]⟩,
  ⟨.CPLQ_BASE_LO, 0x1020100, [(16, 0x8)], 0x0, [⟨31, 0, .rw⟩]⟩,
  ⟨.CPLQ_BASE_HI, 0x1020102, [(16, 0x8)], 0x0, [⟨31, 0, .rw⟩]⟩,
  ⟨.CPLQ_CFG, 0x1020104, [(16, 0x8)], 0x0, [⟨31, 31, .wo⟩, ⟨30, 30, .wo⟩, ⟨15, 15, .rw⟩, ⟨12, 8, .rw⟩, ⟨3, 0, .rw⟩]⟩,
  ⟨.CPLQ_STAT, 0x1020106, [(16, 0x8)], 0x0, [⟨31, 31, .ro⟩, ⟨16, 16, .ro⟩, ⟨11, 0, .ro⟩]⟩]

/-- The rows of the block group that holds address `a`. -/
def regRowsAt (a : Nat) : List RegRow :=
  if a < 0xD4000 then regRowsAxis
  else if a < 0xE0000 then regRowsMule
  else if a < 0xE0400 then regRowsId
  else if a < 0xE0800 then regRowsTime
  else if a < 0xE0C00 then regRowsScan
  else if a < 0xE1000 then regRowsProg
  else if a < 0xE1800 then regRowsLink
  else if a < 0xE2000 then regRowsNv
  else if a < 0xE2800 then regRowsKey
  else if a < 0xE3000 then regRowsBk
  else if a < 0xE3800 then regRowsRing
  else if a < 0xE4000 then regRowsCan
  else if a < 0x1000000 then regRowsTab
  else regRowsHost

/-- The instance indices by which offset `off` is reached through `dims`, when it is. -/
def dimsMatch : List (Nat × Nat) → Nat → Option (List Nat)
  | [], off => if off = 0 then some [] else none
  | (count, stride) :: rest, off =>
    if off / stride < count then (dimsMatch rest (off % stride)).map (fun is => (off / stride) :: is) else none

/-- The register at even address `a` among `rows`, with its instance indices. -/
def regFindIn (a : Nat) : List RegRow → Option (RegRow × List Nat)
  | [] => none
  | r :: rest =>
    if r.base ≤ a then
      match dimsMatch r.dims (a - r.base) with
      | some is => some (r, is)
      | none => regFindIn a rest
    else regFindIn a rest

/-- The register at even address `a`; `none` for a reserved word (R38). -/
def regFind (a : Nat) : Option (RegRow × List Nat) := regFindIn a (regRowsAt a)

/-- The reset value of the register at even address `a`, 0 for a reserved word (R8, R9). Two register groups
have an instance 0 that resets to a value of its own: HEN_SEN and HEN_CLS (18_hen_recorder.md). -/
def regReset (a : Nat) : BitVec 32 :=
  if a = 0xE1C10 then 0x00000007
  else if a = 0xE1C40 then 0x80000000
  else match regFind a with
    | some (r, _) => BitVec.ofNat 32 r.reset
    | none => 0

end Sys2Proof.Machine
end

