-- ==== Sys2Proof/Machine/RegNames.lean ====
section
/-! DEFINITION. The registers and their fields under the names the spec gives them: `R.SCAN_STAT_STATE` is the field
STATE of SCAN_STAT, `R.AXIS_STAT_STATE n` the same of AXIS[n].STAT, and `R.SCAN_STAT` the whole register. -/

namespace Sys2Proof.Machine.R

/-- AXIS[n].CTRL (08_mule_loops.md). -/
def AXIS_CTRL (n : Nat) : Fld := ⟨0xD0000 + n * 0x80, 31, 0⟩
def AXIS_CTRL_N2_EN (n : Nat) : Fld := ⟨0xD0000 + n * 0x80, 7, 7⟩
def AXIS_CTRL_N1_EN (n : Nat) : Fld := ⟨0xD0000 + n * 0x80, 6, 6⟩
def AXIS_CTRL_SATEV (n : Nat) : Fld := ⟨0xD0000 + n * 0x80, 5, 5⟩
def AXIS_CTRL_AWU (n : Nat) : Fld := ⟨0xD0000 + n * 0x80, 4, 4⟩
def AXIS_CTRL_SPSRC (n : Nat) : Fld := ⟨0xD0000 + n * 0x80, 3, 3⟩
def AXIS_CTRL_OMODE (n : Nat) : Fld := ⟨0xD0000 + n * 0x80, 2, 2⟩
def AXIS_CTRL_FACT (n : Nat) : Fld := ⟨0xD0000 + n * 0x80, 1, 0⟩
/-- AXIS[n].CMD (08_mule_loops.md). -/
def AXIS_CMD (n : Nat) : Fld := ⟨0xD0002 + n * 0x80, 31, 0⟩
def AXIS_CMD_PEAK_CLR (n : Nat) : Fld := ⟨0xD0002 + n * 0x80, 4, 4⟩
def AXIS_CMD_SWAP (n : Nat) : Fld := ⟨0xD0002 + n * 0x80, 3, 3⟩
def AXIS_CMD_CLR_FAULT (n : Nat) : Fld := ⟨0xD0002 + n * 0x80, 2, 2⟩
def AXIS_CMD_DISABLE (n : Nat) : Fld := ⟨0xD0002 + n * 0x80, 1, 1⟩
def AXIS_CMD_ENABLE (n : Nat) : Fld := ⟨0xD0002 + n * 0x80, 0, 0⟩
/-- AXIS[n].STAT (08_mule_loops.md). -/
def AXIS_STAT (n : Nat) : Fld := ⟨0xD0004 + n * 0x80, 31, 0⟩
def AXIS_STAT_FCODE (n : Nat) : Fld := ⟨0xD0004 + n * 0x80, 23, 16⟩
def AXIS_STAT_MAPDENY (n : Nat) : Fld := ⟨0xD0004 + n * 0x80, 12, 12⟩
def AXIS_STAT_CAPDENY (n : Nat) : Fld := ⟨0xD0004 + n * 0x80, 11, 11⟩
def AXIS_STAT_FEW (n : Nat) : Fld := ⟨0xD0004 + n * 0x80, 10, 10⟩
def AXIS_STAT_ACTW (n : Nat) : Fld := ⟨0xD0004 + n * 0x80, 9, 9⟩
def AXIS_STAT_WDENY (n : Nat) : Fld := ⟨0xD0004 + n * 0x80, 8, 8⟩
def AXIS_STAT_PEND (n : Nat) : Fld := ⟨0xD0004 + n * 0x80, 5, 5⟩
def AXIS_STAT_BANK (n : Nat) : Fld := ⟨0xD0004 + n * 0x80, 4, 4⟩
def AXIS_STAT_STATE (n : Nat) : Fld := ⟨0xD0004 + n * 0x80, 2, 0⟩
/-- AXIS[n].SAT (08_mule_loops.md). -/
def AXIS_SAT (n : Nat) : Fld := ⟨0xD0006 + n * 0x80, 31, 0⟩
def AXIS_SAT_XC (n : Nat) : Fld := ⟨0xD0006 + n * 0x80, 11, 11⟩
def AXIS_SAT_OLIM (n : Nat) : Fld := ⟨0xD0006 + n * 0x80, 10, 10⟩
def AXIS_SAT_KOUT (n : Nat) : Fld := ⟨0xD0006 + n * 0x80, 9, 9⟩
def AXIS_SAT_N2 (n : Nat) : Fld := ⟨0xD0006 + n * 0x80, 8, 8⟩
def AXIS_SAT_N1 (n : Nat) : Fld := ⟨0xD0006 + n * 0x80, 7, 7⟩
def AXIS_SAT_TRQ (n : Nat) : Fld := ⟨0xD0006 + n * 0x80, 6, 6⟩
def AXIS_SAT_VEL (n : Nat) : Fld := ⟨0xD0006 + n * 0x80, 5, 5⟩
def AXIS_SAT_VERR (n : Nat) : Fld := ⟨0xD0006 + n * 0x80, 4, 4⟩
def AXIS_SAT_VLIM (n : Nat) : Fld := ⟨0xD0006 + n * 0x80, 3, 3⟩
def AXIS_SAT_VCMD (n : Nat) : Fld := ⟨0xD0006 + n * 0x80, 2, 2⟩
def AXIS_SAT_POS (n : Nat) : Fld := ⟨0xD0006 + n * 0x80, 1, 1⟩
def AXIS_SAT_VFB (n : Nat) : Fld := ⟨0xD0006 + n * 0x80, 0, 0⟩
/-- AXIS[n].MAP (08_mule_loops.md). -/
def AXIS_MAP (n : Nat) : Fld := ⟨0xD0008 + n * 0x80, 31, 0⟩
def AXIS_MAP_EN (n : Nat) : Fld := ⟨0xD0008 + n * 0x80, 15, 15⟩
def AXIS_MAP_CH (n : Nat) : Fld := ⟨0xD0008 + n * 0x80, 8, 7⟩
def AXIS_MAP_NODE (n : Nat) : Fld := ⟨0xD0008 + n * 0x80, 6, 2⟩
def AXIS_MAP_RING (n : Nat) : Fld := ⟨0xD0008 + n * 0x80, 1, 0⟩
/-- AXIS[n].FB_CFG (08_mule_loops.md). -/
def AXIS_FB_CFG (n : Nat) : Fld := ⟨0xD000A + n * 0x80, 31, 0⟩
def AXIS_FB_CFG_AGE_LIM (n : Nat) : Fld := ⟨0xD000A + n * 0x80, 15, 8⟩
def AXIS_FB_CFG_VSRC (n : Nat) : Fld := ⟨0xD000A + n * 0x80, 3, 3⟩
def AXIS_FB_CFG_SHL (n : Nat) : Fld := ⟨0xD000A + n * 0x80, 2, 0⟩
/-- AXIS[n].POS_OFS (08_mule_loops.md). -/
def AXIS_POS_OFS (n : Nat) : Fld := ⟨0xD000C + n * 0x80, 31, 0⟩
/-- AXIS[n].POS_ACT (08_mule_loops.md). -/
def AXIS_POS_ACT (n : Nat) : Fld := ⟨0xD000E + n * 0x80, 31, 0⟩
/-- AXIS[n].VEL_ACT (08_mule_loops.md). -/
def AXIS_VEL_ACT (n : Nat) : Fld := ⟨0xD0010 + n * 0x80, 31, 0⟩
/-- AXIS[n].POS_SP (08_mule_loops.md). -/
def AXIS_POS_SP (n : Nat) : Fld := ⟨0xD0012 + n * 0x80, 31, 0⟩
/-- AXIS[n].VEL_SP (08_mule_loops.md). -/
def AXIS_VEL_SP (n : Nat) : Fld := ⟨0xD0014 + n * 0x80, 31, 0⟩
/-- AXIS[n].ACC_SP (08_mule_loops.md). -/
def AXIS_ACC_SP (n : Nat) : Fld := ⟨0xD0016 + n * 0x80, 31, 0⟩
/-- AXIS[n].POS_ERR (08_mule_loops.md). -/
def AXIS_POS_ERR (n : Nat) : Fld := ⟨0xD0018 + n * 0x80, 31, 0⟩
/-- AXIS[n].VEL_CMD (08_mule_loops.md). -/
def AXIS_VEL_CMD (n : Nat) : Fld := ⟨0xD001A + n * 0x80, 31, 0⟩
/-- AXIS[n].VEL_ERR (08_mule_loops.md). -/
def AXIS_VEL_ERR (n : Nat) : Fld := ⟨0xD001C + n * 0x80, 31, 0⟩
/-- AXIS[n].TRQ (08_mule_loops.md). -/
def AXIS_TRQ (n : Nat) : Fld := ⟨0xD001E + n * 0x80, 31, 0⟩
/-- AXIS[n].OUT (08_mule_loops.md). -/
def AXIS_OUT (n : Nat) : Fld := ⟨0xD0020 + n * 0x80, 31, 0⟩
/-- AXIS[n].OUT_MAX (08_mule_loops.md). -/
def AXIS_OUT_MAX (n : Nat) : Fld := ⟨0xD0022 + n * 0x80, 31, 0⟩
/-- AXIS[n].OUT_MIN (08_mule_loops.md). -/
def AXIS_OUT_MIN (n : Nat) : Fld := ⟨0xD0024 + n * 0x80, 31, 0⟩
/-- AXIS[n].VCMD_MAX (08_mule_loops.md). -/
def AXIS_VCMD_MAX (n : Nat) : Fld := ⟨0xD0026 + n * 0x80, 31, 0⟩
/-- AXIS[n].TRQ_OFS (08_mule_loops.md). -/
def AXIS_TRQ_OFS (n : Nat) : Fld := ⟨0xD0028 + n * 0x80, 31, 0⟩
/-- AXIS[n].FE_LIM (08_mule_loops.md). -/
def AXIS_FE_LIM (n : Nat) : Fld := ⟨0xD002A + n * 0x80, 31, 0⟩
/-- AXIS[n].FE_TIME (08_mule_loops.md). -/
def AXIS_FE_TIME (n : Nat) : Fld := ⟨0xD002C + n * 0x80, 31, 0⟩
/-- AXIS[n].FE_WARN (08_mule_loops.md). -/
def AXIS_FE_WARN (n : Nat) : Fld := ⟨0xD002E + n * 0x80, 31, 0⟩
/-- AXIS[n].FE_CNT (08_mule_loops.md). -/
def AXIS_FE_CNT (n : Nat) : Fld := ⟨0xD0030 + n * 0x80, 31, 0⟩
/-- AXIS[n].FE_PEAK (08_mule_loops.md). -/
def AXIS_FE_PEAK (n : Nat) : Fld := ⟨0xD0032 + n * 0x80, 31, 0⟩
/-- AXIS[n].EN_TIME (08_mule_loops.md). -/
def AXIS_EN_TIME (n : Nat) : Fld := ⟨0xD0034 + n * 0x80, 31, 0⟩
/-- AXIS[n].FB_AGE (08_mule_loops.md). -/
def AXIS_FB_AGE (n : Nat) : Fld := ⟨0xD0036 + n * 0x80, 31, 0⟩
/-- AXIS[n].HOLD_CNT (08_mule_loops.md). -/
def AXIS_HOLD_CNT (n : Nat) : Fld := ⟨0xD0038 + n * 0x80, 31, 0⟩
/-- AXIS[n].SAMPLE_CNT (08_mule_loops.md). -/
def AXIS_SAMPLE_CNT (n : Nat) : Fld := ⟨0xD003A + n * 0x80, 31, 0⟩
/-- AXIS[n].FAULT_TLO (08_mule_loops.md). -/
def AXIS_FAULT_TLO (n : Nat) : Fld := ⟨0xD003C + n * 0x80, 31, 0⟩
/-- AXIS[n].FAULT_THI (08_mule_loops.md). -/
def AXIS_FAULT_THI (n : Nat) : Fld := ⟨0xD003E + n * 0x80, 31, 0⟩
/-- AXIS[n].DRV_STAT (08_mule_loops.md). -/
def AXIS_DRV_STAT (n : Nat) : Fld := ⟨0xD0040 + n * 0x80, 31, 0⟩
/-- AXIS[n].DRV_CTRL (08_mule_loops.md). -/
def AXIS_DRV_CTRL (n : Nat) : Fld := ⟨0xD0042 + n * 0x80, 31, 0⟩
def AXIS_DRV_CTRL_BITS (n : Nat) : Fld := ⟨0xD0042 + n * 0x80, 15, 0⟩
/-- AXIS[n].POS_PREV (08_mule_loops.md). -/
def AXIS_POS_PREV (n : Nat) : Fld := ⟨0xD0044 + n * 0x80, 31, 0⟩
/-- AXIS[n].VEL_RAW (08_mule_loops.md). -/
def AXIS_VEL_RAW (n : Nat) : Fld := ⟨0xD0046 + n * 0x80, 31, 0⟩
/-- AXIS[n].XC_OUT (08_mule_loops.md). -/
def AXIS_XC_OUT (n : Nat) : Fld := ⟨0xD0048 + n * 0x80, 31, 0⟩
/-- AXIS[n].SWAP_CNT (08_mule_loops.md). -/
def AXIS_SWAP_CNT (n : Nat) : Fld := ⟨0xD004A + n * 0x80, 31, 0⟩
/-- AXIS[n].N1_OUT (08_mule_loops.md). -/
def AXIS_N1_OUT (n : Nat) : Fld := ⟨0xD004C + n * 0x80, 31, 0⟩
/-- AXIS[n].N2_OUT (08_mule_loops.md). -/
def AXIS_N2_OUT (n : Nat) : Fld := ⟨0xD004E + n * 0x80, 31, 0⟩
/-- AXIS[n].S_POS (s64, dword pairs) (08_mule_loops.md). -/
def AXIS_S_POS (n k : Nat) : Fld := ⟨0xD0050 + n * 0x80 + k * 0x2, 31, 0⟩
/-- AXIS[n].S_VEL (s64, dword pairs) (08_mule_loops.md). -/
def AXIS_S_VEL (n k : Nat) : Fld := ⟨0xD0058 + n * 0x80 + k * 0x2, 31, 0⟩
/-- AXIS[n].S_N1 (s64, dword pairs) (08_mule_loops.md). -/
def AXIS_S_NA (n k : Nat) : Fld := ⟨0xD0064 + n * 0x80 + k * 0x2, 31, 0⟩
/-- AXIS[n].S_N2 (s64, dword pairs) (08_mule_loops.md). -/
def AXIS_S_NB (n k : Nat) : Fld := ⟨0xD006C + n * 0x80 + k * 0x2, 31, 0⟩
/-- COEF (08_mule_loops.md). -/
def COEF (n k j : Nat) : Fld := ⟨0xD4000 + n * 0x80 + k * 0x40 + j * 0x2, 31, 0⟩
/-- SEGQ (09_trajectory.md). -/
def SEGQ (n k : Nat) : Fld := ⟨0xD8000 + n * 0x400 + k * 0x2, 31, 0⟩
/-- GROUP[g].CFG (09_trajectory.md). -/
def GROUP_CFG (n : Nat) : Fld := ⟨0xDC000 + n * 0x100, 31, 0⟩
def GROUP_CFG_EN (n : Nat) : Fld := ⟨0xDC000 + n * 0x100, 31, 31⟩
def GROUP_CFG_LOW_WM (n : Nat) : Fld := ⟨0xDC000 + n * 0x100, 15, 8⟩
def GROUP_CFG_SRC (n : Nat) : Fld := ⟨0xDC000 + n * 0x100, 1, 0⟩
/-- GROUP[g].CMD (09_trajectory.md). -/
def GROUP_CMD (n : Nat) : Fld := ⟨0xDC002 + n * 0x100, 31, 0⟩
def GROUP_CMD_FLUSH (n : Nat) : Fld := ⟨0xDC002 + n * 0x100, 4, 4⟩
def GROUP_CMD_RESUME (n : Nat) : Fld := ⟨0xDC002 + n * 0x100, 3, 3⟩
def GROUP_CMD_QSTOP (n : Nat) : Fld := ⟨0xDC002 + n * 0x100, 2, 2⟩
def GROUP_CMD_STOP (n : Nat) : Fld := ⟨0xDC002 + n * 0x100, 1, 1⟩
def GROUP_CMD_GO (n : Nat) : Fld := ⟨0xDC002 + n * 0x100, 0, 0⟩
/-- GROUP[g].STAT (09_trajectory.md). -/
def GROUP_STAT (n : Nat) : Fld := ⟨0xDC004 + n * 0x100, 31, 0⟩
def GROUP_STAT_HCAUSE (n : Nat) : Fld := ⟨0xDC004 + n * 0x100, 19, 16⟩
def GROUP_STAT_GOHELD (n : Nat) : Fld := ⟨0xDC004 + n * 0x100, 12, 12⟩
def GROUP_STAT_WSYNC (n : Nat) : Fld := ⟨0xDC004 + n * 0x100, 11, 11⟩
def GROUP_STAT_WAXIS (n : Nat) : Fld := ⟨0xDC004 + n * 0x100, 10, 10⟩
def GROUP_STAT_WGO (n : Nat) : Fld := ⟨0xDC004 + n * 0x100, 9, 9⟩
def GROUP_STAT_DENY (n : Nat) : Fld := ⟨0xDC004 + n * 0x100, 7, 7⟩
def GROUP_STAT_QERR (n : Nat) : Fld := ⟨0xDC004 + n * 0x100, 6, 6⟩
def GROUP_STAT_PERR (n : Nat) : Fld := ⟨0xDC004 + n * 0x100, 5, 5⟩
def GROUP_STAT_SATF (n : Nat) : Fld := ⟨0xDC004 + n * 0x100, 4, 4⟩
def GROUP_STAT_STATE (n : Nat) : Fld := ⟨0xDC004 + n * 0x100, 2, 0⟩
/-- GROUP[g].QPTR (09_trajectory.md). -/
def GROUP_QPTR (n : Nat) : Fld := ⟨0xDC006 + n * 0x100, 31, 0⟩
def GROUP_QPTR_COUNT (n : Nat) : Fld := ⟨0xDC006 + n * 0x100, 30, 24⟩
def GROUP_QPTR_RD (n : Nat) : Fld := ⟨0xDC006 + n * 0x100, 22, 16⟩
def GROUP_QPTR_WR (n : Nat) : Fld := ⟨0xDC006 + n * 0x100, 6, 0⟩
/-- GROUP[g].SYNC_MASK (09_trajectory.md). -/
def GROUP_SYNC_MASK (n : Nat) : Fld := ⟨0xDC008 + n * 0x100, 31, 0⟩
def GROUP_SYNC_MASK_MASK (n : Nat) : Fld := ⟨0xDC008 + n * 0x100, 15, 0⟩
/-- GROUP[g].CUR (09_trajectory.md). -/
def GROUP_CUR (n : Nat) : Fld := ⟨0xDC00A + n * 0x100, 31, 0⟩
def GROUP_CUR_TAG (n : Nat) : Fld := ⟨0xDC00A + n * 0x100, 31, 24⟩
def GROUP_CUR_LEFT (n : Nat) : Fld := ⟨0xDC00A + n * 0x100, 17, 0⟩
/-- GROUP[g].ERR (09_trajectory.md). -/
def GROUP_ERR (n : Nat) : Fld := ⟨0xDC00C + n * 0x100, 31, 0⟩
def GROUP_ERR_INDEX (n : Nat) : Fld := ⟨0xDC00C + n * 0x100, 14, 8⟩
def GROUP_ERR_CODE (n : Nat) : Fld := ⟨0xDC00C + n * 0x100, 7, 0⟩
/-- GROUP[g].SEG_CNT (09_trajectory.md). -/
def GROUP_SEG_CNT (n : Nat) : Fld := ⟨0xDC00E + n * 0x100, 31, 0⟩
/-- GROUP[g].MEMBER[k].AXIS (09_trajectory.md). -/
def GROUP_MEMBER_AXIS (n k : Nat) : Fld := ⟨0xDC020 + n * 0x100 + k * 0x10, 31, 0⟩
def GROUP_MEMBER_AXIS_EN (n k : Nat) : Fld := ⟨0xDC020 + n * 0x100 + k * 0x10, 15, 15⟩
def GROUP_MEMBER_AXIS_AXIS (n k : Nat) : Fld := ⟨0xDC020 + n * 0x100 + k * 0x10, 6, 0⟩
/-- GROUP[g].MEMBER[k].VMAX (09_trajectory.md). -/
def GROUP_MEMBER_VMAX (n k : Nat) : Fld := ⟨0xDC022 + n * 0x100 + k * 0x10, 31, 0⟩
/-- GROUP[g].MEMBER[k].AMAX (09_trajectory.md). -/
def GROUP_MEMBER_AMAX (n k : Nat) : Fld := ⟨0xDC024 + n * 0x100 + k * 0x10, 31, 0⟩
/-- GROUP[g].MEMBER[k].JMAX (09_trajectory.md). -/
def GROUP_MEMBER_JMAX (n k : Nat) : Fld := ⟨0xDC026 + n * 0x100 + k * 0x10, 31, 0⟩
/-- GROUP[g].MEMBER[k].QAMAX (09_trajectory.md). -/
def GROUP_MEMBER_QAMAX (n k : Nat) : Fld := ⟨0xDC028 + n * 0x100 + k * 0x10, 31, 0⟩
/-- GROUP[g].MEMBER[k].QJMAX (09_trajectory.md). -/
def GROUP_MEMBER_QJMAX (n k : Nat) : Fld := ⟨0xDC02A + n * 0x100 + k * 0x10, 31, 0⟩
/-- GROUP[g].MEMBER[k].PLAN (09_trajectory.md). -/
def GROUP_MEMBER_PLAN (n k : Nat) : Fld := ⟨0xDC02C + n * 0x100 + k * 0x10, 31, 0⟩
/-- GROUP[g].MEMBER[k].TARGET (09_trajectory.md). -/
def GROUP_MEMBER_TARGET (n k : Nat) : Fld := ⟨0xDC02E + n * 0x100 + k * 0x10, 31, 0⟩
/-- MULE_CMD (08_mule_loops.md). -/
def MULE_CMD : Fld := ⟨0xDD000, 31, 0⟩
def MULE_CMD_DIS_ALL : Fld := ⟨0xDD000, 1, 1⟩
def MULE_CMD_SWAP_LIST : Fld := ⟨0xDD000, 0, 0⟩
/-- MULE_STAT (08_mule_loops.md). -/
def MULE_STAT : Fld := ⟨0xDD002, 31, 0⟩
def MULE_STAT_LDENY : Fld := ⟨0xDD002, 9, 9⟩
def MULE_STAT_LPEND : Fld := ⟨0xDD002, 8, 8⟩
def MULE_STAT_LOAD : Fld := ⟨0xDD002, 7, 0⟩
/-- SWAP_SEL[k] (08_mule_loops.md). -/
def SWAP_SEL (n : Nat) : Fld := ⟨0xDD008 + n * 0x2, 31, 0⟩
/-- MULE_FAULT[k] (08_mule_loops.md). -/
def MULE_FAULT (n : Nat) : Fld := ⟨0xDD010 + n * 0x2, 31, 0⟩
/-- GANTRY[g].CTRL (08_mule_loops.md). -/
def GANTRY_CTRL (n : Nat) : Fld := ⟨0xDD100 + n * 0x20, 31, 0⟩
def GANTRY_CTRL_EN (n : Nat) : Fld := ⟨0xDD100 + n * 0x20, 31, 31⟩
def GANTRY_CTRL_LATCH (n : Nat) : Fld := ⟨0xDD100 + n * 0x20, 15, 15⟩
def GANTRY_CTRL_F (n : Nat) : Fld := ⟨0xDD100 + n * 0x20, 14, 8⟩
def GANTRY_CTRL_L (n : Nat) : Fld := ⟨0xDD100 + n * 0x20, 6, 0⟩
/-- GANTRY[g].STAT (08_mule_loops.md). -/
def GANTRY_STAT (n : Nat) : Fld := ⟨0xDD102 + n * 0x20, 31, 0⟩
def GANTRY_STAT_ACT (n : Nat) : Fld := ⟨0xDD102 + n * 0x20, 1, 1⟩
def GANTRY_STAT_DENY (n : Nat) : Fld := ⟨0xDD102 + n * 0x20, 0, 0⟩
/-- GANTRY[g].OFS (08_mule_loops.md). -/
def GANTRY_OFS (n : Nat) : Fld := ⟨0xDD104 + n * 0x20, 31, 0⟩
/-- GANTRY[g].DIFF (08_mule_loops.md). -/
def GANTRY_DIFF (n : Nat) : Fld := ⟨0xDD106 + n * 0x20, 31, 0⟩
/-- GANTRY[g].DIFF_LIM (08_mule_loops.md). -/
def GANTRY_DIFF_LIM (n : Nat) : Fld := ⟨0xDD108 + n * 0x20, 31, 0⟩
/-- GANTRY[g].S_XC[0] (08_mule_loops.md). -/
def GANTRY_S_XC (n k : Nat) : Fld := ⟨0xDD110 + n * 0x20 + k * 0x2, 31, 0⟩
/-- SETUP_LOCK (02_address_spaces.md). -/
def SETUP_LOCK : Fld := ⟨0xE0020, 31, 0⟩
def SETUP_LOCK_LOCK : Fld := ⟨0xE0020, 0, 0⟩
/-- AE_STATUS (02_address_spaces.md). -/
def AE_STATUS : Fld := ⟨0xE0022, 31, 0⟩
def AE_STATUS_LOCK_COUNT : Fld := ⟨0xE0022, 31, 24⟩
def AE_STATUS_ERR_COUNT : Fld := ⟨0xE0022, 23, 16⟩
def AE_STATUS_KIND : Fld := ⟨0xE0022, 11, 8⟩
def AE_STATUS_CLR : Fld := ⟨0xE0022, 2, 2⟩
def AE_STATUS_MULTI : Fld := ⟨0xE0022, 1, 1⟩
def AE_STATUS_VALID : Fld := ⟨0xE0022, 0, 0⟩
/-- AE_ADDR (02_address_spaces.md). -/
def AE_ADDR : Fld := ⟨0xE0024, 31, 0⟩
def AE_ADDR_HERD : Fld := ⟨0xE0024, 31, 28⟩
def AE_ADDR_MEMBER : Fld := ⟨0xE0024, 27, 24⟩
def AE_ADDR_ADDR : Fld := ⟨0xE0024, 23, 0⟩
/-- RESET_CAUSE (17_time_events_goose.md). -/
def RESET_CAUSE : Fld := ⟨0xE0028, 31, 0⟩
def RESET_CAUSE_DEAD_EXIT_DENIED : Fld := ⟨0xE0028, 7, 7⟩
def RESET_CAUSE_BROWNOUT : Fld := ⟨0xE0028, 6, 6⟩
def RESET_CAUSE_PAIR_FENCE : Fld := ⟨0xE0028, 5, 5⟩
def RESET_CAUSE_HOST : Fld := ⟨0xE0028, 4, 4⟩
def RESET_CAUSE_MACHINE_CHECK : Fld := ⟨0xE0028, 3, 3⟩
def RESET_CAUSE_GOOSE : Fld := ⟨0xE0028, 2, 2⟩
def RESET_CAUSE_PIN : Fld := ⟨0xE0028, 1, 1⟩
def RESET_CAUSE_POWER_ON : Fld := ⟨0xE0028, 0, 0⟩
/-- BOOT_STAT (22_boot_update.md). -/
def BOOT_STAT : Fld := ⟨0xE002A, 31, 0⟩
def BOOT_STAT_PRG : Fld := ⟨0xE002A, 23, 20⟩
def BOOT_STAT_DFAIL : Fld := ⟨0xE002A, 11, 8⟩
def BOOT_STAT_DEAD : Fld := ⟨0xE002A, 7, 7⟩
def BOOT_STAT_TORN : Fld := ⟨0xE002A, 6, 6⟩
def BOOT_STAT_SRC : Fld := ⟨0xE002A, 5, 5⟩
/-- FW_VER (22_boot_update.md). -/
def FW_VER : Fld := ⟨0xE002C, 31, 0⟩
/-- FW_STAT (22_boot_update.md). -/
def FW_STAT : Fld := ⟨0xE002E, 31, 0⟩
def FW_STAT_ERR : Fld := ⟨0xE002E, 23, 16⟩
def FW_STAT_PEND_BOOT : Fld := ⟨0xE002E, 2, 2⟩
def FW_STAT_HBUSY : Fld := ⟨0xE002E, 1, 1⟩
/-- BOOT_ARUN (22_boot_update.md). -/
def BOOT_ARUN : Fld := ⟨0xE0030, 31, 0⟩
def BOOT_ARUN_STORE : Fld := ⟨0xE0030, 31, 31⟩
def BOOT_ARUN_MODE : Fld := ⟨0xE0030, 1, 0⟩
/-- SUP_STAT (23_package_electrical.md). -/
def SUP_STAT : Fld := ⟨0xE0100, 31, 0⟩
def SUP_STAT_TJ_CORE : Fld := ⟨0xE0100, 31, 24⟩
def SUP_STAT_TJ_MAX : Fld := ⟨0xE0100, 23, 16⟩
def SUP_STAT_THOT : Fld := ⟨0xE0100, 8, 8⟩
def SUP_STAT_BO_IO : Fld := ⟨0xE0100, 5, 5⟩
def SUP_STAT_BO_SDH : Fld := ⟨0xE0100, 4, 4⟩
def SUP_STAT_BO_SDS : Fld := ⟨0xE0100, 3, 3⟩
def SUP_STAT_BO_NV : Fld := ⟨0xE0100, 2, 2⟩
def SUP_STAT_BO_MEM : Fld := ⟨0xE0100, 1, 1⟩
def SUP_STAT_BO_CORE : Fld := ⟨0xE0100, 0, 0⟩
/-- MC_STATUS (01_architecture.md). -/
def MC_STATUS : Fld := ⟨0xE0200, 31, 0⟩
def MC_STATUS_CE_COUNT : Fld := ⟨0xE0200, 31, 16⟩
def MC_STATUS_ESC : Fld := ⟨0xE0200, 11, 11⟩
def MC_STATUS_KIND : Fld := ⟨0xE0200, 10, 8⟩
def MC_STATUS_ESC_COUNT : Fld := ⟨0xE0200, 7, 4⟩
def MC_STATUS_MULTI : Fld := ⟨0xE0200, 3, 3⟩
def MC_STATUS_FATAL : Fld := ⟨0xE0200, 2, 2⟩
def MC_STATUS_RECOV : Fld := ⟨0xE0200, 1, 1⟩
/-- MC_ADDR (01_architecture.md). -/
def MC_ADDR : Fld := ⟨0xE0202, 31, 0⟩
def MC_ADDR_HERD : Fld := ⟨0xE0202, 31, 28⟩
def MC_ADDR_MEMBER : Fld := ⟨0xE0202, 27, 24⟩
def MC_ADDR_ADDR : Fld := ⟨0xE0202, 23, 0⟩
/-- MC_CTRL (01_architecture.md). -/
def MC_CTRL : Fld := ⟨0xE0204, 31, 0⟩
def MC_CTRL_INJ : Fld := ⟨0xE0204, 12, 12⟩
def MC_CTRL_CE_CLR : Fld := ⟨0xE0204, 8, 8⟩
def MC_CTRL_ESC_LIM : Fld := ⟨0xE0204, 3, 0⟩
/-- GOOSE_PERIOD (17_time_events_goose.md). -/
def GOOSE_PERIOD : Fld := ⟨0xE0300, 31, 0⟩
def GOOSE_PERIOD_PERIOD : Fld := ⟨0xE0300, 19, 0⟩
/-- GOOSE_OPEN (17_time_events_goose.md). -/
def GOOSE_OPEN : Fld := ⟨0xE0302, 31, 0⟩
def GOOSE_OPEN_OPEN : Fld := ⟨0xE0302, 19, 0⟩
/-- GOOSE_REG (17_time_events_goose.md). -/
def GOOSE_REG : Fld := ⟨0xE0304, 31, 0⟩
def GOOSE_REG_IDS : Fld := ⟨0xE0304, 15, 0⟩
/-- GOOSE_CHK (17_time_events_goose.md). -/
def GOOSE_CHK : Fld := ⟨0xE0306, 31, 0⟩
def GOOSE_CHK_KEY : Fld := ⟨0xE0306, 31, 16⟩
def GOOSE_CHK_ID : Fld := ⟨0xE0306, 3, 0⟩
/-- GOOSE_STAT (17_time_events_goose.md). -/
def GOOSE_STAT : Fld := ⟨0xE0308, 31, 0⟩
def GOOSE_STAT_UNREG : Fld := ⟨0xE0308, 8, 8⟩
def GOOSE_STAT_BADKEY : Fld := ⟨0xE0308, 7, 7⟩
def GOOSE_STAT_LATE : Fld := ⟨0xE0308, 6, 6⟩
def GOOSE_STAT_EARLY : Fld := ⟨0xE0308, 5, 5⟩
def GOOSE_STAT_WARN : Fld := ⟨0xE0308, 4, 4⟩
def GOOSE_STAT_STAGE : Fld := ⟨0xE0308, 0, 0⟩
/-- GOOSE_COUNT (17_time_events_goose.md). -/
def GOOSE_COUNT : Fld := ⟨0xE030A, 31, 0⟩
def GOOSE_COUNT_COUNT : Fld := ⟨0xE030A, 19, 0⟩
/-- GOOSE_SEEN (17_time_events_goose.md). -/
def GOOSE_SEEN : Fld := ⟨0xE030C, 31, 0⟩
/-- GOOSE_MISSING (17_time_events_goose.md). -/
def GOOSE_MISSING : Fld := ⟨0xE030E, 31, 0⟩
/-- GOOSE_DUP (17_time_events_goose.md). -/
def GOOSE_DUP : Fld := ⟨0xE0310, 31, 0⟩
/-- TIME_LO (17_time_events_goose.md). -/
def TIME_LO : Fld := ⟨0xE0400, 31, 0⟩
/-- TIME_HI (17_time_events_goose.md). -/
def TIME_HI : Fld := ⟨0xE0402, 31, 0⟩
/-- TB_SET_LO (17_time_events_goose.md). -/
def TB_SET_LO : Fld := ⟨0xE0404, 31, 0⟩
/-- TB_SET_HI (17_time_events_goose.md). -/
def TB_SET_HI : Fld := ⟨0xE0406, 31, 0⟩
/-- TB_CTRL (17_time_events_goose.md). -/
def TB_CTRL : Fld := ⟨0xE0408, 31, 0⟩
def TB_CTRL_STEP : Fld := ⟨0xE0408, 0, 0⟩
/-- TB_STAT (17_time_events_goose.md). -/
def TB_STAT : Fld := ⟨0xE040A, 31, 0⟩
def TB_STAT_STEP_CNT : Fld := ⟨0xE040A, 31, 16⟩
def TB_STAT_DENY : Fld := ⟨0xE040A, 4, 4⟩
def TB_STAT_LOCK : Fld := ⟨0xE040A, 3, 3⟩
def TB_STAT_SRC : Fld := ⟨0xE040A, 1, 0⟩
/-- TB_ADJ (17_time_events_goose.md). -/
def TB_ADJ : Fld := ⟨0xE040C, 31, 0⟩
/-- EV_RAISED[k] (17_time_events_goose.md). -/
def EV_RAISED (n : Nat) : Fld := ⟨0xE0410 + n * 0x2, 31, 0⟩
/-- EV_HPEND[k] (17_time_events_goose.md). -/
def EV_HPEND (n : Nat) : Fld := ⟨0xE0418 + n * 0x2, 31, 0⟩
/-- EV_ROUTE[s] (17_time_events_goose.md). -/
def EV_ROUTE (n : Nat) : Fld := ⟨0xE0500 + n * 0x2, 31, 0⟩
def EV_ROUTE_PRE (n : Nat) : Fld := ⟨0xE0500 + n * 0x2, 31, 31⟩
def EV_ROUTE_HOST (n : Nat) : Fld := ⟨0xE0500 + n * 0x2, 30, 30⟩
def EV_ROUTE_HVEC (n : Nat) : Fld := ⟨0xE0500 + n * 0x2, 28, 24⟩
def EV_ROUTE_TILES (n : Nat) : Fld := ⟨0xE0500 + n * 0x2, 15, 0⟩
/-- EV_VEC[s] (17_time_events_goose.md). -/
def EV_VEC (n : Nat) : Fld := ⟨0xE0600 + n * 0x2, 31, 0⟩
def EV_VEC_PC (n : Nat) : Fld := ⟨0xE0600 + n * 0x2, 20, 0⟩
/-- EV_TSL[s] (17_time_events_goose.md). -/
def EV_TSL (n : Nat) : Fld := ⟨0xE0700 + n * 0x2, 31, 0⟩
/-- SCAN_CTRL (06_scan.md). -/
def SCAN_CTRL : Fld := ⟨0xE0800, 31, 0⟩
def SCAN_CTRL_MAX_CLR : Fld := ⟨0xE0800, 7, 7⟩
def SCAN_CTRL_STOP_OUT : Fld := ⟨0xE0800, 3, 3⟩
def SCAN_CTRL_CMD : Fld := ⟨0xE0800, 2, 0⟩
/-- SCAN_STAT (06_scan.md). -/
def SCAN_STAT : Fld := ⟨0xE0802, 31, 0⟩
def SCAN_STAT_SKIP_CNT : Fld := ⟨0xE0802, 31, 16⟩
def SCAN_STAT_CT_DENY : Fld := ⟨0xE0802, 10, 10⟩
def SCAN_STAT_MAP_ERR : Fld := ⟨0xE0802, 9, 9⟩
def SCAN_STAT_OVR : Fld := ⟨0xE0802, 8, 8⟩
def SCAN_STAT_COLD : Fld := ⟨0xE0802, 7, 7⟩
def SCAN_STAT_STATE : Fld := ⟨0xE0802, 2, 0⟩
/-- SCAN_GAP (06_scan.md). -/
def SCAN_GAP : Fld := ⟨0xE0804, 31, 0⟩
def SCAN_GAP_GAP : Fld := ⟨0xE0804, 16, 0⟩
/-- SCAN_CEIL (06_scan.md). -/
def SCAN_CEIL : Fld := ⟨0xE0806, 31, 0⟩
def SCAN_CEIL_CEIL : Fld := ⟨0xE0806, 23, 0⟩
/-- SCAN_CNT (06_scan.md). -/
def SCAN_CNT : Fld := ⟨0xE0808, 31, 0⟩
def SCAN_CNT_CNT : Fld := ⟨0xE0808, 31, 0⟩
/-- SCAN_LAST (06_scan.md). -/
def SCAN_LAST : Fld := ⟨0xE080A, 31, 0⟩
def SCAN_LAST_NS : Fld := ⟨0xE080A, 31, 0⟩
/-- SCAN_MAX (06_scan.md). -/
def SCAN_MAX : Fld := ⟨0xE080C, 31, 0⟩
def SCAN_MAX_NS : Fld := ⟨0xE080C, 31, 0⟩
/-- PMAP[k] (06_scan.md). -/
def PMAP (n : Nat) : Fld := ⟨0xE0820 + n * 0x2, 31, 0⟩
def PMAP_QEN (n : Nat) : Fld := ⟨0xE0820 + n * 0x2, 31, 31⟩
def PMAP_QBASE (n : Nat) : Fld := ⟨0xE0820 + n * 0x2, 30, 16⟩
def PMAP_IEN (n : Nat) : Fld := ⟨0xE0820 + n * 0x2, 15, 15⟩
def PMAP_IBASE (n : Nat) : Fld := ⟨0xE0820 + n * 0x2, 14, 0⟩
/-- CTASK[k] (06_scan.md). -/
def CTASK (n : Nat) : Fld := ⟨0xE0840 + n * 0x2, 31, 0⟩
def CTASK_EN (n : Nat) : Fld := ⟨0xE0840 + n * 0x2, 31, 31⟩
def CTASK_RING (n : Nat) : Fld := ⟨0xE0840 + n * 0x2, 30, 29⟩
def CTASK_POINT (n : Nat) : Fld := ⟨0xE0840 + n * 0x2, 28, 26⟩
def CTASK_TILE (n : Nat) : Fld := ⟨0xE0840 + n * 0x2, 25, 22⟩
def CTASK_PC (n : Nat) : Fld := ⟨0xE0840 + n * 0x2, 20, 0⟩
/-- CTASK_STAT (06_scan.md). -/
def CTASK_STAT : Fld := ⟨0xE0850, 31, 0⟩
def CTASK_STAT_OVR_CNT : Fld := ⟨0xE0850, 31, 16⟩
def CTASK_STAT_ACT : Fld := ⟨0xE0850, 15, 8⟩
def CTASK_STAT_OVR : Fld := ⟨0xE0850, 7, 0⟩
/-- FORCE_CTRL (06_scan.md). -/
def FORCE_CTRL : Fld := ⟨0xE0860, 31, 0⟩
def FORCE_CTRL_QCNT : Fld := ⟨0xE0860, 28, 16⟩
def FORCE_CTRL_CLR_ALL : Fld := ⟨0xE0860, 15, 15⟩
def FORCE_CTRL_CLR_ORPH : Fld := ⟨0xE0860, 14, 14⟩
def FORCE_CTRL_ICNT : Fld := ⟨0xE0860, 12, 0⟩
/-- FORCE_ORPHAN (06_scan.md). -/
def FORCE_ORPHAN : Fld := ⟨0xE0862, 31, 0⟩
def FORCE_ORPHAN_COUNT : Fld := ⟨0xE0862, 12, 0⟩
/-- TILE[t].EMU_VEC (03_isa_encoding.md). -/
def TILE_EMU_VEC (n : Nat) : Fld := ⟨0xE0B00 + n * 0x2, 31, 0⟩
def TILE_EMU_VEC_EN (n : Nat) : Fld := ⟨0xE0B00 + n * 0x2, 31, 31⟩
def TILE_EMU_VEC_VEC (n : Nat) : Fld := ⟨0xE0B00 + n * 0x2, 20, 0⟩
/-- TILE[t].ENTRY (05_execution_model.md). -/
def TILE_ENTRY (n : Nat) : Fld := ⟨0xE0B20 + n * 0x2, 31, 0⟩
def TILE_ENTRY_EN (n : Nat) : Fld := ⟨0xE0B20 + n * 0x2, 31, 31⟩
def TILE_ENTRY_PC (n : Nat) : Fld := ⟨0xE0B20 + n * 0x2, 20, 0⟩
/-- TILE[t].STK (05_execution_model.md). -/
def TILE_STK (n : Nat) : Fld := ⟨0xE0B40 + n * 0x2, 31, 0⟩
def TILE_STK_SP (n : Nat) : Fld := ⟨0xE0B40 + n * 0x2, 23, 0⟩
/-- TILE[t].EVT_STK (05_execution_model.md). -/
def TILE_EVT_STK (n : Nat) : Fld := ⟨0xE0B60 + n * 0x2, 31, 0⟩
def TILE_EVT_STK_SP (n : Nat) : Fld := ⟨0xE0B60 + n * 0x2, 23, 0⟩
/-- TILE[t].ACC_VEC (05_execution_model.md). -/
def TILE_ACC_VEC (n : Nat) : Fld := ⟨0xE0B80 + n * 0x2, 31, 0⟩
def TILE_ACC_VEC_EN (n : Nat) : Fld := ⟨0xE0B80 + n * 0x2, 31, 31⟩
def TILE_ACC_VEC_VEC (n : Nat) : Fld := ⟨0xE0B80 + n * 0x2, 20, 0⟩
/-- TILE[t].CTRL (05_execution_model.md). -/
def TILE_CTRL (n : Nat) : Fld := ⟨0xE0BA0 + n * 0x2, 31, 0⟩
def TILE_CTRL_T4_MODE (n : Nat) : Fld := ⟨0xE0BA0 + n * 0x2, 0, 0⟩
/-- TILE[t].STATE (05_execution_model.md). -/
def TILE_STATE (n : Nat) : Fld := ⟨0xE0BC0 + n * 0x2, 31, 0⟩
def TILE_STATE_BRK_CAUSE (n : Nat) : Fld := ⟨0xE0BC0 + n * 0x2, 11, 8⟩
def TILE_STATE_T4_DENY (n : Nat) : Fld := ⟨0xE0BC0 + n * 0x2, 7, 7⟩
def TILE_STATE_T4_BRK (n : Nat) : Fld := ⟨0xE0BC0 + n * 0x2, 6, 6⟩
def TILE_STATE_T4_ACT (n : Nat) : Fld := ⟨0xE0BC0 + n * 0x2, 5, 5⟩
def TILE_STATE_RUN (n : Nat) : Fld := ⟨0xE0BC0 + n * 0x2, 1, 0⟩
/-- PROG_STAT (07_online_change.md). -/
def PROG_STAT : Fld := ⟨0xE0C00, 31, 0⟩
def PROG_STAT_ACTIVE : Fld := ⟨0xE0C00, 31, 31⟩
def PROG_STAT_ERR : Fld := ⟨0xE0C00, 23, 16⟩
def PROG_STAT_SEQ : Fld := ⟨0xE0C00, 7, 7⟩
def PROG_STAT_STATE : Fld := ⟨0xE0C00, 2, 0⟩
/-- PROG_ID (07_online_change.md). -/
def PROG_ID : Fld := ⟨0xE0C02, 31, 0⟩
def PROG_ID_PKG_ID : Fld := ⟨0xE0C02, 31, 0⟩
/-- CHG_CTRL (07_online_change.md). -/
def CHG_CTRL : Fld := ⟨0xE0C04, 31, 0⟩
def CHG_CTRL_CMD : Fld := ⟨0xE0C04, 2, 0⟩
/-- STAGE_PTR (07_online_change.md). -/
def STAGE_PTR : Fld := ⟨0xE0C06, 31, 0⟩
def STAGE_PTR_PTR : Fld := ⟨0xE0C06, 20, 0⟩
/-- STAGE_DATA (07_online_change.md). -/
def STAGE_DATA : Fld := ⟨0xE0C08, 31, 0⟩
def STAGE_DATA_HI : Fld := ⟨0xE0C08, 31, 16⟩
def STAGE_DATA_LO : Fld := ⟨0xE0C08, 15, 0⟩
/-- CHG_BOUND (07_online_change.md). -/
def CHG_BOUND : Fld := ⟨0xE0C0A, 31, 0⟩
def CHG_BOUND_NS : Fld := ⟨0xE0C0A, 31, 0⟩
/-- CHG_LAST (07_online_change.md). -/
def CHG_LAST : Fld := ⟨0xE0C0C, 31, 0⟩
def CHG_LAST_NS : Fld := ⟨0xE0C0C, 31, 0⟩
/-- CHG_COUNT (07_online_change.md). -/
def CHG_COUNT : Fld := ⟨0xE0C0E, 31, 0⟩
def CHG_COUNT_MISMATCH : Fld := ⟨0xE0C0E, 31, 24⟩
def CHG_COUNT_CONV_SAT : Fld := ⟨0xE0C0E, 23, 16⟩
def CHG_COUNT_NEW : Fld := ⟨0xE0C0E, 15, 0⟩
/-- PAIR_CFG (16_pair_redundancy.md). -/
def PAIR_CFG : Fld := ⟨0xE1000, 31, 0⟩
def PAIR_CFG_EN : Fld := ⟨0xE1000, 31, 31⟩
def PAIR_CFG_SIDE : Fld := ⟨0xE1000, 30, 30⟩
def PAIR_CFG_POLICY : Fld := ⟨0xE1000, 29, 29⟩
def PAIR_CFG_STORE : Fld := ⟨0xE1000, 28, 28⟩
def PAIR_CFG_MPER : Fld := ⟨0xE1000, 15, 8⟩
def PAIR_CFG_REF : Fld := ⟨0xE1000, 1, 0⟩
/-- PAIR_CTRL (16_pair_redundancy.md). -/
def PAIR_CTRL : Fld := ⟨0xE1002, 31, 0⟩
def PAIR_CTRL_SWITCH : Fld := ⟨0xE1002, 1, 1⟩
def PAIR_CTRL_GO_ACTIVE : Fld := ⟨0xE1002, 0, 0⟩
/-- PAIR_STAT (16_pair_redundancy.md). -/
def PAIR_STAT : Fld := ⟨0xE1004, 31, 0⟩
def PAIR_STAT_ROLE : Fld := ⟨0xE1004, 31, 30⟩
def PAIR_STAT_SYNC : Fld := ⟨0xE1004, 29, 28⟩
def PAIR_STAT_CAUSE : Fld := ⟨0xE1004, 27, 24⟩
def PAIR_STAT_DUAL : Fld := ⟨0xE1004, 7, 7⟩
def PAIR_STAT_FENCE_FAIL : Fld := ⟨0xE1004, 6, 6⟩
def PAIR_STAT_LAG : Fld := ⟨0xE1004, 5, 5⟩
def PAIR_STAT_DENY : Fld := ⟨0xE1004, 4, 4⟩
def PAIR_STAT_PACT : Fld := ⟨0xE1004, 3, 3⟩
def PAIR_STAT_LANE1 : Fld := ⟨0xE1004, 2, 2⟩
def PAIR_STAT_LANE0 : Fld := ⟨0xE1004, 1, 1⟩
/-- MIR_VER (16_pair_redundancy.md). -/
def MIR_VER : Fld := ⟨0xE1006, 31, 0⟩
def MIR_VER_PARTNER : Fld := ⟨0xE1006, 31, 16⟩
def MIR_VER_MAJOR : Fld := ⟨0xE1006, 15, 8⟩
def MIR_VER_MINOR : Fld := ⟨0xE1006, 7, 0⟩
/-- MIR_PT (16_pair_redundancy.md). -/
def MIR_PT : Fld := ⟨0xE1008, 31, 0⟩
/-- MIR_CYC (16_pair_redundancy.md). -/
def MIR_CYC : Fld := ⟨0xE100A, 31, 0⟩
/-- MIR_LAG (16_pair_redundancy.md). -/
def MIR_LAG : Fld := ⟨0xE100C, 31, 0⟩
def MIR_LAG_CNT : Fld := ⟨0xE100C, 31, 16⟩
def MIR_LAG_LINES : Fld := ⟨0xE100C, 15, 0⟩
/-- TKO_CNT (16_pair_redundancy.md). -/
def TKO_CNT : Fld := ⟨0xE100E, 31, 0⟩
def TKO_CNT_TAKE : Fld := ⟨0xE100E, 31, 16⟩
def TKO_CNT_PLAN : Fld := ⟨0xE100E, 15, 0⟩
/-- FAB_CFG (15_unit_fabric.md). -/
def FAB_CFG : Fld := ⟨0xE1400, 31, 0⟩
def FAB_CFG_EN : Fld := ⟨0xE1400, 31, 31⟩
def FAB_CFG_STEPEN : Fld := ⟨0xE1400, 30, 30⟩
def FAB_CFG_LINKEN : Fld := ⟨0xE1400, 19, 16⟩
def FAB_CFG_REQEN : Fld := ⟨0xE1400, 15, 15⟩
def FAB_CFG_REQ : Fld := ⟨0xE1400, 7, 0⟩
/-- FAB_CMD (15_unit_fabric.md). -/
def FAB_CMD : Fld := ⟨0xE1402, 31, 0⟩
def FAB_CMD_CNT_CLR : Fld := ⟨0xE1402, 1, 1⟩
def FAB_CMD_REJOIN : Fld := ⟨0xE1402, 0, 0⟩
/-- FAB_STAT (15_unit_fabric.md). -/
def FAB_STAT : Fld := ⟨0xE1404, 31, 0⟩
def FAB_STAT_DEVNUM : Fld := ⟨0xE1404, 31, 24⟩
def FAB_STAT_VALID : Fld := ⟨0xE1404, 23, 23⟩
def FAB_STAT_ROOT : Fld := ⟨0xE1404, 22, 22⟩
def FAB_STAT_CONFL : Fld := ⟨0xE1404, 21, 21⟩
def FAB_STAT_TLOCK : Fld := ⟨0xE1404, 20, 20⟩
def FAB_STAT_FULL : Fld := ⟨0xE1404, 19, 19⟩
def FAB_STAT_CFGERR : Fld := ⟨0xE1404, 18, 18⟩
def FAB_STAT_NDEV : Fld := ⟨0xE1404, 15, 8⟩
def FAB_STAT_STATE : Fld := ⟨0xE1404, 2, 0⟩
/-- FAB_ADDR (15_unit_fabric.md). -/
def FAB_ADDR : Fld := ⟨0xE1406, 31, 0⟩
def FAB_ADDR_LEVELS : Fld := ⟨0xE1406, 31, 8⟩
/-- UID_LO (15_unit_fabric.md). -/
def UID_LO : Fld := ⟨0xE1408, 31, 0⟩
/-- UID_HI (15_unit_fabric.md). -/
def UID_HI : Fld := ⟨0xE140A, 31, 0⟩
/-- ROOT_LO (15_unit_fabric.md). -/
def ROOT_LO : Fld := ⟨0xE140C, 31, 0⟩
/-- ROOT_HI (15_unit_fabric.md). -/
def ROOT_HI : Fld := ⟨0xE140E, 31, 0⟩
/-- LINK[L].STAT (15_unit_fabric.md). -/
def LINK_STAT (n : Nat) : Fld := ⟨0xE1410 + n * 0x2, 31, 0⟩
def LINK_STAT_NDEV (n : Nat) : Fld := ⟨0xE1410 + n * 0x2, 31, 24⟩
def LINK_STAT_NVALID (n : Nat) : Fld := ⟨0xE1410 + n * 0x2, 23, 23⟩
def LINK_STAT_STATE (n : Nat) : Fld := ⟨0xE1410 + n * 0x2, 2, 0⟩
/-- LINK[L].CAP (15_unit_fabric.md). -/
def LINK_CAP (n : Nat) : Fld := ⟨0xE1418 + n * 0x2, 31, 0⟩
/-- LINK[L].CRC (15_unit_fabric.md). -/
def LINK_CRC (n : Nat) : Fld := ⟨0xE1420 + n * 0x2, 31, 0⟩
/-- FAB_DROP (15_unit_fabric.md). -/
def FAB_DROP : Fld := ⟨0xE1428, 31, 0⟩
/-- TSYNC_STAT (15_unit_fabric.md). -/
def TSYNC_STAT : Fld := ⟨0xE142A, 31, 0⟩
def TSYNC_STAT_PARENT : Fld := ⟨0xE142A, 7, 0⟩
/-- TSYNC_OFS (15_unit_fabric.md). -/
def TSYNC_OFS : Fld := ⟨0xE142C, 31, 0⟩
/-- GRP[j] (15_unit_fabric.md). -/
def GRP (n : Nat) : Fld := ⟨0xE1430 + n * 0x2, 31, 0⟩
def GRP_EN (n : Nat) : Fld := ⟨0xE1430 + n * 0x2, 31, 31⟩
def GRP_PAIR (n : Nat) : Fld := ⟨0xE1430 + n * 0x2, 30, 30⟩
def GRP_LEADC (n : Nat) : Fld := ⟨0xE1430 + n * 0x2, 29, 29⟩
def GRP_G (n : Nat) : Fld := ⟨0xE1430 + n * 0x2, 7, 0⟩
/-- PUB[k].SRC (15_unit_fabric.md). -/
def PUB_SRC (n : Nat) : Fld := ⟨0xE1500 + n * 0x8, 31, 0⟩
def PUB_SRC_LEN (n : Nat) : Fld := ⟨0xE1500 + n * 0x8, 30, 24⟩
def PUB_SRC_ADDR (n : Nat) : Fld := ⟨0xE1500 + n * 0x8, 23, 0⟩
/-- PUB[k].DST (15_unit_fabric.md). -/
def PUB_DST (n : Nat) : Fld := ⟨0xE1502 + n * 0x8, 31, 0⟩
/-- PUB[k].CTRL (15_unit_fabric.md). -/
def PUB_CTRL (n : Nat) : Fld := ⟨0xE1504 + n * 0x8, 31, 0⟩
def PUB_CTRL_EN (n : Nat) : Fld := ⟨0xE1504 + n * 0x8, 31, 31⟩
def PUB_CTRL_PER (n : Nat) : Fld := ⟨0xE1504 + n * 0x8, 15, 0⟩
/-- SUB[k].CTRL (15_unit_fabric.md). -/
def SUB_CTRL (n : Nat) : Fld := ⟨0xE1600 + n * 0x8, 31, 0⟩
def SUB_CTRL_EN (n : Nat) : Fld := ⟨0xE1600 + n * 0x8, 31, 31⟩
def SUB_CTRL_PUB_ID (n : Nat) : Fld := ⟨0xE1600 + n * 0x8, 28, 24⟩
def SUB_CTRL_SRCDEV (n : Nat) : Fld := ⟨0xE1600 + n * 0x8, 23, 16⟩
def SUB_CTRL_PER (n : Nat) : Fld := ⟨0xE1600 + n * 0x8, 15, 0⟩
/-- SUB[k].DST (15_unit_fabric.md). -/
def SUB_DST (n : Nat) : Fld := ⟨0xE1602 + n * 0x8, 31, 0⟩
def SUB_DST_LEN (n : Nat) : Fld := ⟨0xE1602 + n * 0x8, 30, 24⟩
def SUB_DST_ADDR (n : Nat) : Fld := ⟨0xE1602 + n * 0x8, 23, 0⟩
/-- ROUTE[m] (15_unit_fabric.md). -/
def ROUTE (n : Nat) : Fld := ⟨0xE1700 + n * 0x2, 31, 0⟩
/-- NV_CFG (19_nonvolatile.md). -/
def NV_CFG : Fld := ⟨0xE1800, 31, 0⟩
def NV_CFG_VTHR : Fld := ⟨0xE1800, 7, 4⟩
/-- NV_STAT (19_nonvolatile.md). -/
def NV_STAT : Fld := ⟨0xE1802, 31, 0⟩
def NV_STAT_PFW : Fld := ⟨0xE1802, 9, 9⟩
def NV_STAT_PFDONE : Fld := ⟨0xE1802, 8, 8⟩
def NV_STAT_PF : Fld := ⟨0xE1802, 7, 7⟩
def NV_STAT_VFAIL : Fld := ⟨0xE1802, 6, 6⟩
def NV_STAT_TIE : Fld := ⟨0xE1802, 5, 5⟩
def NV_STAT_DENY : Fld := ⟨0xE1802, 4, 4⟩
def NV_STAT_WSKIP : Fld := ⟨0xE1802, 3, 3⟩
def NV_STAT_VBUSY : Fld := ⟨0xE1802, 1, 1⟩
def NV_STAT_BUSY : Fld := ⟨0xE1802, 0, 0⟩
/-- NVR_CMD (19_nonvolatile.md). -/
def NVR_CMD : Fld := ⟨0xE1804, 31, 0⟩
def NVR_CMD_OP : Fld := ⟨0xE1804, 1, 0⟩
/-- NVR_ADDR (19_nonvolatile.md). -/
def NVR_ADDR : Fld := ⟨0xE1806, 31, 0⟩
def NVR_ADDR_OFS : Fld := ⟨0xE1806, 22, 0⟩
/-- NVR_BUF (19_nonvolatile.md). -/
def NVR_BUF : Fld := ⟨0xE1808, 31, 0⟩
def NVR_BUF_ADDR : Fld := ⟨0xE1808, 23, 0⟩
/-- NVR_LEN (19_nonvolatile.md). -/
def NVR_LEN : Fld := ⟨0xE180A, 31, 0⟩
def NVR_LEN_LEN : Fld := ⟨0xE180A, 9, 0⟩
/-- NVR_RES (19_nonvolatile.md). -/
def NVR_RES : Fld := ⟨0xE180C, 31, 0⟩
def NVR_RES_TIE : Fld := ⟨0xE180C, 4, 4⟩
def NVR_RES_RESULT : Fld := ⟨0xE180C, 3, 0⟩
/-- NVR_SEQ (19_nonvolatile.md). -/
def NVR_SEQ : Fld := ⟨0xE180E, 31, 0⟩
/-- NV_PF (19_nonvolatile.md). -/
def NV_PF : Fld := ⟨0xE1810, 31, 0⟩
def NV_PF_PF_DISC : Fld := ⟨0xE1810, 31, 16⟩
def NV_PF_PF_DIRECT : Fld := ⟨0xE1810, 15, 0⟩
/-- NV_ECNT (19_nonvolatile.md). -/
def NV_ECNT : Fld := ⟨0xE1812, 31, 0⟩
def NV_ECNT_VPAGES : Fld := ⟨0xE1812, 31, 16⟩
def NV_ECNT_VFAIL_CNT : Fld := ⟨0xE1812, 15, 0⟩
/-- NV_VRANGE[k] (19_nonvolatile.md). -/
def NV_VRANGE (n : Nat) : Fld := ⟨0xE1820 + n * 0x2, 31, 0⟩
def NV_VRANGE_LAST (n : Nat) : Fld := ⟨0xE1820 + n * 0x2, 31, 16⟩
def NV_VRANGE_FIRST (n : Nat) : Fld := ⟨0xE1820 + n * 0x2, 15, 0⟩
/-- WRING[k].BASE (19_nonvolatile.md). -/
def WRING_BASE (n : Nat) : Fld := ⟨0xE1840 + n * 0x8, 31, 0⟩
def WRING_BASE_OFS (n : Nat) : Fld := ⟨0xE1840 + n * 0x8, 22, 0⟩
/-- WRING[k].CFG (19_nonvolatile.md). -/
def WRING_CFG (n : Nat) : Fld := ⟨0xE1842 + n * 0x8, 31, 0⟩
def WRING_CFG_EN (n : Nat) : Fld := ⟨0xE1842 + n * 0x8, 31, 31⟩
def WRING_CFG_FINAL (n : Nat) : Fld := ⟨0xE1842 + n * 0x8, 30, 30⟩
def WRING_CFG_TRIG (n : Nat) : Fld := ⟨0xE1842 + n * 0x8, 28, 22⟩
def WRING_CFG_P (n : Nat) : Fld := ⟨0xE1842 + n * 0x8, 19, 16⟩
def WRING_CFG_N (n : Nat) : Fld := ⟨0xE1842 + n * 0x8, 11, 0⟩
/-- WRING[k].SRC (19_nonvolatile.md). -/
def WRING_SRC (n : Nat) : Fld := ⟨0xE1844 + n * 0x8, 31, 0⟩
def WRING_SRC_ADDR (n : Nat) : Fld := ⟨0xE1844 + n * 0x8, 23, 0⟩
/-- WRING[k].SEQ (19_nonvolatile.md). -/
def WRING_SEQ (n : Nat) : Fld := ⟨0xE1846 + n * 0x8, 31, 0⟩
/-- WRING[k].DATA[j] (19_nonvolatile.md). -/
def WRING_DATA (n k : Nat) : Fld := ⟨0xE1900 + n * 0x10 + k * 0x2, 31, 0⟩
/-- HEN_CFG (18_hen_recorder.md). -/
def HEN_CFG : Fld := ⟨0xE1C00, 31, 0⟩
def HEN_CFG_EN : Fld := ⟨0xE1C00, 31, 31⟩
def HEN_CFG_AUTOFL : Fld := ⟨0xE1C00, 30, 30⟩
/-- HEN_CMD (18_hen_recorder.md). -/
def HEN_CMD : Fld := ⟨0xE1C02, 31, 0⟩
def HEN_CMD_VERIFY : Fld := ⟨0xE1C02, 4, 4⟩
def HEN_CMD_CNT_CLR : Fld := ⟨0xE1C02, 3, 3⟩
def HEN_CMD_ERASE_ALL : Fld := ⟨0xE1C02, 2, 2⟩
def HEN_CMD_ERASE_RUN : Fld := ⟨0xE1C02, 1, 1⟩
def HEN_CMD_FLUSH : Fld := ⟨0xE1C02, 0, 0⟩
/-- HEN_STAT (18_hen_recorder.md). -/
def HEN_STAT : Fld := ⟨0xE1C04, 31, 0⟩
def HEN_STAT_LOST_CNT : Fld := ⟨0xE1C04, 31, 16⟩
def HEN_STAT_VBUSY : Fld := ⟨0xE1C04, 10, 10⟩
def HEN_STAT_VRES : Fld := ⟨0xE1C04, 9, 8⟩
def HEN_STAT_DENY : Fld := ⟨0xE1C04, 7, 7⟩
def HEN_STAT_CFGERR : Fld := ⟨0xE1C04, 6, 6⟩
def HEN_STAT_BFULL : Fld := ⟨0xE1C04, 5, 5⟩
def HEN_STAT_ERASING : Fld := ⟨0xE1C04, 4, 4⟩
def HEN_STAT_FLUSHING : Fld := ⟨0xE1C04, 3, 3⟩
/-- HEN_SEQ (18_hen_recorder.md). -/
def HEN_SEQ : Fld := ⟨0xE1C06, 31, 0⟩
/-- HEN_FSEQ (18_hen_recorder.md). -/
def HEN_FSEQ : Fld := ⟨0xE1C08, 31, 0⟩
/-- HEN_SUPP (18_hen_recorder.md). -/
def HEN_SUPP : Fld := ⟨0xE1C0A, 31, 0⟩
/-- HEN_SEN[k] (18_hen_recorder.md). -/
def HEN_SEN (n : Nat) : Fld := ⟨0xE1C10 + n * 0x2, 31, 0⟩
/-- HEN_MAP[k] (18_hen_recorder.md). -/
def HEN_MAP (n : Nat) : Fld := ⟨0xE1C20 + n * 0x2, 31, 0⟩
/-- HEN_CLS[c] (18_hen_recorder.md). -/
def HEN_CLS (n : Nat) : Fld := ⟨0xE1C40 + n * 0x2, 31, 0⟩
def HEN_CLS_FLUSH (n : Nat) : Fld := ⟨0xE1C40 + n * 0x2, 31, 31⟩
def HEN_CLS_HOLD (n : Nat) : Fld := ⟨0xE1C40 + n * 0x2, 15, 0⟩
/-- HEN_RANGE[c][r] (18_hen_recorder.md). -/
def HEN_RANGE (n k : Nat) : Fld := ⟨0xE1C80 + n * 0x8 + k * 0x2, 31, 0⟩
def HEN_RANGE_CNT (n k : Nat) : Fld := ⟨0xE1C80 + n * 0x8 + k * 0x2, 29, 24⟩
def HEN_RANGE_ADDR (n k : Nat) : Fld := ⟨0xE1C80 + n * 0x8 + k * 0x2, 23, 0⟩
/-- HEN_RSEL (18_hen_recorder.md). -/
def HEN_RSEL : Fld := ⟨0xE1D00, 31, 0⟩
def HEN_RSEL_BUF : Fld := ⟨0xE1D00, 31, 31⟩
def HEN_RSEL_IDX : Fld := ⟨0xE1D00, 11, 0⟩
/-- HEN_RWIN (18_hen_recorder.md). -/
def HEN_RWIN (n : Nat) : Fld := ⟨0xE1D40 + n * 0x2, 31, 0⟩
/-- KE_STAT (21_keys_lifecycle.md). -/
def KE_STAT : Fld := ⟨0xE2000, 31, 0⟩
def KE_STAT_RESULT : Fld := ⟨0xE2000, 31, 24⟩
def KE_STAT_DBG_FAIL : Fld := ⟨0xE2000, 23, 8⟩
def KE_STAT_BUSY : Fld := ⟨0xE2000, 1, 1⟩
def KE_STAT_DENY : Fld := ⟨0xE2000, 0, 0⟩
/-- LC_STAT (21_keys_lifecycle.md). -/
def LC_STAT : Fld := ⟨0xE2010, 31, 0⟩
def LC_STAT_GEN : Fld := ⟨0xE2010, 24, 24⟩
def LC_STAT_ROOT : Fld := ⟨0xE2010, 23, 22⟩
def LC_STAT_TEST : Fld := ⟨0xE2010, 21, 21⟩
def LC_STAT_DBG_EN : Fld := ⟨0xE2010, 20, 20⟩
def LC_STAT_PEND : Fld := ⟨0xE2010, 19, 19⟩
def LC_STAT_STATE : Fld := ⟨0xE2010, 17, 16⟩
def LC_STAT_CODE : Fld := ⟨0xE2010, 15, 0⟩
/-- LC_CMD (21_keys_lifecycle.md). -/
def LC_CMD : Fld := ⟨0xE2012, 31, 0⟩
def LC_CMD_KEY : Fld := ⟨0xE2012, 31, 16⟩
def LC_CMD_TARGET : Fld := ⟨0xE2012, 1, 0⟩
/-- PS_HREG (21_keys_lifecycle.md). -/
def PS_HREG : Fld := ⟨0xE2020, 31, 0⟩
/-- PS_CMDA (21_keys_lifecycle.md). -/
def PS_CMDA : Fld := ⟨0xE2022, 31, 0⟩
/-- PS_POL (21_keys_lifecycle.md). -/
def PS_POL : Fld := ⟨0xE2024, 31, 0⟩
/-- PS_SHREG (21_keys_lifecycle.md). -/
def PS_SHREG : Fld := ⟨0xE2028, 31, 0⟩
/-- PS_SCMDA (21_keys_lifecycle.md). -/
def PS_SCMDA : Fld := ⟨0xE202A, 31, 0⟩
/-- PS_SPOL (21_keys_lifecycle.md). -/
def PS_SPOL : Fld := ⟨0xE202C, 31, 0⟩
/-- PS_BURN (21_keys_lifecycle.md). -/
def PS_BURN : Fld := ⟨0xE202E, 31, 0⟩
def PS_BURN_KEY : Fld := ⟨0xE202E, 31, 16⟩
/-- KS_STATE[k] (21_keys_lifecycle.md). -/
def KS_STATE (n : Nat) : Fld := ⟨0xE2040 + n * 0x2, 31, 0⟩
/-- KS_DATA[k] (21_keys_lifecycle.md). -/
def KS_DATA (n : Nat) : Fld := ⟨0xE2060 + n * 0x2, 31, 0⟩
def KS_DATA_VAL (n : Nat) : Fld := ⟨0xE2060 + n * 0x2, 31, 0⟩
/-- KS_PROG (21_keys_lifecycle.md). -/
def KS_PROG : Fld := ⟨0xE2070, 31, 0⟩
def KS_PROG_KEY : Fld := ⟨0xE2070, 31, 16⟩
def KS_PROG_ATTR : Fld := ⟨0xE2070, 10, 8⟩
def KS_PROG_SLOT : Fld := ⟨0xE2070, 4, 0⟩
/-- KS_ATTR[j] (21_keys_lifecycle.md). -/
def KS_ATTR (n : Nat) : Fld := ⟨0xE2080 + n * 0x2, 31, 0⟩
def KS_ATTR_ATTR (n : Nat) : Fld := ⟨0xE2080 + n * 0x2, 2, 0⟩
/-- OPK_HASH[k] (21_keys_lifecycle.md). -/
def OPK_HASH (n : Nat) : Fld := ⟨0xE20C0 + n * 0x2, 31, 0⟩
/-- FIO_DIR (13_field_channels.md). -/
def FIO_DIR : Fld := ⟨0xE2400, 31, 0⟩
/-- FIO_IN (13_field_channels.md). -/
def FIO_IN : Fld := ⟨0xE2402, 31, 0⟩
/-- FIO_RB (13_field_channels.md). -/
def FIO_RB : Fld := ⟨0xE2404, 31, 0⟩
/-- FIO_OUT (13_field_channels.md). -/
def FIO_OUT : Fld := ⟨0xE2406, 31, 0⟩
/-- FIO_GCFG[g] (13_field_channels.md). -/
def FIO_GCFG (n : Nat) : Fld := ⟨0xE2408 + n * 0x2, 31, 0⟩
def FIO_GCFG_SPER (n : Nat) : Fld := ⟨0xE2408 + n * 0x2, 14, 8⟩
def FIO_GCFG_PAR (n : Nat) : Fld := ⟨0xE2408 + n * 0x2, 1, 0⟩
/-- FIO_CCFG[i] (13_field_channels.md). -/
def FIO_CCFG (n : Nat) : Fld := ⟨0xE2420 + n * 0x2, 31, 0⟩
def FIO_CCFG_FILT (n : Nat) : Fld := ⟨0xE2420 + n * 0x2, 7, 4⟩
def FIO_CCFG_CHG_EV (n : Nat) : Fld := ⟨0xE2420 + n * 0x2, 2, 2⟩
def FIO_CCFG_TYPE (n : Nat) : Fld := ⟨0xE2420 + n * 0x2, 1, 1⟩
def FIO_CCFG_CONT (n : Nat) : Fld := ⟨0xE2420 + n * 0x2, 0, 0⟩
/-- FIO_STAT (13_field_channels.md). -/
def FIO_STAT : Fld := ⟨0xE2460, 31, 0⟩
def FIO_STAT_FAULT_CNT : Fld := ⟨0xE2460, 31, 24⟩
def FIO_STAT_DENY : Fld := ⟨0xE2460, 3, 3⟩
def FIO_STAT_SBY : Fld := ⟨0xE2460, 2, 2⟩
def FIO_STAT_VFLD_OK : Fld := ⟨0xE2460, 1, 1⟩
def FIO_STAT_FIO_FAULT : Fld := ⟨0xE2460, 0, 0⟩
/-- FIO_RETRY (13_field_channels.md). -/
def FIO_RETRY : Fld := ⟨0xE2462, 31, 0⟩
/-- BK_IF (20_backup_clock.md). -/
def BK_IF : Fld := ⟨0xE2800, 31, 0⟩
def BK_IF_DENY : Fld := ⟨0xE2800, 2, 2⟩
def BK_IF_LOCKED : Fld := ⟨0xE2800, 1, 1⟩
def BK_IF_BUSY : Fld := ⟨0xE2800, 0, 0⟩
/-- BK_CMD (20_backup_clock.md). -/
def BK_CMD : Fld := ⟨0xE2802, 31, 0⟩
def BK_CMD_SET : Fld := ⟨0xE2802, 0, 0⟩
/-- BK_SET_SEC (20_backup_clock.md). -/
def BK_SET_SEC : Fld := ⟨0xE2804, 31, 0⟩
/-- BK_SET_SUB (20_backup_clock.md). -/
def BK_SET_SUB : Fld := ⟨0xE2806, 31, 0⟩
def BK_SET_SUB_TICKS : Fld := ⟨0xE2806, 14, 0⟩
/-- BK_SUB (20_backup_clock.md). -/
def BK_SUB : Fld := ⟨0xE2808, 31, 0⟩
def BK_SUB_SUB : Fld := ⟨0xE2808, 14, 0⟩
/-- BK_SEC (20_backup_clock.md). -/
def BK_SEC : Fld := ⟨0xE280A, 31, 0⟩
/-- BK_WAKE (20_backup_clock.md). -/
def BK_WAKE : Fld := ⟨0xE280C, 31, 0⟩
def BK_WAKE_EN : Fld := ⟨0xE280C, 31, 31⟩
def BK_WAKE_N : Fld := ⟨0xE280C, 23, 0⟩
/-- BK_NEXT_SEC (20_backup_clock.md). -/
def BK_NEXT_SEC : Fld := ⟨0xE280E, 31, 0⟩
/-- BK_NEXT_SUB (20_backup_clock.md). -/
def BK_NEXT_SUB : Fld := ⟨0xE2810, 31, 0⟩
def BK_NEXT_SUB_TICKS : Fld := ⟨0xE2810, 14, 0⟩
/-- BK_STAT (20_backup_clock.md). -/
def BK_STAT : Fld := ⟨0xE2812, 31, 0⟩
def BK_STAT_OSC_RUN : Fld := ⟨0xE2812, 6, 6⟩
def BK_STAT_WOVR : Fld := ⟨0xE2812, 5, 5⟩
def BK_STAT_WAKE_SKIP : Fld := ⟨0xE2812, 4, 4⟩
def BK_STAT_WAKE : Fld := ⟨0xE2812, 3, 3⟩
def BK_STAT_BBOF : Fld := ⟨0xE2812, 2, 2⟩
def BK_STAT_OSF : Fld := ⟨0xE2812, 1, 1⟩
/-- BK_CAL (20_backup_clock.md). -/
def BK_CAL : Fld := ⟨0xE2814, 31, 0⟩
def BK_CAL_CAL : Fld := ⟨0xE2814, 7, 0⟩
/-- PFLAG[k] (14_host_interface.md). -/
def PFLAG (n : Nat) : Fld := ⟨0xE2C00 + n * 0x2, 31, 0⟩
/-- WIN_POOL[k] (14_host_interface.md). -/
def WIN_POOL (n : Nat) : Fld := ⟨0xE2C40 + n * 0x2, 31, 0⟩
/-- PG_CMD (14_host_interface.md). -/
def PG_CMD : Fld := ⟨0xE2C60, 31, 0⟩
def PG_CMD_TO : Fld := ⟨0xE2C60, 31, 30⟩
def PG_CMD_FROM : Fld := ⟨0xE2C60, 29, 28⟩
def PG_CMD_PAGE : Fld := ⟨0xE2C60, 8, 0⟩
/-- WIN_STAT (14_host_interface.md). -/
def WIN_STAT : Fld := ⟨0xE2C62, 31, 0⟩
def WIN_STAT_DISC_CNT : Fld := ⟨0xE2C62, 31, 16⟩
def WIN_STAT_TRAN_FAIL : Fld := ⟨0xE2C62, 15, 0⟩
/-- HOST_IRQ (14_host_interface.md). -/
def HOST_IRQ : Fld := ⟨0xE2C64, 31, 0⟩
def HOST_IRQ_VEC : Fld := ⟨0xE2C64, 4, 0⟩
/-- RING[x].CFG (10_purok_ring.md). -/
def RING_CFG (n : Nat) : Fld := ⟨0xE3000 + n * 0x200, 31, 0⟩
def RING_CFG_WIN (n : Nat) : Fld := ⟨0xE3000 + n * 0x200, 23, 16⟩
def RING_CFG_NNODE (n : Nat) : Fld := ⟨0xE3000 + n * 0x200, 13, 8⟩
def RING_CFG_AUTO (n : Nat) : Fld := ⟨0xE3000 + n * 0x200, 7, 7⟩
def RING_CFG_NPL (n : Nat) : Fld := ⟨0xE3000 + n * 0x200, 6, 4⟩
def RING_CFG_CTC (n : Nat) : Fld := ⟨0xE3000 + n * 0x200, 2, 0⟩
/-- RING[x].CMD (10_purok_ring.md). -/
def RING_CMD (n : Nat) : Fld := ⟨0xE3002 + n * 0x200, 31, 0⟩
def RING_CMD_STOP (n : Nat) : Fld := ⟨0xE3002 + n * 0x200, 1, 1⟩
def RING_CMD_START (n : Nat) : Fld := ⟨0xE3002 + n * 0x200, 0, 0⟩
/-- RING[x].STAT (10_purok_ring.md). -/
def RING_STAT (n : Nat) : Fld := ⟨0xE3004 + n * 0x200, 31, 0⟩
def RING_STAT_FOUND (n : Nat) : Fld := ⟨0xE3004 + n * 0x200, 31, 24⟩
def RING_STAT_ERR (n : Nat) : Fld := ⟨0xE3004 + n * 0x200, 23, 16⟩
def RING_STAT_ERR_NODE (n : Nat) : Fld := ⟨0xE3004 + n * 0x200, 12, 8⟩
def RING_STAT_DENY (n : Nat) : Fld := ⟨0xE3004 + n * 0x200, 5, 5⟩
def RING_STAT_HEALED (n : Nat) : Fld := ⟨0xE3004 + n * 0x200, 4, 4⟩
def RING_STAT_STATE (n : Nat) : Fld := ⟨0xE3004 + n * 0x200, 2, 0⟩
/-- RING[x].LOOP (10_purok_ring.md). -/
def RING_LOOP (n : Nat) : Fld := ⟨0xE3006 + n * 0x200, 31, 0⟩
/-- RING[x].CYC (10_purok_ring.md). -/
def RING_CYC (n : Nat) : Fld := ⟨0xE3008 + n * 0x200, 31, 0⟩
/-- RING[x].TAPPLY (10_purok_ring.md). -/
def RING_TAPPLY (n : Nat) : Fld := ⟨0xE300A + n * 0x200, 31, 0⟩
/-- RING[x].CPT[p] (10_purok_ring.md). -/
def RING_CPT (n k : Nat) : Fld := ⟨0xE3010 + n * 0x200 + k * 0x2, 31, 0⟩
def RING_CPT_EN (n k : Nat) : Fld := ⟨0xE3010 + n * 0x200 + k * 0x2, 31, 31⟩
def RING_CPT_REL (n k : Nat) : Fld := ⟨0xE3010 + n * 0x200 + k * 0x2, 30, 30⟩
def RING_CPT_OFS (n k : Nat) : Fld := ⟨0xE3010 + n * 0x200 + k * 0x2, 18, 0⟩
/-- RING[x].SVC_CTRL (10_purok_ring.md). -/
def RING_SVC_CTRL (n : Nat) : Fld := ⟨0xE3020 + n * 0x200, 31, 0⟩
def RING_SVC_CTRL_GO (n : Nat) : Fld := ⟨0xE3020 + n * 0x200, 31, 31⟩
def RING_SVC_CTRL_NODE (n : Nat) : Fld := ⟨0xE3020 + n * 0x200, 28, 24⟩
def RING_SVC_CTRL_OP (n : Nat) : Fld := ⟨0xE3020 + n * 0x200, 17, 16⟩
def RING_SVC_CTRL_INDEX (n : Nat) : Fld := ⟨0xE3020 + n * 0x200, 15, 0⟩
/-- RING[x].SVC_DATA (10_purok_ring.md). -/
def RING_SVC_DATA (n : Nat) : Fld := ⟨0xE3022 + n * 0x200, 31, 0⟩
/-- RING[x].SVC_STAT (10_purok_ring.md). -/
def RING_SVC_STAT (n : Nat) : Fld := ⟨0xE3024 + n * 0x200, 31, 0⟩
def RING_SVC_STAT_BUSY (n : Nat) : Fld := ⟨0xE3024 + n * 0x200, 31, 31⟩
def RING_SVC_STAT_RESULT (n : Nat) : Fld := ⟨0xE3024 + n * 0x200, 23, 16⟩
def RING_SVC_STAT_DENY (n : Nat) : Fld := ⟨0xE3024 + n * 0x200, 0, 0⟩
/-- RING[x].NODE[k].VENDOR (10_purok_ring.md). -/
def RING_NODE_VENDOR (n k : Nat) : Fld := ⟨0xE3040 + n * 0x200 + k * 0x8, 31, 0⟩
/-- RING[x].NODE[k].PRODUCT (10_purok_ring.md). -/
def RING_NODE_PRODUCT (n k : Nat) : Fld := ⟨0xE3042 + n * 0x200 + k * 0x8, 31, 0⟩
/-- RING[x].NODE[k].DLY (10_purok_ring.md). -/
def RING_NODE_DLY (n k : Nat) : Fld := ⟨0xE3044 + n * 0x200 + k * 0x8, 31, 0⟩
/-- RING[x].NODE[k].TXOFS (10_purok_ring.md). -/
def RING_NODE_TXOFS (n k : Nat) : Fld := ⟨0xE3046 + n * 0x200 + k * 0x8, 31, 0⟩
/-- RING[x].HEAL_STAT (11_ring_timing_faults.md). -/
def RING_HEAL_STAT (n : Nat) : Fld := ⟨0xE3140 + n * 0x200, 31, 0⟩
def RING_HEAL_STAT_OUT_UP (n : Nat) : Fld := ⟨0xE3140 + n * 0x200, 31, 31⟩
def RING_HEAL_STAT_IN_UP (n : Nat) : Fld := ⟨0xE3140 + n * 0x200, 30, 30⟩
def RING_HEAL_STAT_JLAST (n : Nat) : Fld := ⟨0xE3140 + n * 0x200, 23, 16⟩
def RING_HEAL_STAT_PHASE (n : Nat) : Fld := ⟨0xE3140 + n * 0x200, 1, 0⟩
/-- RING[x].HEAL_DELTA (11_ring_timing_faults.md). -/
def RING_HEAL_DELTA (n : Nat) : Fld := ⟨0xE3142 + n * 0x200, 31, 0⟩
/-- RING[x].CNT_CLR (11_ring_timing_faults.md). -/
def RING_CNT_CLR (n : Nat) : Fld := ⟨0xE3144 + n * 0x200, 31, 0⟩
def RING_CNT_CLR_CLR (n : Nat) : Fld := ⟨0xE3144 + n * 0x200, 0, 0⟩
/-- RING[x].MISSMAP (11_ring_timing_faults.md). -/
def RING_MISSMAP (n : Nat) : Fld := ⟨0xE3146 + n * 0x200, 31, 0⟩
/-- RING[x].SLOT_MISS (11_ring_timing_faults.md). -/
def RING_SLOT_MISS (n : Nat) : Fld := ⟨0xE3148 + n * 0x200, 31, 0⟩
/-- RING[x].EARLY (11_ring_timing_faults.md). -/
def RING_EARLY (n : Nat) : Fld := ⟨0xE314A + n * 0x200, 31, 0⟩
/-- RING[x].LATE (11_ring_timing_faults.md). -/
def RING_LATE (n : Nat) : Fld := ⟨0xE314C + n * 0x200, 31, 0⟩
/-- RING[x].FCS_ERR (11_ring_timing_faults.md). -/
def RING_FCS_ERR (n : Nat) : Fld := ⟨0xE314E + n * 0x200, 31, 0⟩
/-- RING[x].STRAY (11_ring_timing_faults.md). -/
def RING_STRAY (n : Nat) : Fld := ⟨0xE3150 + n * 0x200, 31, 0⟩
/-- RING[x].MF_LOST (11_ring_timing_faults.md). -/
def RING_MF_LOST (n : Nat) : Fld := ⟨0xE3152 + n * 0x200, 31, 0⟩
/-- RING[x].BREAK_CNT (11_ring_timing_faults.md). -/
def RING_BREAK_CNT (n : Nat) : Fld := ⟨0xE3154 + n * 0x200, 31, 0⟩
/-- RING[x].NODE[k].MISS (11_ring_timing_faults.md). -/
def RING_NODE_MISS (n k : Nat) : Fld := ⟨0xE3180 + n * 0x200 + k * 0x4, 31, 0⟩
/-- RING[x].NODE[k].AERR (11_ring_timing_faults.md). -/
def RING_NODE_AERR (n k : Nat) : Fld := ⟨0xE3182 + n * 0x200 + k * 0x4, 31, 0⟩
def RING_NODE_AERR_PEAK (n k : Nat) : Fld := ⟨0xE3182 + n * 0x200 + k * 0x4, 31, 16⟩
def RING_NODE_AERR_LAST (n k : Nat) : Fld := ⟨0xE3182 + n * 0x200 + k * 0x4, 15, 0⟩
/-- CAN[c].ARBT (12_can_fd.md). -/
def CAN_ARBT (n : Nat) : Fld := ⟨0xE3800 + n * 0x100, 31, 0⟩
def CAN_ARBT_TQ (n : Nat) : Fld := ⟨0xE3800 + n * 0x100, 31, 24⟩
def CAN_ARBT_NQ (n : Nat) : Fld := ⟨0xE3800 + n * 0x100, 23, 16⟩
def CAN_ARBT_SPQ (n : Nat) : Fld := ⟨0xE3800 + n * 0x100, 15, 8⟩
def CAN_ARBT_SJW (n : Nat) : Fld := ⟨0xE3800 + n * 0x100, 6, 0⟩
/-- CAN[c].DATT (12_can_fd.md). -/
def CAN_DATT (n : Nat) : Fld := ⟨0xE3802 + n * 0x100, 31, 0⟩
def CAN_DATT_TQ (n : Nat) : Fld := ⟨0xE3802 + n * 0x100, 31, 24⟩
def CAN_DATT_NQ (n : Nat) : Fld := ⟨0xE3802 + n * 0x100, 23, 16⟩
def CAN_DATT_SPQ (n : Nat) : Fld := ⟨0xE3802 + n * 0x100, 15, 8⟩
def CAN_DATT_SJW (n : Nat) : Fld := ⟨0xE3802 + n * 0x100, 6, 0⟩
/-- CAN[c].LDC (12_can_fd.md). -/
def CAN_LDC (n : Nat) : Fld := ⟨0xE3804 + n * 0x100, 31, 0⟩
def CAN_LDC_EN (n : Nat) : Fld := ⟨0xE3804 + n * 0x100, 31, 31⟩
def CAN_LDC_SSPO (n : Nat) : Fld := ⟨0xE3804 + n * 0x100, 24, 16⟩
def CAN_LDC_LOK (n : Nat) : Fld := ⟨0xE3804 + n * 0x100, 15, 15⟩
def CAN_LDC_LDLY (n : Nat) : Fld := ⟨0xE3804 + n * 0x100, 8, 0⟩
/-- CAN[c].CFG (12_can_fd.md). -/
def CAN_CFG (n : Nat) : Fld := ⟨0xE3806 + n * 0x100, 31, 0⟩
def CAN_CFG_NOMATCH (n : Nat) : Fld := ⟨0xE3806 + n * 0x100, 9, 8⟩
def CAN_CFG_LBK (n : Nat) : Fld := ⟨0xE3806 + n * 0x100, 4, 4⟩
def CAN_CFG_OSM (n : Nat) : Fld := ⟨0xE3806 + n * 0x100, 3, 3⟩
def CAN_CFG_LOM (n : Nat) : Fld := ⟨0xE3806 + n * 0x100, 2, 2⟩
def CAN_CFG_BRSE (n : Nat) : Fld := ⟨0xE3806 + n * 0x100, 1, 1⟩
def CAN_CFG_FDOE (n : Nat) : Fld := ⟨0xE3806 + n * 0x100, 0, 0⟩
/-- CAN[c].CMD (12_can_fd.md). -/
def CAN_CMD (n : Nat) : Fld := ⟨0xE3808 + n * 0x100, 31, 0⟩
def CAN_CMD_RECOVER (n : Nat) : Fld := ⟨0xE3808 + n * 0x100, 2, 2⟩
def CAN_CMD_STOP (n : Nat) : Fld := ⟨0xE3808 + n * 0x100, 1, 1⟩
def CAN_CMD_START (n : Nat) : Fld := ⟨0xE3808 + n * 0x100, 0, 0⟩
/-- CAN[c].STAT (12_can_fd.md). -/
def CAN_STAT (n : Nat) : Fld := ⟨0xE380A + n * 0x100, 31, 0⟩
def CAN_STAT_ERR (n : Nat) : Fld := ⟨0xE380A + n * 0x100, 31, 24⟩
def CAN_STAT_LDE (n : Nat) : Fld := ⟨0xE380A + n * 0x100, 7, 7⟩
def CAN_STAT_DENY (n : Nat) : Fld := ⟨0xE380A + n * 0x100, 6, 6⟩
def CAN_STAT_LOMF (n : Nat) : Fld := ⟨0xE380A + n * 0x100, 5, 5⟩
def CAN_STAT_EWARN (n : Nat) : Fld := ⟨0xE380A + n * 0x100, 4, 4⟩
def CAN_STAT_STATE (n : Nat) : Fld := ⟨0xE380A + n * 0x100, 2, 0⟩
/-- CAN[c].ECNT (12_can_fd.md). -/
def CAN_ECNT (n : Nat) : Fld := ⟨0xE380C + n * 0x100, 31, 0⟩
def CAN_ECNT_BOFF_CNT (n : Nat) : Fld := ⟨0xE380C + n * 0x100, 31, 24⟩
def CAN_ECNT_REC (n : Nat) : Fld := ⟨0xE380C + n * 0x100, 15, 8⟩
def CAN_ECNT_TEC (n : Nat) : Fld := ⟨0xE380C + n * 0x100, 7, 0⟩
/-- CAN[c].IMG (12_can_fd.md). -/
def CAN_IMG (n : Nat) : Fld := ⟨0xE380E + n * 0x100, 31, 0⟩
def CAN_IMG_PICK (n : Nat) : Fld := ⟨0xE380E + n * 0x100, 31, 16⟩
def CAN_IMG_QNUM (n : Nat) : Fld := ⟨0xE380E + n * 0x100, 13, 8⟩
def CAN_IMG_INUM (n : Nat) : Fld := ⟨0xE380E + n * 0x100, 4, 0⟩
/-- CAN[c].TAT_WIN (12_can_fd.md). -/
def CAN_TAT_WIN (n : Nat) : Fld := ⟨0xE3810 + n * 0x100, 31, 0⟩
def CAN_TAT_WIN_QOVR (n : Nat) : Fld := ⟨0xE3810 + n * 0x100, 31, 16⟩
def CAN_TAT_WIN_WIN (n : Nat) : Fld := ⟨0xE3810 + n * 0x100, 15, 0⟩
/-- CAN[c].MRA (12_can_fd.md). -/
def CAN_MRA (n : Nat) : Fld := ⟨0xE3812 + n * 0x100, 31, 0⟩
def CAN_MRA_ADDR (n : Nat) : Fld := ⟨0xE3812 + n * 0x100, 12, 0⟩
/-- CAN[c].MRW (12_can_fd.md). -/
def CAN_MRW (n : Nat) : Fld := ⟨0xE3814 + n * 0x100, 31, 0⟩
/-- CAN[c].MRR (12_can_fd.md). -/
def CAN_MRR (n : Nat) : Fld := ⟨0xE3816 + n * 0x100, 31, 0⟩
/-- CAN[c].TXREQ (12_can_fd.md). -/
def CAN_TXREQ (n : Nat) : Fld := ⟨0xE3818 + n * 0x100, 31, 0⟩
/-- CAN[c].TXCAN (12_can_fd.md). -/
def CAN_TXCAN (n : Nat) : Fld := ⟨0xE381A + n * 0x100, 31, 0⟩
/-- CAN[c].TXOK (12_can_fd.md). -/
def CAN_TXOK (n : Nat) : Fld := ⟨0xE381C + n * 0x100, 31, 0⟩
/-- CAN[c].TXFAIL (12_can_fd.md). -/
def CAN_TXFAIL (n : Nat) : Fld := ⟨0xE381E + n * 0x100, 31, 0⟩
/-- CAN[c].RXQS[q] (12_can_fd.md). -/
def CAN_RXQS (n k : Nat) : Fld := ⟨0xE3820 + n * 0x100 + k * 0x2, 31, 0⟩
def CAN_RXQS_COUNT (n k : Nat) : Fld := ⟨0xE3820 + n * 0x100 + k * 0x2, 22, 16⟩
def CAN_RXQS_GET (n k : Nat) : Fld := ⟨0xE3820 + n * 0x100 + k * 0x2, 13, 8⟩
def CAN_RXQS_PUT (n k : Nat) : Fld := ⟨0xE3820 + n * 0x100 + k * 0x2, 5, 0⟩
/-- CAN[c].RXQA[q] (12_can_fd.md). -/
def CAN_RXQA (n k : Nat) : Fld := ⟨0xE3824 + n * 0x100 + k * 0x2, 31, 0⟩
def CAN_RXQA_N (n k : Nat) : Fld := ⟨0xE3824 + n * 0x100 + k * 0x2, 6, 0⟩
/-- CAN[c].RXQ_DROP[q] (12_can_fd.md). -/
def CAN_RXQ_DROP (n k : Nat) : Fld := ⟨0xE3828 + n * 0x100 + k * 0x2, 31, 0⟩
/-- CAN[c].RXQ_WM (12_can_fd.md). -/
def CAN_RXQ_WM (n : Nat) : Fld := ⟨0xE382C + n * 0x100, 31, 0⟩
def CAN_RXQ_WM_WM_B (n : Nat) : Fld := ⟨0xE382C + n * 0x100, 22, 16⟩
def CAN_RXQ_WM_WM_A (n : Nat) : Fld := ⟨0xE382C + n * 0x100, 6, 0⟩
/-- FORCE_LO (06_scan.md). -/
def FORCE_LO (n : Nat) : Fld := ⟨0xE4000 + n * 0x4, 31, 0⟩
/-- FORCE_HI (06_scan.md). -/
def FORCE_HI (n : Nat) : Fld := ⟨0xE4002 + n * 0x4, 31, 0⟩
/-- RING_SCHED_LO (10_purok_ring.md). -/
def RING_SCHED_LO (n k : Nat) : Fld := ⟨0xE8000 + n * 0x1000 + k * 0x4, 31, 0⟩
def RING_SCHED_LO_EN (n k : Nat) : Fld := ⟨0xE8000 + n * 0x1000 + k * 0x4, 31, 31⟩
def RING_SCHED_LO_NODE (n k : Nat) : Fld := ⟨0xE8000 + n * 0x1000 + k * 0x4, 20, 16⟩
/-- RING_SCHED_HI (10_purok_ring.md). -/
def RING_SCHED_HI (n k : Nat) : Fld := ⟨0xE8002 + n * 0x1000 + k * 0x4, 31, 0⟩
def RING_SCHED_HI_OFS (n k : Nat) : Fld := ⟨0xE8002 + n * 0x1000 + k * 0x4, 18, 0⟩
/-- HIF_STAT (14_host_interface.md). -/
def HIF_STAT : Fld := ⟨0x1020000, 31, 0⟩
def HIF_STAT_DBERR : Fld := ⟨0x1020000, 18, 18⟩
def HIF_STAT_DENY : Fld := ⟨0x1020000, 17, 17⟩
def HIF_STAT_RDY : Fld := ⟨0x1020000, 16, 16⟩
def HIF_STAT_QERR : Fld := ⟨0x1020000, 15, 0⟩
/-- CMDQ[q].BASE_LO (14_host_interface.md). -/
def CMDQ_BASE_LO (n : Nat) : Fld := ⟨0x1020080 + n * 0x8, 31, 0⟩
/-- CMDQ[q].BASE_HI (14_host_interface.md). -/
def CMDQ_BASE_HI (n : Nat) : Fld := ⟨0x1020082 + n * 0x8, 31, 0⟩
/-- CMDQ[q].CFG (14_host_interface.md). -/
def CMDQ_CFG (n : Nat) : Fld := ⟨0x1020084 + n * 0x8, 31, 0⟩
def CMDQ_CFG_ENA (n : Nat) : Fld := ⟨0x1020084 + n * 0x8, 31, 31⟩
def CMDQ_CFG_DIS (n : Nat) : Fld := ⟨0x1020084 + n * 0x8, 30, 30⟩
def CMDQ_CFG_CPLQ (n : Nat) : Fld := ⟨0x1020084 + n * 0x8, 19, 16⟩
def CMDQ_CFG_SZ (n : Nat) : Fld := ⟨0x1020084 + n * 0x8, 3, 0⟩
/-- CMDQ[q].STAT (14_host_interface.md). -/
def CMDQ_STAT (n : Nat) : Fld := ⟨0x1020086 + n * 0x8, 31, 0⟩
def CMDQ_STAT_EN (n : Nat) : Fld := ⟨0x1020086 + n * 0x8, 31, 31⟩
def CMDQ_STAT_ERR (n : Nat) : Fld := ⟨0x1020086 + n * 0x8, 30, 30⟩
def CMDQ_STAT_ECODE (n : Nat) : Fld := ⟨0x1020086 + n * 0x8, 23, 16⟩
def CMDQ_STAT_HEAD (n : Nat) : Fld := ⟨0x1020086 + n * 0x8, 11, 0⟩
/-- CPLQ[q].BASE_LO (14_host_interface.md). -/
def CPLQ_BASE_LO (n : Nat) : Fld := ⟨0x1020100 + n * 0x8, 31, 0⟩
/-- CPLQ[q].BASE_HI (14_host_interface.md). -/
def CPLQ_BASE_HI (n : Nat) : Fld := ⟨0x1020102 + n * 0x8, 31, 0⟩
/-- CPLQ[q].CFG (14_host_interface.md). -/
def CPLQ_CFG (n : Nat) : Fld := ⟨0x1020104 + n * 0x8, 31, 0⟩
def CPLQ_CFG_ENA (n : Nat) : Fld := ⟨0x1020104 + n * 0x8, 31, 31⟩
def CPLQ_CFG_DIS (n : Nat) : Fld := ⟨0x1020104 + n * 0x8, 30, 30⟩
def CPLQ_CFG_IEN (n : Nat) : Fld := ⟨0x1020104 + n * 0x8, 15, 15⟩
def CPLQ_CFG_IV (n : Nat) : Fld := ⟨0x1020104 + n * 0x8, 12, 8⟩
def CPLQ_CFG_SZ (n : Nat) : Fld := ⟨0x1020104 + n * 0x8, 3, 0⟩
/-- CPLQ[q].STAT (14_host_interface.md). -/
def CPLQ_STAT (n : Nat) : Fld := ⟨0x1020106 + n * 0x8, 31, 0⟩
def CPLQ_STAT_EN (n : Nat) : Fld := ⟨0x1020106 + n * 0x8, 31, 31⟩
def CPLQ_STAT_P (n : Nat) : Fld := ⟨0x1020106 + n * 0x8, 16, 16⟩
def CPLQ_STAT_TAIL (n : Nat) : Fld := ⟨0x1020106 + n * 0x8, 11, 0⟩

end Sys2Proof.Machine.R
end

