-- ==== Sys2Proof/Machine/Store.lean ====
section
/-! DEFINITION. The operations on sparse tables (Store): lookup, erasing, insertion in key order, reading and writing with
a default, and the canonical form. -/

namespace Sys2Proof.Machine

/-- The value listed under `k`. -/
def Store.look {α : Type} (k : Nat) : Store α → Option α
  | [] => none
  | (j, v) :: rest => if j = k then some v else Store.look k rest

/-- Every entry but those under `k`. -/
def Store.erase {α : Type} (k : Nat) : Store α → Store α
  | [] => []
  | (j, v) :: rest => if j = k then Store.erase k rest else (j, v) :: Store.erase k rest

/-- Put `(k, v)` before the first entry with a larger key. -/
def Store.ins {α : Type} (k : Nat) (v : α) : Store α → Store α
  | [] => [(k, v)]
  | (j, w) :: rest => if k < j then (k, v) :: (j, w) :: rest else (j, w) :: Store.ins k v rest

/-- What `k` reads as: the listed value, else the default `z k`. -/
def Store.get {α : Type} (z : Nat → α) (s : Store α) (k : Nat) : α := (Store.look k s).getD (z k)

/-- Write `v` under `k`; a default value is not listed. -/
def Store.set {α : Type} [DecidableEq α] (z : Nat → α) (s : Store α) (k : Nat) (v : α) : Store α :=
  if v = z k then Store.erase k s else Store.ins k v (Store.erase k s)

/-- Keys strictly rising. -/
def Store.rising {α : Type} : Store α → Bool
  | [] => true
  | [_] => true
  | (j, _) :: (k, w) :: rest => decide (j < k) && Store.rising ((k, w) :: rest)

/-- The canonical form: keys strictly rising, no entry equal to its default. -/
def Store.wf {α : Type} [DecidableEq α] (z : Nat → α) (s : Store α) : Bool :=
  Store.rising s && s.all (fun e => decide (e.2 ≠ z e.1))

/-- The values under the keys `k` to `k + n - 1`. -/
def Store.getRange {α : Type} (z : Nat → α) (s : Store α) (k : Nat) : Nat → List α
  | 0 => []
  | n + 1 => Store.get z s k :: Store.getRange z s (k + 1) n

/-- Insert `k` into a rising list of numbers. -/
def insNat (k : Nat) : List Nat → List Nat
  | [] => [k]
  | j :: rest => if k < j then k :: j :: rest else if k = j then j :: rest else j :: insNat k rest

end Sys2Proof.Machine
end

