-- ==== Sys2Proof/Machine/Ops.lean ====
section
/-! DEFINITION. The named operations every block uses: reading and writing register fields, memory words with their check
bits, the cores, the latent state of axes, groups and rings, and the record of what the device emits. -/

namespace Sys2Proof.Machine

/-! ## Registers -/

/-- The register at even address `a`. -/
def Dev.rd (d : Dev) (a : Nat) : BitVec 32 := Store.get regReset d.regs a

/-- Write the whole register at even address `a`. -/
def Dev.wrReg (d : Dev) (a : Nat) (v : BitVec 32) : Dev := { d with regs := Store.set regReset d.regs a v }

/-- The width of a field. -/
def Fld.width (f : Fld) : Nat := f.hi + 1 - f.lo

/-- The field's bits inside a register value. -/
def Fld.of (f : Fld) (v : BitVec 32) : Nat := v.toNat / 2 ^ f.lo % 2 ^ f.width

/-- `v` with the field set to the low bits of `n`. -/
def Fld.ins (f : Fld) (v : BitVec 32) (n : Nat) : BitVec 32 :=
  BitVec.ofNat 32 (v.toNat % 2 ^ f.lo + n % 2 ^ f.width * 2 ^ f.lo + v.toNat / 2 ^ (f.hi + 1) * 2 ^ (f.hi + 1))

/-- The value of a field. -/
def Dev.get (d : Dev) (f : Fld) : Nat := f.of (d.rd f.addr)

/-- Set a field. -/
def Dev.put (d : Dev) (f : Fld) (n : Nat) : Dev := d.wrReg f.addr (f.ins (d.rd f.addr) n)

/-- A one-bit field as a Bool. -/
def Dev.flag (d : Dev) (f : Fld) : Bool := d.get f != 0

/-- Set a one-bit field. -/
def Dev.setF (d : Dev) (f : Fld) : Dev := d.put f 1

/-- Clear a field. -/
def Dev.clrF (d : Dev) (f : Fld) : Dev := d.put f 0

/-- Add 1 to a counter field that wraps. -/
def Dev.incr (d : Dev) (f : Fld) : Dev := d.put f (d.get f + 1)

/-- Add `n` to a counter field that saturates at its largest value. -/
def Dev.satAdd (d : Dev) (f : Fld) (n : Nat) : Dev := d.put f (satU f.width (d.get f + n))

/-- A whole register read as s32. -/
def Dev.getS (d : Dev) (f : Fld) : Int := sx f.width (d.get f)

/-- Set a field to the low bits of an integer. -/
def Dev.putS (d : Dev) (f : Fld) (i : Int) : Dev := d.put f (toU f.width i)

/-- A 64-bit value held in two registers, low dword first (R3). -/
def Dev.get64 (d : Dev) (lo hi : Fld) : Nat := d.get lo + 2 ^ 32 * d.get hi

/-! ## Memory -/

/-- The number of an array in memory keys. -/
def arrCode : Arr → Nat
  | .loc t => t.val
  | .bell b => 16 + b2n b
  | .iHalf h => 18 + b2n h
  | .qHalf h => 20 + b2n h
  | .mark => 22
  | .inst => 23
  | .live => 24
  | .win => 25
  | .prog b => 26 + b2n b
  | .mram => 28
  | .can c => 32 + c.val
  | .henBuf => 40
  | .muleTab => 41
  | .forceTab => 42
  | .sched x => 43 + x.val
  | .nvBuf => 47
  | .icache t => 48 + t.val

/-- The key of word `off` of array `a`. -/
def memKey (a : Arr) (off : Nat) : Nat := off * 64 + arrCode a

/-- The number of words of an array (Table 1.4; MRAM: R20). -/
def arrSize : Arr → Nat
  | .loc _ => 0x20000
  | .bell _ => 0x10000
  | .iHalf _ => 0x8000
  | .qHalf _ => 0x8000
  | .mark => 0x10000
  | .inst => 0x80000
  | .live => 0x10000
  | .win => 0x100000
  | .prog _ => 0x200000
  | .mram => 0x800000
  | .can _ => 0x2000
  | .henBuf => 0x8000
  | .muleTab => 0x10000
  | .forceTab => 0x4000
  | .sched _ => 0x1000
  | .nvBuf => 0x800
  | .icache _ => 0x1000

/-- What a memory word reads as when nothing has written it. The spec gives SRAM and MRAM no content at power-on:
DESIGN CHOICE 0, log entry 2. -/
def memZero (_ : Nat) : BitVec 16 := 0

/-- A memory word. -/
def Dev.mw (d : Dev) (a : Arr) (off : Nat) : BitVec 16 := Store.get memZero d.mem (memKey a off)

/-- `n` memory words from `off` upward. -/
def Dev.mws (d : Dev) (a : Arr) (off : Nat) : Nat → List (BitVec 16)
  | 0 => []
  | n + 1 => d.mw a off :: d.mws a (off + 1) n

/-- Two words as a dword, low word first (R3). -/
def Dev.md (d : Dev) (a : Arr) (off : Nat) : Nat := (d.mw a off).toNat + 65536 * (d.mw a (off + 1)).toNat

/-- Write a memory word, leaving check bits alone. -/
def Dev.setMw (d : Dev) (a : Arr) (off : Nat) (v : BitVec 16) : Dev :=
  { d with mem := Store.set memZero d.mem (memKey a off) v }

/-- Write the bits of `v` under `mask`. -/
def Dev.setMasked (d : Dev) (a : Arr) (off : Nat) (mask v : BitVec 16) : Dev :=
  d.setMw a off ((d.mw a off &&& ~~~mask) ||| (v &&& mask))

/-- Write words from `off` upward. -/
def Dev.setMws (d : Dev) (a : Arr) (off : Nat) : List (BitVec 16) → Dev
  | [] => d
  | w :: ws => (d.setMw a off w).setMws a (off + 1) ws

/-- Write `n` words of `v` from `off` upward. -/
def Dev.fillMw (d : Dev) (a : Arr) (off : Nat) (v : BitVec 16) (n : Nat) : Dev :=
  d.setMws a off (List.replicate n v)

/-- Forget every word of array `a`: all of them read as 0. -/
def Dev.clearArr (d : Dev) (a : Arr) : Dev :=
  { d with
    mem := d.mem.filter (fun e => e.1 % 64 != arrCode a)
    ecc := d.ecc.filter (fun e => e.1 % 64 != arrCode a) }

/-- Make array `dst` word for word equal to array `src`. -/
def Dev.copyArr (d : Dev) (dst src : Arr) : Dev :=
  let d1 := d.clearArr dst
  (d.mem.filter (fun e => e.1 % 64 == arrCode src)).reverse.foldl
    (fun d e => d.setMw dst (e.1 / 64) e.2) d1

/-- The granule (4 aligned words, R19) of a word, as a key of `ecc`. -/
def granKey (a : Arr) (off : Nat) : Nat := memKey a (off / 4)

/-- The check bits of the granule of a word. -/
def Dev.eccAt (d : Dev) (a : Arr) (off : Nat) : Ecc := Store.get (fun _ => Ecc.ok) d.ecc (granKey a off)

/-- Set the check bits of the granule of a word. -/
def Dev.setEcc (d : Dev) (a : Arr) (off : Nat) (e : Ecc) : Dev :=
  { d with ecc := Store.set (fun _ => Ecc.ok) d.ecc (granKey a off) e }

/-- The canonical form of memory: words and check bits listed in rising key order, none equal to what an unlisted one
reads as. -/
def Memory.wf (d : Dev) : Bool := Store.wf memZero d.mem && Store.wf (fun _ => Ecc.ok) d.ecc

/-! ## Cores -/

/-- A core. -/
def Dev.core (d : Dev) (c : CoreId) : CoreSt := d.cores[c]

/-- Replace a core. -/
def Dev.setCore (d : Dev) (c : CoreId) (s : CoreSt) : Dev := { d with cores := d.cores.set c s }

/-- Change a core. -/
def Dev.updCore (d : Dev) (c : CoreId) (f : CoreSt → CoreSt) : Dev := d.setCore c (f (d.core c))

/-- Change every Ox tile. -/
def Dev.updTiles (d : Dev) (f : Fin 16 → CoreSt → CoreSt) : Dev :=
  (List.finRange 16).foldl (fun d t => d.updCore (t.castSucc) (f t)) d

/-- Tile `t` as a core. -/
def tileCore (t : Fin 16) : CoreId := t.castSucc

/-- The active register set. -/
def CoreSt.act (s : CoreSt) : RegSet := if s.inSet1 then s.s1 else s.s0

/-- Replace the active register set. -/
def CoreSt.setAct (s : CoreSt) (r : RegSet) : CoreSt := if s.inSet1 then { s with s1 := r } else { s with s0 := r }

/-- The unit address bits of a core: herd, then member (R15). -/
def coreUnit (c : CoreId) : Nat := if c.val < 16 then c.val / 4 * 16 + c.val % 4 else 0xF0

/-! ## Axes, groups, rings -/

def Dev.axis (d : Dev) (n : Nat) : AxisSt := Store.get (fun _ => default) d.axes n
def Dev.updAxis (d : Dev) (n : Nat) (f : AxisSt → AxisSt) : Dev :=
  { d with axes := Store.set (fun _ => default) d.axes n (f (d.axis n)) }
def Dev.grp (d : Dev) (g : Nat) : GroupSt := Store.get (fun _ => default) d.groups g
def Dev.updGrp (d : Dev) (g : Nat) (f : GroupSt → GroupSt) : Dev :=
  { d with groups := Store.set (fun _ => default) d.groups g (f (d.grp g)) }
def Dev.ring (d : Dev) (x : Nat) : RingSt := Store.get (fun _ => default) d.rings x
def Dev.updRing (d : Dev) (x : Nat) (f : RingSt → RingSt) : Dev :=
  { d with rings := Store.set (fun _ => default) d.rings x (f (d.ring x)) }
def Dev.updScan (d : Dev) (f : ScanSt → ScanSt) : Dev := { d with scan := f d.scan }
def Dev.updTm (d : Dev) (f : TimeSt → TimeSt) : Dev := { d with tm := f d.tm }

/-- Emit something at a port. -/
def Dev.emit (d : Dev) (o : Out) : Dev := { d with out := o :: d.out }

/-- Emit several things in order. -/
def Dev.emits (d : Dev) (os : List Out) : Dev := { d with out := os.reverse ++ d.out }

/-- The state with its device changed, as the outcome of a command. Nothing happens in a device held in reset (R501,
R389, R524). -/
def State.onDev (s : State) (f : Dev → Dev) : Host.Outcome State Fault Refusal :=
  .next (if s.dev.sys.held then s else { s with dev := f s.dev })

/-- The same for what acts in reset too: the pins, the backup domain, the field supply, the PCIe link. -/
def State.onAny (s : State) (f : Dev → Dev) : Host.Outcome State Fault Refusal := .next { s with dev := f s.dev }

/-- The state with its fuses and its device changed. -/
def State.onAll (s : State) (f : State → State) : Host.Outcome State Fault Refusal :=
  .next (if s.dev.sys.held then s else f s)

/-- Apply `f` to the numbers 0 to `n - 1` in order. -/
def upTo (n : Nat) (f : Nat → Dev → Dev) (d : Dev) : Dev := (List.range n).foldl (fun d i => f i d) d

/-- Apply `f` when `b` holds. -/
def Dev.when (d : Dev) (b : Bool) (f : Dev → Dev) : Dev := if b then f d else d

end Sys2Proof.Machine
end

