-- ==== Sys2Proof/Machine/Events.lean ====
section
/-! DEFINITION. Raising an event (17_time_events_goose.md, R415 to R419): the flags and the timestamp, the wake latches
and pending flags of the tiles, the release of cycle tasks (R167, R169), the host's pending bit and vector, the Hen's
waiting occurrences (R427 to R429) and the triggers of the wear rings (R463). -/

namespace Sys2Proof.Machine

/-! ## MSI-X (R357) -/

/-- A dword of the MSI-X table after reset: every vector is masked, as the PCIe specification has it. -/
def msixZero (i : Nat) : BitVec 32 := if i % 4 = 3 then 1 else 0

/-- The function is in D3hot (Table 14.1), as PMCSR, configuration dword 17, says. As the PCIe specification has it, a memory
request is then an Unsupported Request, and the function sends no memory request of its own. -/
def Dev.d3hot (d : Dev) : Bool := (Store.get (fun _ => 0#32) d.hif.cfg 17).toNat % 4 == 3

/-- Vector `v` is masked by the Function Mask, by its own mask bit, or by D3hot. -/
def Dev.msixMasked (d : Dev) (v : Nat) : Bool :=
  d.hif.fmask || d.d3hot || tst (Store.get msixZero d.hif.tbl (4 * v + 3)).toNat 0

/-- Send MSI-X vector `v`, or set its pending bit while it is masked. -/
def Dev.sendMsix (v : Nat) (d : Dev) : Dev :=
  if d.hif.link && d.hif.msixEn then
    if d.msixMasked v then { d with hif := { d.hif with pba := BitVec.ofNat 32 (setBit d.hif.pba.toNat v) } }
    else d.emit (.msix v)
  else d

/-! ## The Hen's occurrences -/

/-- The trigger class of a source (R427). -/
def Dev.henClass (d : Dev) (s : Nat) : Nat := d.get ⟨(R.HEN_MAP (s / 8)).addr, 4 * (s % 8) + 3, 4 * (s % 8)⟩

/-- Insert a waiting occurrence in the order of R415: timestamp, then source number. -/
def insOcc (e : HenOcc) : List HenOcc → List HenOcc
  | [] => [e]
  | p :: rest =>
    if e.ts.toNat < p.ts.toNat || (e.ts == p.ts && e.src < p.src) then e :: p :: rest else p :: insOcc e rest

/-- An occurrence as the Hen takes it (R427, R428, R429). `special`: one of the three occurrences that R427 records
always. -/
def Dev.henOccur (s : Nat) (ts : BitVec 64) (special : Bool) (d : Dev) : Dev :=
  if special || (d.flag R.HEN_CFG_EN && tst (d.get (R.HEN_SEN (s / 32))) (s % 32)) then
    let c := d.henClass s
    let hold := d.get (R.HEN_CLS_HOLD c)
    let last := Store.get (fun _ => 0) d.hen.lastTs c
    if !special && hold != 0 && last != 0 && ts.toNat < last - 1 + hold * 1000 then d.satAdd R.HEN_SUPP 1
    else if 64 ≤ d.hen.occ.length then
      { (d.satAdd R.HEN_STAT_LOST_CNT 1) with hen := { d.hen with lost := d.hen.lost + 1 } }
    else
      { d with hen := { d.hen with
          occ := insOcc { src := s, ts := ts, special := special } d.hen.occ
          lastTs := Store.set (fun _ => 0) d.hen.lastTs c (ts.toNat + 1) } }
  else d

/-! ## Tiles -/

/-- Insert a pending event in the order of R124: timestamp, then source number. -/
def insPend (e : PendEv) : List PendEv → List PendEv
  | [] => [e]
  | p :: rest =>
    if e.ts.toNat < p.ts.toNat || (e.ts == p.ts && e.src < p.src) then e :: p :: rest else p :: insPend e rest

/-- The event waits to enter a core: once per source (R124). -/
def CoreSt.addPend (e : PendEv) (c : CoreSt) : CoreSt :=
  if c.pend.any (fun p => p.src == e.src) then c else { c with pend := insPend e c.pend }

/-- The cycle task whose enabled binding routes source `s` to tile `t` (R167). -/
def Dev.boundTask (d : Dev) (s t : Nat) : Option Nat :=
  (List.range 8).find? (fun k =>
    d.flag (R.CTASK_EN k) && s == 16 + 8 * d.get (R.CTASK_RING k) + d.get (R.CTASK_POINT k)
      && d.get (R.CTASK_TILE k) == t)

/-- The routing of EV_ROUTE and EV_VEC (R417). -/
def Dev.routeTile (s : Nat) (ts : BitVec 64) (t : Fin 16) (d : Dev) : Dev :=
  if tst (d.get (R.EV_ROUTE_TILES s)) t.val then
    d.updCore (tileCore t) (fun c =>
      let c := { c with wake := true }
      if d.flag (R.EV_ROUTE_PRE s) then
        c.addPend { src := s, ts := ts, pc := BitVec.ofNat 21 (d.get (R.EV_VEC_PC s)), task := none }
      else c)
  else d

/-- The flags, the timestamp, the host, the Bellwether, the Hen and the wear rings. -/
def Dev.raiseBase (s : Nat) (ts : BitVec 64) (special : Bool) (d : Dev) : Dev :=
  let d := d.put ⟨(R.EV_RAISED (s / 32)).addr, s % 32, s % 32⟩ 1
  let d := d.put (R.EV_TSL s) ts.toNat
  let d := d.updCore 16 (fun c => { c with wake := true })
  let d :=
    if d.flag (R.EV_ROUTE_HOST s) && !tst (d.get (R.EV_HPEND (s / 32))) (s % 32) then
      (d.put ⟨(R.EV_HPEND (s / 32)).addr, s % 32, s % 32⟩ 1).sendMsix (d.get (R.EV_ROUTE_HVEC s))
    else d
  let d := d.henOccur s ts (special || s == 0 || s == 2)
  upTo 16 (fun k d =>
    if d.flag (R.WRING_CFG_EN k) && d.get (R.WRING_CFG_TRIG k) == s && !d.nv.closed then
      { d with nv := { d.nv with
          wr := Store.set (fun _ => default) d.nv.wr k
            { Store.get (fun _ => default) d.nv.wr k with
                trigs := (Store.get (fun _ => default) d.nv.wr k).trigs + 1 } } }
    else d) d

/-- An occurrence that reaches the tiles by EV_ROUTE alone. A device held in reset raises no event. -/
def Dev.raiseRouted (s : Nat) (ts : BitVec 64) (special : Bool) (d : Dev) : Dev :=
  if d.sys.held then d else (List.finRange 16).foldl (fun d t => d.routeTile s ts t) (d.raiseBase s ts special)

/-- A release of cycle task `k` is pending or running on some tile: on the one now bound, or on one it was bound to. -/
def Dev.taskBusy (d : Dev) (k : Nat) : Bool :=
  (List.finRange 16).any (fun t =>
    let c := d.core (tileCore t)
    c.curTask == some k || c.pend.any (fun p => p.task == some k))

/-- A release of cycle task `k` on tile `t` (R169). -/
def Dev.releaseTask (k s : Nat) (ts : BitVec 64) (t : Fin 16) (d : Dev) : Dev :=
  let busy := d.taskBusy k
  let d := d.updCore (tileCore t) (fun c => { c with wake := true })
  if d.sys.fatal then d
  else if busy then
    let d := d.put (R.CTASK_STAT_OVR) (setBit (d.get R.CTASK_STAT_OVR) k)
    let d := d.satAdd R.CTASK_STAT_OVR_CNT 1
    d.raiseRouted 4 d.time false
  else
    d.updCore (tileCore t) (CoreSt.addPend
      { src := s, ts := ts, pc := BitVec.ofNat 21 (d.get (R.CTASK_PC k)), task := some k })

/-- An occurrence reaches a tile: through its cycle task when one is bound, else through EV_ROUTE. -/
def Dev.reachTile (s : Nat) (ts : BitVec 64) (t : Fin 16) (d : Dev) : Dev :=
  match d.boundTask s t.val with
  | some k => d.releaseTask k s ts t
  | none => d.routeTile s ts t

/-- An occurrence of source `s` with timestamp `ts` (R416). -/
def Dev.raiseAt (s : Nat) (ts : BitVec 64) (d : Dev) : Dev :=
  if d.sys.held then d else (List.finRange 16).foldl (fun d t => d.reachTile s ts t) (d.raiseBase s ts false)

/-- An occurrence detected now (R411). -/
def Dev.raise (s : Nat) (d : Dev) : Dev := d.raiseRouted s d.time false

end Sys2Proof.Machine
end

