-- ==== Sys2Proof/Machine/Mram.lean ====
section
/-! DEFINITION. MRAM below every requester (19_nonvolatile.md): the areas and their encryption (R446, R447, R492), the
posted write buffer (R448, R449), the page table and the verified pages (R452, R455). -/

namespace Sys2Proof.Machine

/-! ## Keys (R491) -/

/-- The low `n` bytes of a number, least significant first. -/
def bytesLE : Nat → Nat → List (BitVec 8)
  | 0, _ => []
  | n + 1, v => BitVec.ofNat 8 v :: bytesLE n (v / 256)

/-- The low `n` bytes of a number, most significant first. -/
def bytesBE (n v : Nat) : List (BitVec 8) := (bytesLE n v).reverse

/-- The bytes of a list of words, low byte first. -/
def wordBytes (ws : List (BitVec 16)) : List (BitVec 8) := ws.flatMap (fun w => bytesLE 2 w.toNat)

/-- The ASCII bytes of a label. -/
def labelBytes (s : String) : List (BitVec 8) := s.toList.map (fun c => BitVec.ofNat 8 c.toNat)

/-- The counter-mode derivation of R491. -/
def kdf (kin : BitVec 256) (label : String) (ctx : List (BitVec 8)) : BitVec 256 :=
  Config.hmacSha256 (bytesBE 32 kin.toNat) (bytesBE 4 1 ++ labelBytes label ++ [0] ++ ctx ++ bytesBE 4 256)

/-- The value of a key input; none when it is absent (R493). -/
def KeyIn.value : KeyIn → Option (BitVec 256)
  | .absent => none
  | .test => some Config.testRoot
  | .val v => some v

/-- The 8 bytes of the UID, UID_LO first (Table 21.4). -/
def Dev.uidBytes (d : Dev) : List (BitVec 8) := bytesLE 4 (d.get R.UID_LO) ++ bytesLE 4 (d.get R.UID_HI)

/-- The NV key (Table 21.4). -/
def Dev.nvKey (d : Dev) : Option (BitVec 256) := d.key.root.value.map (fun k => kdf k "T9648 NV" d.uidBytes)

/-! ## Areas -/

/-- The areas that R447 encrypts: the program store, the retain area, the NV parameter area, the device records. -/
def nvEncrypted (off : Nat) : Bool :=
  off < 0x500000 || (0x600000 ≤ off && off < 0x680000) || (0x700000 ≤ off && off < 0x700400)

/-- The word of the key stream for an MRAM offset (R492). -/
def nvStream (key : BitVec 256) (off : Nat) : BitVec 16 :=
  BitVec.ofNat 16 ((Config.aes256 key (BitVec.ofNat 128 (off / 8 * 8))).toNat / 2 ^ (16 * (off % 8)))

/-- Between the array's content and the data of an MRAM word: in clear, or under the key in force (R493). -/
def Dev.nvCode (d : Dev) (off : Nat) (w : BitVec 16) : BitVec 16 :=
  if nvEncrypted off then
    match d.nvKey with
    | some k => w ^^^ nvStream k off
    | none => w
  else w

/-- A word of the array as data. -/
def Dev.nvArr (d : Dev) (off : Nat) : BitVec 16 := d.nvCode off (d.mw .mram off)

/-- Write a word of the array. -/
def Dev.setNvArr (d : Dev) (off : Nat) (v : BitVec 16) : Dev := d.setMw .mram off (d.nvCode off v)

/-- Write words of the array from `off` upward. -/
def Dev.setNvArrs (d : Dev) (off : Nat) : List (BitVec 16) → Dev
  | [] => d
  | w :: ws => (d.setNvArr off w).setNvArrs (off + 1) ws

/-! ## The posted write buffer -/

/-- The bits of word `i` of a granule. -/
def granWord (g : BitVec 64) (i : Nat) : BitVec 16 := BitVec.ofNat 16 (g.toNat / 2 ^ (16 * (i % 4)))

/-- A word placed as word `i` of a granule. -/
def wordGran (w : BitVec 16) (i : Nat) : BitVec 64 := BitVec.ofNat 64 (w.toNat * 2 ^ (16 * (i % 4)))

/-- The entry that holds a granule. -/
def Dev.nvEntry (d : Dev) (gran : Nat) : Option NvEnt := d.nv.buf.find? (fun e => e.gran == gran)

/-- An MRAM word as every reader sees it: the buffer's data where an entry covers it (R449). -/
def Dev.nvWord (d : Dev) (off : Nat) : BitVec 16 :=
  match d.nvEntry (off / 4) with
  | some e =>
    (d.nvArr off &&& ~~~(granWord e.mask off)) ||| (granWord e.val off &&& granWord e.mask off)
  | none => d.nvArr off

/-- `n` MRAM words from `off` upward. -/
def Dev.nvWords (d : Dev) (off : Nat) : Nat → List (BitVec 16)
  | 0 => []
  | n + 1 => d.nvWord off :: d.nvWords (off + 1) n

/-- An entry of the buffer can take a write to this granule: one holds it, or one is free (R448). -/
def Dev.nvRoom (d : Dev) (gran : Nat) : Bool := (d.nvEntry gran).isSome || d.nv.buf.length < 512

/-- Merge bits into the entry of a granule, or make an entry for it (R448). -/
def Dev.nvPost (gran : Nat) (mask val : BitVec 64) (d : Dev) : Dev :=
  let buf :=
    if (d.nvEntry gran).isSome then
      d.nv.buf.map (fun e =>
        if e.gran == gran then
          { e with mask := e.mask ||| mask, val := (e.val &&& ~~~mask) ||| (val &&& mask) }
        else e)
    else d.nv.buf ++ [{ gran := gran, mask := mask, val := val &&& mask }]
  { d with nv := { d.nv with buf := buf } }

/-- Post the bits of one word under a mask. After a power fail closed the buffer, the word is discarded and counted
(R465). -/
def Dev.nvPostWord (off : Nat) (mask v : BitVec 16) (d : Dev) : Dev :=
  if d.nv.closed then d.satAdd R.NV_PF_PF_DISC 1
  else d.nvPost (off / 4) (wordGran mask off) (wordGran v off)

/-! ## The page table (R452, R455) -/

/-- The page of an offset (R446). -/
def nvPage (off : Nat) : Nat := off / 128

/-- The offset and the low bit of a page's count: four pages to a word, lowest page in the low bits. The spec gives 4
bits per page and not their order: DESIGN CHOICE, log entry 10. -/
def pageSlot (page : Nat) : Nat × Nat := (0x700400 + page / 4, 4 * (page % 4))

/-- The corrections counted for a page; an uncorrectable granule of the table counts as verified (R456). -/
def Dev.pageCount (d : Dev) (page : Nat) : Nat :=
  (d.mw .mram (pageSlot page).1).toNat / 2 ^ (pageSlot page).2 % 16

/-- A page is verified by a range or by its count (R452). -/
def Dev.pageVerified (d : Dev) (page : Nat) : Bool :=
  (List.range 8).any (fun k => d.get (R.NV_VRANGE_FIRST k) ≤ page && page ≤ d.get (R.NV_VRANGE_LAST k))
    || (d.get R.NV_CFG_VTHR != 0 && d.get R.NV_CFG_VTHR ≤ d.pageCount page)
    || d.eccAt .mram (pageSlot page).1 == .unc

/-- A correction counted for the page of an offset; at VTHR the page becomes verified (R455). -/
def Dev.countCorrection (off : Nat) (d : Dev) : Dev :=
  let p := nvPage off
  let n := satU 4 (d.pageCount p + 1)
  let sh := 2 ^ (pageSlot p).2
  let w := (d.mw .mram (pageSlot p).1).toNat
  let d' := d.setMw .mram (pageSlot p).1 (BitVec.ofNat 16 (w % sh + n * sh + w / (sh * 16) * (sh * 16)))
  if d.get R.NV_CFG_VTHR != 0 && d.pageCount p < d.get R.NV_CFG_VTHR && d.get R.NV_CFG_VTHR ≤ n then
    (d'.satAdd R.NV_ECNT_VPAGES 1).raise 11
  else d'

/-- A read corrected this granule: it is written back through the buffer, and its page counts (R455). A write-back that
finds no entry free, or the buffer closed, does not take place. -/
def Dev.nvCorrected (off : Nat) (d : Dev) : Dev :=
  let g := off / 4
  let d := if d.nvRoom g && !d.nv.closed && (d.nvEntry g).isNone then
      d.nvPost g (BitVec.allOnes 64)
        (wordGran (d.nvArr (4 * g)) 0 ||| wordGran (d.nvArr (4 * g + 1)) 1 ||| wordGran (d.nvArr (4 * g + 2)) 2
          ||| wordGran (d.nvArr (4 * g + 3)) 3)
    else d
  d.countCorrection off

end Sys2Proof.Machine
end

