-- ==== Sys2Proof/Machine/MachineCheck.lean ====
section
/-! DEFINITION. Errors, machine checks and stopped tiles: the check bits of a granule under a read and a store (R22,
R24), the log (R30), the two classes (R25, R26), the fatal sequence (R29), and the stops of R84 and R135. -/

namespace Sys2Proof.Machine

/-! ## Where a check is logged -/

/-- MC_ADDR.ADDR of the granule of word `off`: a W address for an array in the W space, else the offset inside the array
(R30). A tile's own local data has the W address at which the requester reaches it. -/
def Dev.mcAddr (d : Dev) (unit : Nat) (a : Arr) (off : Nat) : Nat :=
  let o := off / 4 * 4
  match a with
  | .loc t => if unit = coreUnit (tileCore t) then o else 0x300000 + t.val * 0x20000 + o
  | .bell b => if b == d.sys.bellBank then o else 0x10000 + o
  | .iHalf _ => 0x20000 + o
  | .qHalf _ => 0x28000 + o
  | .mark => 0x30000 + o
  | .inst => 0x40000 + o
  | .live => 0xC0000 + o
  | .win => 0x200000 + o
  | .mram => if 0x400000 ≤ o && o < 0x500000 then o - 0x400000 + 0x100000 else o
  | .muleTab => 0xD0000 + o
  | .forceTab => 0xE4000 + o
  | .sched x => 0xE8000 + x.val * 0x1000 + o
  | .prog _ | .can _ | .henBuf | .nvBuf | .icache _ => o

/-- An uncorrectable granule of the array is fatal (Table 1.4, Table 1.5). -/
def Dev.arrFatal (d : Dev) (a : Arr) : Bool :=
  match a with
  | .prog b => b2n b == d.get R.PROG_STAT_ACTIVE
  | .bell _ | .muleTab | .sched _ | .nvBuf => true
  | _ => false

/-- KIND of an uncorrectable granule (MC_STATUS.KIND). -/
def arrKind : Arr → Nat
  | .mram => 2
  | _ => 1

/-- A log is held: RECOV or FATAL is 1 (R30), or KIND and MC_ADDR name the fatal check whose reset has not come yet, so
that a later check sets MULTI (log entry 69). -/
def Dev.mcHeld (d : Dev) : Bool := d.flag R.MC_STATUS_RECOV || d.flag R.MC_STATUS_FATAL || d.sys.fatalLog

/-- Log KIND and MC_ADDR, or set MULTI when a log is held (R30). -/
def Dev.mcLog (kind unit addr : Nat) (d : Dev) : Dev :=
  if d.mcHeld then d.setF R.MC_STATUS_MULTI
  else
    let d := d.put R.MC_STATUS_KIND kind
    let d := d.put R.MC_ADDR_HERD (unit / 16)
    let d := d.put R.MC_ADDR_MEMBER (unit % 16)
    d.put R.MC_ADDR_ADDR addr

/-! ## The fatal sequence -/

/-- NOTICE to the pair partner (R400): sent by a pair member while the pair link is up. -/
def Dev.pairNotice (d : Dev) : Dev :=
  if d.get R.PAIR_STAT_ROLE != 0 && (d.flag R.PAIR_STAT_LANE0 || d.flag R.PAIR_STAT_LANE1) then d.emit (.pair 0x21 []) else d

/-- Every field output switches off. -/
def Dev.fioAllOff (d : Dev) : Dev := { d with fio := { d.fio with on := 0, limit := [] } }

/-- The first 1 µs of Table 1.6: tiles and Mule stop issuing, the outputs are commanded off, CAN TXD goes recessive, the
pair partner is told; the sequence ends with the internal reset that INTERNAL_RESET performs. -/
def Dev.fatalStart (d : Dev) : Dev :=
  { d with sys := { d.sys with fatal := true, due := d.sys.due ++ [Cause.machineCheck], outsOff := true } }.fioAllOff.pairNotice

/-- A fatal machine check that is no escalation (R29). -/
def Dev.fatalMc (kind unit addr : Nat) (d : Dev) : Dev :=
  let held := d.mcHeld
  let d := d.mcLog kind unit addr
  let d := { d with sys := { d.sys with fatalLog := d.sys.fatalLog || !held } }
  let first := !d.sys.fatal
  let d := d.raiseRouted 1 d.time first
  if first then d.fatalStart else d

/-- The escalation of R27: ESC with FATAL, and nothing logged. -/
def Dev.escalate (d : Dev) : Dev :=
  let first := !d.sys.fatal
  let d := { d with sys := { d.sys with fatalEsc := true } }
  let d := d.raiseRouted 1 d.time first
  if first then d.fatalStart else d

/-- A recoverable machine check is logged and raises event 1 (R25). -/
def Dev.recovMc (kind unit addr : Nat) (d : Dev) : Dev :=
  let held := d.mcHeld
  let d := d.mcLog kind unit addr
  let d := if held then d else d.setF R.MC_STATUS_RECOV
  d.raise 1

/-! ## Stopped tiles -/

/-- The scan is between the start of SNAP and the end of BARRIER (R26). INIT is none of the times that R26 lists: DESIGN
CHOICE, a check in INIT belongs to the next scan (log entry 61). -/
def Dev.inScan (d : Dev) : Bool := 2 ≤ d.get R.SCAN_STAT_STATE && d.get R.SCAN_STAT_STATE ≤ 4

/-- A tile reports scan end (R156). -/
def Dev.reportEnd (t : Fin 16) (d : Dev) : Dev := d.updScan (fun s => { s with reported := setBit s.reported t.val })

/-- A tile that has not reported scan end in EXEC reports it now. -/
def Dev.reportIfRunning (t : Fin 16) (d : Dev) : Dev :=
  if d.get R.SCAN_STAT_STATE == 3 then d.reportEnd t else d

/-- The commit of the scan a stop belongs to is skipped (R26, R84, R164). -/
def Dev.markSkip (d : Dev) : Dev :=
  if d.inScan then d.updScan (fun s => { s with skipNow := true })
  else d.updScan (fun s => { s with skipNext := true })

/-- The scan a machine check belongs to counts for R27. -/
def Dev.markMc (d : Dev) : Dev :=
  if d.inScan then d.updScan (fun s => { s with mcNow := true })
  else d.updScan (fun s => { s with mcNext := true })

/-- No Ox tile has set 1 active. -/
def Dev.noSet1 (d : Dev) : Bool := (List.finRange 16).all (fun t => !(d.core (tileCore t)).inSet1)

/-- Step 1 of a swap ends once no tile has set 1 active, no host snapshot read is pending and the change marker has been
sent; step 2 follows (R188, R195). -/
def Dev.swapEnter (d : Dev) : Dev :=
  if d.prog.swapWait && !d.prog.markDue && d.noSet1 && !(d.hif.snapPend && d.get R.SCAN_STAT_STATE == 6) then
    { (d.put R.PROG_STAT_STATE 5) with prog := { d.prog with swapWait := false, swapAt := d.time } }
  else d

/-- A stop under R84. The Bellwether, which reports no scan end, only stops issuing. -/
def Dev.stopCore (c : CoreId) (d : Dev) : Dev :=
  let d := d.updCore c (fun s => { s with inSet1 := false, run0 := .stopped, wait := .none, curTask := none })
  if h : c.val < 16 then (((d.reportIfRunning ⟨c.val, h⟩).markSkip).raise 10).swapEnter
  else d

/-- The stop of a tile by a recoverable machine check (R135). -/
def Dev.mcTile (t : Fin 16) (d : Dev) : Dev :=
  let d := d.updCore (tileCore t) (fun s =>
    { s with s0 := RegSet.zero, s1 := RegSet.zero, inSet1 := false, run0 := .stopped, strandSince := false,
             latch := .empty, wait := .none, loads := [], pend := [], curTask := none, t4Preload := false, trip := none })
  (d.reportIfRunning t).markSkip.markMc.swapEnter

/-- KIND of a mismatch that names no granule (MC_STATUS.KIND). -/
def Trip.kind : Trip → Nat
  | .residue | .compare => 3
  | .mac => 4
  | .parity => 7

/-- A core finds a mismatch (R21, Table 1.5): recoverable in an Ox tile, fatal in the Bellwether. That a detector has
found one is state that no command sets (DESIGN CHOICE, log entry 73). -/
def Dev.coreTrip (c : CoreId) (k : Trip) (d : Dev) : Dev :=
  let d := d.updCore c (fun s => { s with trip := none })
  if h : c.val < 16 then (d.recovMc k.kind (coreUnit c) 0).mcTile ⟨c.val, h⟩ else d.fatalMc k.kind (coreUnit c) 0

/-- A core takes a machine check on a granule (R25, R26, R135). A recoverable check on the Bellwether is logged; the
spec gives its tile mechanics to the tiles alone. -/
def Dev.coreMc (c : CoreId) (a : Arr) (off : Nat) (d : Dev) : Dev :=
  let u := coreUnit c
  if d.arrFatal a then d.fatalMc (arrKind a) u (d.mcAddr u a off)
  else
    let d := d.recovMc (arrKind a) u (d.mcAddr u a off)
    if h : c.val < 16 then d.mcTile ⟨c.val, h⟩ else d

/-- Any other requester takes a machine check on a granule: no scan is affected (R26). -/
def Dev.unitMc (unit : Nat) (a : Arr) (off : Nat) (d : Dev) : Dev :=
  if d.arrFatal a then d.fatalMc (arrKind a) unit (d.mcAddr unit a off)
  else d.recovMc (arrKind a) unit (d.mcAddr unit a off)

/-- The granules at which one access met an uncorrectable error, as R28 orders their checks: the fatal ones first. -/
def Dev.mcOrder (d : Dev) (gs : List (Arr × Nat)) : List (Arr × Nat) :=
  gs.filter (fun g => d.arrFatal g.1) ++ gs.filter (fun g => !d.arrFatal g.1)

/-- A core's access takes the machine check of each granule it met (R28). -/
def Dev.coreMcs (c : CoreId) (gs : List (Arr × Nat)) (d : Dev) : Dev :=
  (d.mcOrder gs).foldl (fun d g => d.coreMc c g.1 (g.2 * 4)) d

/-- Another requester's access takes the machine check of each granule it met. -/
def Dev.unitMcs (unit : Nat) (gs : List (Arr × Nat)) (d : Dev) : Dev :=
  (d.mcOrder gs).foldl (fun d g => d.unitMc unit g.1 (g.2 * 4)) d

/-! ## Granules under reads and stores -/

/-- A read corrected the granule of a word (R22); an MRAM granule is written back through the buffer (R455). -/
def Dev.corrected (a : Arr) (off : Nat) (d : Dev) : Dev :=
  let d := d.satAdd R.MC_STATUS_CE_COUNT 1
  match a with
  | .mram => d.nvCorrected off
  | _ => d.setEcc a off .ok

/-- A read of the granule of a word: `none` when it is uncorrectable. -/
def Dev.readGran (a : Arr) (off : Nat) (d : Dev) : Option Dev :=
  match d.eccAt a off with
  | .ok => some d
  | .corr => some (d.corrected a off)
  | .unc => none

/-- The worse of two errors of a granule. -/
def Ecc.worse : Ecc → Ecc → Ecc
  | .unc, _ | _, .unc => .unc
  | .corr, _ | _, .corr => .corr
  | .ok, .ok => .ok

/-- Reads of whole granules: those that are uncorrectable, and the device with the others corrected. -/
def Dev.readGrans : List (Arr × Nat) → Dev → List (Arr × Nat) × Dev
  | [], d => ([], d)
  | g :: rest, d =>
    match d.readGran g.1 (g.2 * 4) with
    | some d => d.readGrans rest
    | none =>
      let (bad, d) := d.readGrans rest
      (g :: bad, d)

/-- The errors that granules `lo` up to `hi` of an array hold. -/
def Dev.arrErrors (d : Dev) (a : Arr) (lo hi : Nat) : List (Nat × Ecc) :=
  d.ecc.filterMap (fun e =>
    if e.1 % 64 == arrCode a && lo ≤ e.1 / 64 && e.1 / 64 < hi then some (e.1 / 64, e.2) else none)

/-- A unit reads granules that hold an error: a correctable one is corrected, an uncorrectable one is a machine check. -/
def Dev.readErrors (unit : Nat) (a : Arr) (es : List (Nat × Ecc)) (d : Dev) : Dev :=
  es.foldl (fun d e =>
    match e.2 with
    | .ok => d
    | .corr => d.corrected a (4 * e.1)
    | .unc => d.unitMc unit a (4 * e.1)) d

/-- A unit reads granules `lo` up to `hi` of an array. -/
def Dev.scanArr (unit : Nat) (a : Arr) (lo hi : Nat) (d : Dev) : Dev := d.readErrors unit a (d.arrErrors a lo hi)

/-- The granules of words, each once, in the order of the words. -/
def granules : List (Arr × Nat) → List (Arr × Nat)
  | [] => []
  | (a, o) :: rest => (a, o / 4) :: (granules rest).filter (fun g => g != (a, o / 4))

/-- The words of `ws` (offset, mask, value) in the granule of `off` cover it whole. -/
def coversGran (off : Nat) (ws : List (Nat × BitVec 16 × BitVec 16)) : Bool :=
  (List.range 4).all (fun i =>
    ws.any (fun w => w.1 == off / 4 * 4 + i && w.2.1 == 0xFFFF))

/-- A store of the words `ws`, all in one granule of an SRAM array (R24): `none` when the granule is uncorrectable and
not covered whole. -/
def Dev.storeGran (a : Arr) (off : Nat) (ws : List (Nat × BitVec 16 × BitVec 16)) (d : Dev) : Option Dev :=
  let put (d : Dev) := ws.foldl (fun d w => d.setMasked a w.1 w.2.1 w.2.2) d
  if coversGran off ws then some (put (d.setEcc a off .ok))
  else
    match d.eccAt a off with
    | .ok => some (put d)
    | .corr => some (put (d.corrected a off))
    | .unc => none

end Sys2Proof.Machine
end

