-- ==== Sys2Proof/Machine/Memory.lean ====
section
/-! DEFINITION. The W data space (02_address_spaces.md): where an address leads (R33, R34, R37, R38), which accesses
break a rule (R50, Table 2.5), the access-error log (R53), and reads and stores of memory words with their check bits,
the dirty map (R157) and the held stores (R160). -/

namespace Sys2Proof.Machine

/-! ## Where an address leads -/

/-- What a W address reaches (Table 2.1): a memory word, a word of the register areas, or nothing. -/
inductive Loc where
  | mem (a : Arr) (off : Nat)
  | reg (w : Nat)
  | none
deriving DecidableEq, Repr, Inhabited

/-- The local data of a core at an own address below 0x02_0000 (R33). -/
def Dev.ownLoc (d : Dev) (c : CoreId) (w : Nat) : Loc :=
  if h : c.val < 16 then .mem (.loc ⟨c.val, h⟩) w
  else if w < 0x10000 then .mem (.bell d.sys.bellBank) w
  else .mem (.bell (!d.sys.bellBank)) (w - 0x10000)

/-- What a W address from 0x02_0000 upward reaches, the same for every requester (Table 2.1). -/
def Dev.sharedLoc (d : Dev) (w : Nat) : Loc :=
  if w < 0x20000 then .none
  else if w < 0x28000 then .mem (.iHalf d.scan.iSnap) (w - 0x20000)
  else if w < 0x30000 then .mem (.qHalf d.scan.qShadow) (w - 0x28000)
  else if w < 0x40000 then .mem .mark (w - 0x30000)
  else if w < 0xC0000 then .mem .inst (w - 0x40000)
  else if w < 0xD0000 then .mem .live (w - 0xC0000)
  else if w < 0xEC000 then .reg w
  else if w < 0x100000 then .none
  else if w < 0x200000 then .mem .mram (w - 0x100000 + 0x400000)
  else if w < 0x300000 then .mem .win (w - 0x200000)
  else if w < 0x500000 then .mem (.loc (Fin.ofNat 16 ((w - 0x300000) / 0x20000))) ((w - 0x300000) % 0x20000)
  else .none

/-- What a W address of a core reaches. -/
def Dev.locate (d : Dev) (c : CoreId) (w : Nat) : Loc := if w < 0x20000 then d.ownLoc c w else d.sharedLoc w

/-- The register area: the Mule tables and the system registers (R42, R43). -/
def isRegWord (w : Nat) : Bool := 0xD0000 ≤ w && w < 0xF0000

/-- The table whose check bits cover a register word: Mule tables, force table, ring schedule tables (Table 1.4). -/
def tabLoc (w : Nat) : Option (Arr × Nat) :=
  if 0xD0000 ≤ w && w < 0xE0000 then some (.muleTab, w - 0xD0000)
  else if 0xE4000 ≤ w && w < 0xE8000 then some (.forceTab, w - 0xE4000)
  else if 0xE8000 ≤ w && w < 0xEC000 then some (.sched (Fin.ofNat 4 ((w - 0xE8000) / 0x1000)), (w - 0xE8000) % 0x1000)
  else none

/-- The granule of a register word in its table, if it has one. -/
def tabGran (w : Nat) : List (Arr × Nat) :=
  match tabLoc w with
  | some (a, o) => [(a, o / 4)]
  | none => []

/-! ## Rules -/

/-- The blocks whose core writes are privileged (Table 2.3). -/
def privBlock (w : Nat) : Bool :=
  (0xE0100 ≤ w && w < 0xE0200) || (0xE0C00 ≤ w && w < 0xE2400) || (0xE2800 ≤ w && w < 0xE2C00)

/-- The blocks under the set-up lock (Table 2.3, R48), and the host-only registers. -/
def lockBlock (w : Nat) : Bool :=
  w < 0xE0300 && 0xE0000 ≤ w || (0xE0400 ≤ w && w < 0xE0C00) || (0xE1000 ≤ w && w < 0xE2800)
    || (0xE3000 ≤ w && w < 0xE4000) || (0xE8000 ≤ w && w < 0xEC000) || 0x1000000 ≤ w

/-- The ownership flag of an exchange-window page: 0 FREE, 1 HOST, 2 DEVICE, 3 LOCKED (R350). -/
def pageFlagFld (p : Nat) : Fld := ⟨(R.PFLAG (p / 16)).addr, 2 * (p % 16) + 1, 2 * (p % 16)⟩

/-- KIND of the rule that a core's access to one word breaks, if it breaks one (Table 2.5). -/
def Dev.wordRule (d : Dev) (c : CoreId) (priv write : Bool) (w : Nat) : Option Nat :=
  match d.locate c w with
  | .none => some 1
  | .reg w => if write && privBlock w && !priv then some 3 else none
  | .mem a off =>
    if !write then none
    else
      match a with
      | .iHalf _ | .live => some 2
      | .win => if d.get (pageFlagFld (off / 0x800)) == 1 || d.get (pageFlagFld (off / 0x800)) == 3 then some 5 else none
      | _ => none

/-- The first of `n` words from `w` upward that breaks a rule: its KIND and address (R50). Addresses are taken modulo
2^24. -/
def Dev.wordsRule (d : Dev) (c : CoreId) (priv write : Bool) (w : Nat) : Nat → Option (Nat × Nat)
  | 0 => none
  | n + 1 =>
    match d.wordRule c priv write (w % 0x1000000) with
    | some k => some (k, w % 0x1000000)
    | none => d.wordsRule c priv write (w + 1) n

/-! ## The access-error log (R53) -/

/-- An access error: counted, and logged or counted as a further one. `addr`: 24 bits. -/
def Dev.accessError (unit kind addr : Nat) (d : Dev) : Dev :=
  let d := d.satAdd R.AE_STATUS_ERR_COUNT 1
  if d.flag R.AE_STATUS_VALID then d.setF R.AE_STATUS_MULTI
  else
    let d := d.put R.AE_STATUS_KIND kind
    let d := d.put R.AE_ADDR (unit * 0x1000000 + addr % 0x1000000)
    d.setF R.AE_STATUS_VALID

/-! ## Reading -/

/-- A memory word as a reader finds it: of MRAM the buffer's data where an entry covers it (R449). -/
def Dev.memWord (d : Dev) (a : Arr) (off : Nat) : BitVec 16 :=
  match a with
  | .mram => d.nvWord off
  | _ => d.mw a off

/-- A read of the word meets its granule in the array: not where a buffer entry holds the whole word (R449). -/
def Dev.needsGran (d : Dev) (w : Arr × Nat) : Bool :=
  match w.1 with
  | .mram =>
    match d.nvEntry (w.2 / 4) with
    | some e => granWord e.mask w.2 != 0xFFFF
    | none => true
  | _ => true

/-- Words read by one access: 0 for a word whose granule is uncorrectable; and the granules that are (R22). -/
def Dev.readWords (ws : List (Arr × Nat)) (d : Dev) : List (BitVec 16) × List (Arr × Nat) × Dev :=
  let need := ws.filter d.needsGran
  let (bad, d') := d.readGrans (granules need)
  (ws.map (fun w => if need.contains w && bad.contains (w.1, w.2 / 4) then 0 else d'.memWord w.1 w.2), bad, d')

/-- Words read by a unit that is no core, as one access: the check of each uncorrectable granule is logged (R26). The Bool
says that the read met one. -/
def Dev.unitWords (unit : Nat) (ws : List (Arr × Nat)) (d : Dev) : List (BitVec 16) × Bool × Dev :=
  let (vs, bad, d) := d.readWords ws
  (vs, !bad.isEmpty, d.unitMcs unit bad)

/-- A memory word read by a unit that is no core. -/
def Dev.unitRead (unit : Nat) (a : Arr) (off : Nat) (d : Dev) : BitVec 16 × Bool × Dev :=
  let (ws, bad, d) := d.unitWords unit [(a, off)]
  (ws.headD 0, bad, d)

/-- `n` words read by a unit from `off` upward as one access. -/
def Dev.unitReads (unit : Nat) (a : Arr) (off n : Nat) (d : Dev) : List (BitVec 16) × Bool × Dev :=
  d.unitWords unit ((List.range n).map (fun i => (a, off + i)))

/-! ## Storing -/

/-- One word of a store: array, offset, mask, value. -/
abbrev StoreWord := Arr × Nat × BitVec 16 × BitVec 16

/-- The granules that a store touches, in the order of its words. -/
def granulesOf (ws : List StoreWord) : List (Arr × Nat) := granules (ws.map (fun w => (w.1, w.2.1)))

/-- The words of a store in one granule. -/
def wordsIn (g : Arr × Nat) (ws : List StoreWord) : List (Nat × BitVec 16 × BitVec 16) :=
  (ws.filter (fun w => (w.1, w.2.1 / 4) == g)).map (fun w => w.2)

/-- The Q shadow is being copied: a store to it is held (R160). -/
def Dev.qHolding (d : Dev) : Bool := d.get R.SCAN_STAT_STATE == 5 || d.get R.SCAN_STAT_STATE == 7

/-- Mark a Q granule dirty (R157). -/
def Dev.markDirty (g : Nat) (d : Dev) : Dev := d.updScan (fun s => { s with dirty := insNat g s.dirty })

/-- Pair: a line of 64 words was written by a requester of the active member (R394). -/
def Dev.markLine (w : Nat) (d : Dev) : Dev :=
  if d.get R.PAIR_STAT_ROLE == 1 then { d with pair := { d.pair with lines := insNat (w / 64) d.pair.lines } } else d

/-- Every line from W address `lo` to `hi` was written. -/
def Dev.markLines (lo hi : Nat) (d : Dev) : Dev :=
  if d.get R.PAIR_STAT_ROLE == 1 then
    (List.range (hi / 64 + 1 - lo / 64)).foldl (fun d i => d.markLine (lo + 64 * i)) d
  else d

/-- The W address of a word in an array whose lines the pair mirrors: M, instance memory, the retain window. The Q
shadow marks its lines where a store reaches it, the force table in its register handler. -/
def mirrorAddr (a : Arr) (off : Nat) : Option Nat :=
  match a with
  | .mark => some (0x30000 + off)
  | .inst => some (0x40000 + off)
  | .mram => if 0x400000 ≤ off && off < 0x500000 then some (off - 0x400000 + 0x100000) else none
  | _ => none

/-- Mark the line of a stored granule. -/
def Dev.mirrorStore (a : Arr) (off : Nat) (d : Dev) : Dev :=
  match mirrorAddr a off with
  | some w => d.markLine w
  | none => d

/-- Store the words of one granule. `none`: the granule is uncorrectable and the store does not cover it (R24). `who`: the
core that stores, none for another requester. -/
def Dev.storeOne (who : Option CoreId) (g : Arr × Nat) (ws : List (Nat × BitVec 16 × BitVec 16)) (d : Dev) : Option Dev :=
  match g.1 with
  | .mram =>
    let old := match d.nvEntry g.2 with
      | some e => e.mask
      | none => 0
    let new := ws.foldl (fun m w => m ||| wordGran w.2.1 w.1) old
    if d.eccAt .mram (g.2 * 4) == .unc && new != BitVec.allOnes 64 && !d.nv.closed then none
    else some ((ws.foldl (fun d w => d.nvPostWord w.1 w.2.1 w.2.2) d).mirrorStore .mram (g.2 * 4))
  | .qHalf h =>
    if h == d.scan.qShadow then
      if d.qHolding then
        some (d.updScan (fun s => { s with
          heldQ := s.heldQ ++ ws.map (fun w => { off := w.1, mask := w.2.1, val := w.2.2, by_ := who }) }))
      else (d.storeGran g.1 (g.2 * 4) ws).map (fun d => (d.markDirty g.2).markLine (0x28000 + g.2 * 4))
    else d.storeGran g.1 (g.2 * 4) ws
  | a => (d.storeGran a (g.2 * 4) ws).map (fun d => d.mirrorStore a (g.2 * 4))

/-- Every granule of a store finds room in the posted write buffer (R448). -/
def Dev.storeRoom (ws : List StoreWord) (d : Dev) : Bool :=
  d.nv.closed || (granulesOf ws).all (fun g => g.1 != .mram || d.nvRoom g.2)

/-- Store the words of one access, granule by granule. The result names the granules that were left unwritten (R24). -/
def Dev.storeAll (who : Option CoreId) (ws : List StoreWord) : List (Arr × Nat) → Dev → List (Arr × Nat) × Dev
  | [], d => ([], d)
  | g :: rest, d =>
    match d.storeOne who g (wordsIn g ws) with
    | some d => d.storeAll who ws rest
    | none =>
      let (bad, d) := d.storeAll who ws rest
      (g :: bad, d)

/-- Store the words of one access. -/
def Dev.storeMem (who : Option CoreId) (ws : List StoreWord) (d : Dev) : List (Arr × Nat) × Dev :=
  d.storeAll who ws (granulesOf ws)

/-- A store by a unit that is no core: words in an uncorrectable granule are dropped and its check is logged (R26). -/
def Dev.unitStore (unit : Nat) (ws : List StoreWord) (d : Dev) : Dev :=
  let (bad, d) := d.storeMem none ws
  d.unitMcs unit bad

/-- Whole words as a store of one array from `off` upward. -/
def wholeWords (a : Arr) (off : Nat) : List (BitVec 16) → List StoreWord
  | [] => []
  | w :: ws => (a, off, 0xFFFF, w) :: wholeWords a (off + 1) ws

end Sys2Proof.Machine
end

