-- ==== Sys2Proof/Machine/Cache.lean ====
section
/-! DEFINITION. Where a core fetches (R40, R41) and the instruction caches of the Ox tiles (R12, R22, R120, R138): the line
that holds a word, the refill of a line from program memory, and the locked range of T4 mode. -/

namespace Sys2Proof.Machine

/-- Where a core fetches the word at P address `p` from (R40, R41); `none`: no such address. Of the boot ROM the array is
`none` inside. -/
def Dev.codeLoc (d : Dev) (c : CoreId) (p : Nat) : Option (Option (Arr × Nat)) :=
  if c.val < 16 then
    if p < 0x200000 then some (some (.prog (d.get R.PROG_STAT_ACTIVE == 1), p)) else none
  else if p < 0x10000 then some (some (.bell d.sys.bellBank, p))
  else if 0x1FC000 ≤ p && p < 0x200000 then some none
  else none

/-! ## Lines -/

/-- The key of the place in a tile's cache where line `ln` of P space lies. The spec gives 128 lines of 32 words and no
organisation: DESIGN CHOICE, direct-mapped, so that the 4,096 words of R138 fit (log entry 70). -/
def icKey (t : Fin 16) (ln : Nat) : Nat := t.val * 128 + ln % 128

/-- The line a place holds; no words: none. -/
def Dev.icLine (d : Dev) (t : Fin 16) (ln : Nat) : CacheLine := Store.get (fun _ => default) d.icache (icKey t ln)

/-- The cache holds line `ln`. -/
def Dev.icHolds (d : Dev) (t : Fin 16) (ln : Nat) : Bool :=
  (d.icLine t ln).line == ln && !(d.icLine t ln).words.isEmpty

/-- Every line of the tile is invalid. -/
def Dev.icClear (t : Fin 16) (d : Dev) : Dev :=
  { d with
    icache := d.icache.filter (fun e => e.1 / 128 != t.val)
    ecc := d.ecc.filter (fun e => e.1 % 64 != arrCode (.icache t)) }

/-- Every line of every tile is invalid. -/
def Dev.icClearAll (d : Dev) : Dev := { d with
  icache := [], ecc := d.ecc.filter (fun e => e.1 % 64 < 48) }

/-- The program bank in use. -/
def Dev.progArr (d : Dev) : Arr := .prog (d.get R.PROG_STAT_ACTIVE == 1)

/-- The granules of line `ln` in program memory. -/
def Dev.lineGrans (d : Dev) (ln : Nat) : List (Arr × Nat) := (List.range 8).map (fun i => (d.progArr, 8 * ln + i))

/-- A refill of line `ln` (R120): the error names the uncorrectable granules of program memory. -/
def Dev.icFill (t : Fin 16) (ln : Nat) (d : Dev) : Except (Dev × List (Arr × Nat)) Dev :=
  let (bad, d) := d.readGrans (d.lineGrans ln)
  if bad.isEmpty then
    let d := (List.range 8).foldl (fun d i => d.setEcc (.icache t) (32 * (ln % 128) + 4 * i) .ok) d
    let l : CacheLine := { line := ln, words := d.mws d.progArr (32 * ln) 32 }
    .ok { d with icache := Store.set (fun _ => default) d.icache (icKey t ln) l }
  else .error (d, bad)

/-- The fetch of one word by a tile in native mode: a hit reads the cache; an uncorrectable cache line is invalidated and
refetched, which counts as corrected (R22); a miss refills the line (R120), but a locked cache keeps its range, and a word
outside it comes from program memory (R138). -/
def Dev.icFetch (t : Fin 16) (p : Nat) (d : Dev) : Except (Dev × List (Arr × Nat)) Dev :=
  let ln := p / 32
  let o := 32 * (ln % 128) + p % 32
  if d.icHolds t ln then
    match d.eccAt (.icache t) o with
    | .ok => .ok d
    | .corr => .ok (d.corrected (.icache t) o)
    | .unc => (d.satAdd R.MC_STATUS_CE_COUNT 1).icFill t ln
  else if (d.core (tileCore t)).t4Loaded then
    match d.readGran d.progArr p with
    | some d => .ok d
    | none => .error (d, [(d.progArr, p / 4)])
  else d.icFill t ln

/-- The tile whose cache serves the fetches of a core: an Ox tile in native mode (R120). The Bellwether, and a tile in stack
mode, read the memory itself. -/
def Dev.cached (d : Dev) (c : CoreId) : Option (Fin 16) :=
  if h : c.val < 16 then if (d.core c).act.sr.getLsbD 14 then none else some ⟨c.val, h⟩ else none

/-- The fetch of the word at P address `p` by a core (R40, R41, R120): none where there is no such address. -/
def Dev.fetchWord (c : CoreId) (p : Nat) (d : Dev) : Option (Except (Dev × List (Arr × Nat)) Dev) :=
  match d.codeLoc c p with
  | none => none
  | some none => some (.ok d)
  | some (some (a, off)) =>
    match d.cached c with
    | some t => some (d.icFetch t p)
    | none =>
      match d.readGran a off with
      | some d => some (.ok d)
      | none => some (.error (d, [(a, off / 4)]))

/-- The word a core finds at P address `p`: in its cache where a line holds it; 0 where there is none. -/
def Dev.pWord (d : Dev) (c : CoreId) (p : Nat) : Nat :=
  match d.codeLoc c p with
  | some (some (a, off)) =>
    match d.cached c with
    | some t => if d.icHolds t (p / 32) then ((d.icLine t (p / 32)).words.getD (p % 32) 0).toNat else (d.mw a off).toNat
    | none => (d.mw a off).toNat
  | some none => (Config.bootRom (p - 0x1FC000)).toNat
  | none => 0

/-- The scrubber reads a granule of a tile's cache (R22, R23). -/
def Dev.icScrub (unit : Nat) (t : Fin 16) (off : Nat) (d : Dev) : Dev :=
  match d.eccAt (.icache t) off with
  | .ok => d
  | .corr => d.corrected (.icache t) off
  | .unc =>
    let d := d.satAdd R.MC_STATUS_CE_COUNT 1
    let l := d.icLine t (off / 32)
    if l.words.isEmpty then d.setEcc (.icache t) off .ok
    else
      match d.icFill t l.line with
      | .ok d => d
      | .error (d, bad) => d.unitMcs unit bad

/-! ## The locked range (R138) -/

/-- The 4,096 words from the locked range's first word on are loaded: 128 lines, those inside P space. -/
def Dev.icLoad (t : Fin 16) (base : Nat) (d : Dev) : Except (Dev × List (Arr × Nat)) Dev :=
  (List.range 128).foldl (fun r i =>
    match r with
    | .ok d => if base / 32 + i < 0x10000 then d.icFill t (base / 32 + i) else .ok d
    | .error e => .error e) (.ok (d.icClear t))

end Sys2Proof.Machine
end

