-- ==== Sys2Proof/Machine/CoreMem.lean ====
section
/-! DEFINITION. A core's outstanding loads and its store buffer (R91, R129 to R134): reading through the buffer, returning
a load, draining an entry, and settling both; the start of a strand (R116, R138) and the breaks of the T4 contract
(R143). -/

namespace Sys2Proof.Machine

/-! ## Registers of a set by number -/

/-- The register set that a flag names. -/
def CoreSt.set (c : CoreSt) (set1 : Bool) : RegSet := if set1 then c.s1 else c.s0

/-- Change the set that a flag names. -/
def CoreSt.updSet (c : CoreSt) (set1 : Bool) (f : RegSet → RegSet) : CoreSt :=
  if set1 then { c with s1 := f c.s1 } else { c with s0 := f c.s0 }

/-- Write D register `n` (taken modulo 16). -/
def RegSet.setD (r : RegSet) (n : Nat) (v : BitVec 16) : RegSet := { r with dr := r.dr.set (n % 16) v (by omega) }

/-- Read D register `n` (taken modulo 16). -/
def RegSet.getD (r : RegSet) (n : Nat) : BitVec 16 := r.dr[n % 16]

/-- Write A register `n` (taken modulo 8), modulo 2^24. -/
def RegSet.setA (r : RegSet) (n v : Nat) : RegSet := { r with a := r.a.set (n % 8) (BitVec.ofNat 24 v) (by omega) }

/-- Read A register `n` (taken modulo 8). -/
def RegSet.getA (r : RegSet) (n : Nat) : Nat := (r.a[n % 8]).toNat

/-- Write accumulator `k` (taken modulo 4) with a value in the 40-bit range. -/
def RegSet.setAcc (r : RegSet) (k : Nat) (v : Int) : RegSet :=
  { r with acc := r.acc.set (k % 4) (BitVec.ofNat 40 (toU 40 v)) (by omega) }

/-- Read accumulator `k` (taken modulo 4) as a signed value. -/
def RegSet.getAcc (r : RegSet) (k : Nat) : Int := sx 40 (r.acc[k % 4]).toNat

/-- The destination of a load takes the words read (Table 3.11). -/
def RegSet.takeLoad (r : RegSet) (dst : LoadDst) (ws : List (BitVec 16)) : RegSet :=
  let lo := ws.headD 0
  let hi := (ws.drop 1).headD 0
  match dst with
  | .word d => r.setD d.val lo
  | .pair d => (r.setD d.val lo).setD (d.val + 1) hi
  | .accPair k => r.setAcc k.val (sx 32 (lo.toNat + 65536 * hi.toNat))
  | .accWord k => r.setAcc k.val (sx 16 lo.toNat)
  | .accLo k => { r with acc := r.acc.set k.val ((r.acc[k.val]).extractLsb' 16 24 ++ lo) }
  | .accHi k => { r with acc := r.acc.set k.val (lo.signExtend 24 ++ (r.acc[k.val]).extractLsb' 0 16) }

/-! ## Reading through the store buffer -/

/-- Two W addresses of a core reach the same memory word, or the same register. -/
def Dev.samePlace (d : Dev) (c : CoreId) (w v : Nat) : Bool :=
  match d.locate c w, d.locate c v with
  | .mem a o, .mem b p => a == b && o == p
  | .reg a, .reg b => a / 2 == b / 2
  | _, _ => false

/-- `v` under the held stores of core `c` to word `off` of the Q shadow (R160), and the mask of the bits they cover. -/
def Dev.heldOver (d : Dev) (c : CoreId) (a : Arr) (off : Nat) (v : BitVec 16) : BitVec 16 × BitVec 16 :=
  match a with
  | .qHalf _ =>
    d.scan.heldQ.foldl (fun acc h =>
      if h.by_ == some c && h.off == off then ((acc.1 &&& ~~~h.mask) ||| (h.val &&& h.mask), acc.2 ||| h.mask) else acc) (v, 0)
  | _ => (v, 0)

/-- A value and a mask with the buffered stores of core `c` to W address `w` from before place `seq` laid over them, oldest
first (R91). -/
def Dev.overlay (d : Dev) (c : CoreId) (seq w : Nat) (v : BitVec 16 × BitVec 16) : BitVec 16 × BitVec 16 :=
  (d.core c).sbuf.foldl (fun acc e =>
    if e.seq < seq then
      e.words.foldl (fun (acc : BitVec 16 × BitVec 16) s =>
        if d.samePlace c w s.1 then ((acc.1 &&& ~~~s.2.1) ||| (s.2.2 &&& s.2.1), acc.2 ||| s.2.1) else acc) acc
    else acc) v

/-- The word at W address `w`, where it is `v` in memory, as core `c` reads it at place `seq`: with its own earlier stores,
held and buffered, laid over it; and the mask of the bits they cover (R91, R129). -/
def Dev.ownView (d : Dev) (c : CoreId) (seq w : Nat) (v : BitVec 16) : BitVec 16 × BitVec 16 :=
  match d.locate c w with
  | .mem a off => d.overlay c seq w (d.heldOver c a off v)
  | _ => (v, 0)

/-- The memory words among W addresses that a read of core `c` fetches: those its own stores do not cover whole. -/
def Dev.fetched (d : Dev) (c : CoreId) (seq : Nat) (ws : List Nat) : List (Arr × Nat) :=
  ws.filterMap (fun w =>
    match d.locate c w with
    | .mem a off => if (d.ownView c seq w 0).2 == 0xFFFF then none else some (a, off)
    | _ => none)

/-- Memory words at W addresses read by core `c` as one access. The error names the uncorrectable granules. -/
def Dev.coreReads (c : CoreId) (seq : Nat) (ws : List Nat) (d : Dev) :
    Except (Dev × List (Arr × Nat)) (List (BitVec 16) × Dev) :=
  let (_, bad, d') := d.readWords (d.fetched c seq ws)
  if bad.isEmpty then
    .ok (ws.map (fun w =>
      match d.locate c w with
      | .mem a off => (d.ownView c seq w (d'.memWord a off)).1
      | _ => 0), d')
  else .error (d', bad)

/-! ## Loads and buffered stores -/

/-- Two lists of W addresses of a core reach a common place. -/
def Dev.overlap (d : Dev) (c : CoreId) (ws vs : List Nat) : Bool := ws.any (fun w => vs.any (fun v => d.samePlace c w v))

/-- The load at place `i` may return: no earlier outstanding load reads a word it reads (R131). -/
def Dev.canReturn (d : Dev) (c : CoreId) (i : Nat) : Bool :=
  match (d.core c).loads[i]? with
  | none => false
  | some l => ((d.core c).loads.take i).all (fun e => !d.overlap c e.words l.words)

/-- The load at place `i` returns its value (R130), or takes a machine check. -/
def Dev.returnLoad (c : CoreId) (i : Nat) (d : Dev) : Dev :=
  match (d.core c).loads[i]? with
  | none => d
  | some l =>
    match d.coreReads c l.seq l.words with
    | .error (d, bad) => d.coreMcs c bad
    | .ok (vs, d) =>
      d.updCore c (fun s => { (s.updSet l.set1 (fun r => r.takeLoad l.dst vs)) with loads := s.loads.eraseIdx i })

/-- The memory words that a buffered access stores. -/
def Dev.recWords (d : Dev) (c : CoreId) (e : StoreRec) : List StoreWord :=
  e.words.filterMap (fun s =>
    match d.locate c s.1 with
    | .mem a off => some (a, off, s.2.1, s.2.2)
    | _ => none)

/-- The W addresses that a buffered access stores to. -/
def StoreRec.addrs (e : StoreRec) : List Nat := e.words.map (·.1)

/-- The entry at place `i` may drain: no earlier entry stores to a place it stores to, every earlier load has returned
(R130), and the posted write buffer has room. -/
def Dev.canDrain (d : Dev) (c : CoreId) (i : Nat) : Bool :=
  match (d.core c).sbuf[i]? with
  | none => false
  | some e =>
    ((d.core c).sbuf.take i).all (fun f => !d.overlap c f.addrs e.addrs)
      && (d.core c).loads.all (fun l => e.seq < l.seq)
      && d.storeRoom (d.recWords c e)

/-- Armed error injection takes a store of all 4 words of a granule of the tile's own local data, through either of its
address ranges: the granule is left with an uncorrectable error (MC_CTRL.INJ). -/
def Dev.inject (c : CoreId) (ws : List StoreWord) (d : Dev) : Dev :=
  match ws with
  | (.loc t, o, _, _) :: _ =>
    if (d.core c).inj && t.val == c.val && coversGran o (wordsIn (.loc t, o / 4) ws) then
      (d.setEcc (.loc t) o .unc).updCore c (fun s => { s with inj := false })
    else d
  | _ => d

/-- A core's store of memory words takes place, or takes a machine check (R24). -/
def Dev.coreStore (c : CoreId) (ws : List StoreWord) (d : Dev) : List (Arr × Nat) × Dev :=
  let (bad, d) := d.storeMem (some c) ws
  (bad, if bad.isEmpty then d.inject c ws else d)

/-! ## Strand start and the T4 contract -/

/-- A break of the T4 contract on the tile in whose set 0 it falls (R143). -/
def Dev.t4Break (c : CoreId) (cause : Nat) (d : Dev) : Dev :=
  if d.flag (R.TILE_STATE_T4_ACT c.val) && !(d.core c).t4Broken && !(d.core c).inSet1 && c.val < 16 then
    let d := d.updCore c (fun s => { s with t4Broken := true })
    (d.setF (R.TILE_STATE_T4_BRK c.val)).put (R.TILE_STATE_BRK_CAUSE c.val) cause
  else d

/-- Set 0 of the core runs under the T4 contract's ordering (R140, R143). -/
def Dev.t4On (d : Dev) (c : CoreId) : Bool :=
  c.val < 16 && d.flag (R.TILE_STATE_T4_ACT c.val) && !(d.core c).inSet1

/-- Set 0 at a strand start (R116). -/
def RegSet.strand (r : RegSet) (pc sp : Nat) : RegSet :=
  { (r.setA 7 (sp + 0x1000000 - 2)) with sr := 0, bstk := 0, pc := BitVec.ofNat 21 pc, opstk := [] }

/-- Strand start of a tile (R116, R118, R137, R138): set 0 takes its values; a tile whose ENTRY.EN is 0 reports scan end
at once; a tile in T4 mode whose locked range is not loaded preloads it first. -/
def Dev.strandStart (t : Fin 16) (d : Dev) : Dev :=
  let en := d.flag (R.TILE_ENTRY_EN t.val)
  let t4 := en && d.flag (R.TILE_CTRL_T4_MODE t.val)
  let pc := d.get (R.TILE_ENTRY_PC t.val)
  let d := d.updCore (tileCore t) (fun s =>
    { s with
      s0 := s.s0.strand pc (d.get (R.TILE_STK_SP t.val))
      run0 := if en then .active else .idle
      strandSince := s.inSet1
      wait := if s.inSet1 then s.wait else .none
      t4Broken := false
      t4Preload := t4 && (!s.t4Loaded || s.t4New)
      t4Base := if t4 && (!s.t4Loaded || s.t4New) then BitVec.ofNat 21 (pc / 32 * 32) else s.t4Base
      t4Loaded := t4 && s.t4Loaded && !s.t4New
      t4New := s.t4New && !t4
      t4Fence := d.time
      runAt := none })
  let d := d.put (R.TILE_STATE_T4_ACT t.val) (b2n t4)
  if en then d else d.reportEnd t

end Sys2Proof.Machine
end

