-- ==== Sys2Proof/Machine/RegCore.lean ====
section
/-! DEFINITION. One write of one 32-bit register: which bits it reaches, whether WO actions may start (R43, R541), and
the access codes of Table 0.5 (R6, R7). The handlers of the registers with an effect of their own stand in the files of
their blocks; Machine/RegAccess.lean sends each write to its handler. -/

namespace Sys2Proof.Machine

/-- A write of a register: the bits it reaches, their values, and whether it may start WO actions. -/
structure Wr where
  mask : BitVec 32
  val : BitVec 32
  wo : Bool
  bits : Bool := false     -- a bit write: a field wider than one bit is never written whole (R541)
deriving DecidableEq, Repr, Inhabited

/-- The unit address of a requester (R15). -/
def reqUnit : Req → Nat
  | .core c => coreUnit c
  | .host => 0xFB

/-- A 32-bit access (R42, R46). -/
def Wr.whole (v : BitVec 32) : Wr := { mask := 0xFFFFFFFF, val := v, wo := true }

/-- A lone write of the odd word (R43): the high word's bits, and no WO action. -/
def Wr.high (v : BitVec 16) : Wr := { mask := 0xFFFF0000, val := BitVec.ofNat 32 (v.toNat * 65536), wo := false }

/-- A bit write of the bits under `mask` of the low or high word (R541). -/
def Wr.bitsOf (high : Bool) (mask val : BitVec 16) : Wr :=
  { mask := BitVec.ofNat 32 (mask.toNat * 65536 ^ b2n high), val := BitVec.ofNat 32 (val.toNat * 65536 ^ b2n high),
    wo := true, bits := true }

/-- The ones of a bit range. -/
def rangeMask (hi lo : Nat) : BitVec 32 := BitVec.ofNat 32 (2 ^ (hi + 1) - 2 ^ lo)

/-- The write reaches some bit of the range. -/
def Wr.meets (w : Wr) (hi lo : Nat) : Bool := w.mask &&& rangeMask hi lo != 0

/-- The write is a whole write of the field in the range. -/
def Wr.covers (w : Wr) (hi lo : Nat) : Bool :=
  w.mask &&& rangeMask hi lo == rangeMask hi lo && (!w.bits || hi == lo)

/-- The register's value after the written bits are laid over `old`. -/
def Wr.over (w : Wr) (old : BitVec 32) : BitVec 32 := (old &&& ~~~w.mask) ||| (w.val &&& w.mask)

/-- What a WO field receives: the written value when the write covers the field and may start actions, else 0. -/
def Wr.act (w : Wr) (f : Fld) : Nat := if w.wo && w.covers f.hi f.lo then f.of w.val else 0

/-- A one-bit WO field is written with 1. -/
def Wr.does (w : Wr) (f : Fld) : Bool := w.act f != 0

/-- The bits of a W1C, W1S or RW range that the write sets to 1. -/
def Wr.ones (w : Wr) (f : Fld) : Nat := f.of (w.val &&& w.mask)

/-- The one-bit WO fields that a write sets to 1. -/
def Wr.woOnes (w : Wr) (fs : List FieldRow) : BitVec 32 :=
  fs.foldl (fun m f =>
    if (f.acc == .wo || f.acc == .woh) && f.hi == f.lo then m ||| (w.mask &&& w.val &&& rangeMask f.hi f.lo) else m) 0

/-- What the WO fields that hold their value receive of a write. A bit write that starts an action gives every other WO
field of the register 0, and one that starts none leaves them all (R541). -/
def Wr.forWoh (w : Wr) (fs : List FieldRow) : Wr :=
  if !w.bits then w
  else if w.woOnes fs != 0 then Wr.whole (w.woOnes fs)
  else { w with mask := 0 }

/-- The RW and RW1 bits of a register's fields (R48). -/
def lockable (fs : List FieldRow) : BitVec 32 :=
  fs.foldl (fun m f => if f.acc == .rw || f.acc == .rw1 then m ||| rangeMask f.hi f.lo else m) 0

/-- One field of the register at `a` under a write, by its access code (Table 0.5). -/
def Dev.writeField (a : Nat) (w : Wr) (f : FieldRow) (d : Dev) : Dev :=
  let m := w.mask &&& rangeMask f.hi f.lo
  match f.acc with
  | .rw => d.wrReg a ((d.rd a &&& ~~~m) ||| (w.val &&& m))
  | .w1c => d.wrReg a (d.rd a &&& ~~~(w.val &&& m))
  | .w1s => d.wrReg a (d.rd a ||| (w.val &&& m))
  | .woh => if w.wo && w.covers f.hi f.lo then d.wrReg a ((d.rd a &&& ~~~m) ||| (w.val &&& m)) else d
  | .rw1 =>
    if w.covers f.hi f.lo && !d.tm.rw1.contains (32 * a + f.lo) then
      (d.wrReg a ((d.rd a &&& ~~~m) ||| (w.val &&& m))).updTm (fun t => { t with rw1 := insNat (32 * a + f.lo) t.rw1 })
    else d
  | .ro | .wo | .fuse => d

/-- Every field of the register at `a` under a write. -/
def Dev.writeFields (a : Nat) (w : Wr) (fs : List FieldRow) (d : Dev) : Dev :=
  fs.foldl (fun d f => d.writeField a (if f.acc == .woh then w.forWoh fs else w) f) d

/-- A write by the access codes alone: the register of a block with no effect of its own. -/
def Dev.writePlain (a : Nat) (w : Wr) (d : Dev) : Dev :=
  match regFind a with
  | some (r, _) => d.writeFields a w r.fields
  | none => d

end Sys2Proof.Machine
end

