-- ==== Sys2Proof/Machine/Backup.lean ====
section
/-! DEFINITION. The backup clock (20_backup_clock.md): the counters and their trim (R473, R474), the interface lockout
(R470, R471), setting the time (R476, R477), the periodic wake (R478, R479) and the validity flags (R481 to R483). -/

namespace Sys2Proof.Machine

/-- Change what the backup domain holds. -/
def Dev.updBk (d : Dev) (f : BkSt → BkSt) : Dev := { d with bk := f d.bk }

/-- The domain's time in ticks. -/
def Dev.bkNow (d : Dev) : Nat := d.bk.sec.toNat * 32768 + d.bk.sub

/-- SEC wraps: times are taken modulo 2^47 ticks (R473). -/
def bkSpan : Nat := 2 ^ 47

/-- Set the domain's time. -/
def Dev.setBk (t : Nat) (d : Dev) : Dev :=
  d.updBk (fun b => { b with sec := BitVec.ofNat 32 (t % bkSpan / 32768), sub := t % 32768 })

/-- The interval of the periodic wake in ticks (R478). -/
def Dev.bkInterval (d : Dev) : Nat := 128 * max 1 (d.get R.BK_WAKE_N)

/-- The next wake. -/
def Dev.bkNext (d : Dev) : Nat := d.get R.BK_NEXT_SEC * 32768 + d.get R.BK_NEXT_SUB_TICKS

/-- Set the next wake. -/
def Dev.setNext (t : Nat) (d : Dev) : Dev :=
  (d.put R.BK_NEXT_SEC (t % bkSpan / 32768)).put R.BK_NEXT_SUB_TICKS (t % 32768)

/-- The trim adds or withholds a tick at place `n` of its period: |CAL| of them, evenly spread (R474). -/
def trimAt (trim : Int) (n : Nat) : Bool :=
  n < 2 ^ 20 && n * trim.natAbs / 2 ^ 20 < (n + 1) * trim.natAbs / 2 ^ 20

/-- One crystal tick. The second tick edge after a SET is the load's own (R476); a BK_WAKE write takes effect (R478). -/
def Dev.bkTick (d : Dev) : Dev :=
  let load := d.bk.edges == some 1
  let step := if load then 0 else if trimAt d.bk.trim d.bk.n then (if 0 < d.bk.trim then 2 else 0) else 1
  let d := (d.setBk (d.bkNow + step)).updBk (fun b => { b with n := min (2 ^ 20) (b.n + 1), edges := b.edges.map (· + 1) })
  if d.bk.wakePend then
    let d := d.updBk (fun b => { b with wakePend := false })
    if d.flag R.BK_WAKE_EN then d.setNext (d.bkNow + d.bkInterval) else d
  else d

/-- One ns of the backup domain while its oscillator runs. -/
def Dev.bkNs (d : Dev) : Dev :=
  if d.flag R.BK_STAT_OSC_RUN then
    if d.bk.acc + 32768 < 1000000000 then d.updBk (fun b => { b with acc := b.acc + 32768 })
    else (d.updBk (fun b => { b with acc := b.acc + 32768 - 1000000000 })).bkTick
  else d

/-- A wake fires (R479). -/
def Dev.bkFire (d : Dev) : Dev :=
  let d := if d.flag R.BK_STAT_WAKE then d.setF R.BK_STAT_WOVR else d.setF R.BK_STAT_WAKE
  let d := d.emit .wake
  if d.flag R.BK_IF_LOCKED then d else d.raise 13

/-- The time has reached the next wake (R479). -/
def Dev.bkWakeFire (d : Dev) : Dev :=
  if d.flag R.BK_WAKE_EN && d.flag R.BK_STAT_OSC_RUN && !d.bk.wakePend && (d.bkNow + bkSpan - d.bkNext) % bkSpan < bkSpan / 2 then
    (d.setNext (d.bkNext + d.bkInterval)).bkFire
  else d

/-- The load of a SET at its second tick edge (R476, R477). -/
def Dev.bkLoad (d : Dev) : Dev :=
  match d.bk.edges with
  | some (n + 2) =>
    let _ := n
    let t0 := d.bkNow
    let t1 := d.get R.BK_SET_SEC * 32768 + d.get R.BK_SET_SUB_TICKS
    let en := d.flag R.BK_WAKE_EN
    let skip := en && t0 < t1 && d.bkNext ≤ t1
    let due := en && !skip && d.bkNext == (t0 + 1) % bkSpan
    let d := ((d.setBk t1).updBk (fun b => { b with edges := none })).clrF R.BK_IF_BUSY
    let d := if skip then (d.setF R.BK_STAT_WAKE_SKIP).bkFire else if due then d.bkFire else d
    if en then d.setNext (t1 + d.bkInterval) else d
  | _ => d

/-- 2^20 ticks have passed: CAL is spread over the following ones (R474). -/
def Dev.bkCalPeriod (d : Dev) : Dev :=
  if d.bk.n == 2 ^ 20 then d.updBk (fun b => { b with n := 0, trim := sx 8 (d.get R.BK_CAL_CAL) }) else d

/-! ## Supply and validity -/

/-- VDD_IO falls below the switchover threshold (R470). -/
def Dev.bkLock (d : Dev) : Dev := (d.setF R.BK_IF_LOCKED).updBk (fun b => { b with vbat := true })

/-- VDD_IO has stayed above it for 1 ms (R471). -/
def Dev.bkUnlock (d : Dev) : Dev :=
  if d.flag R.BK_IF_LOCKED && !d.bk.vbat then
    let d := d.clrF R.BK_IF_LOCKED
    if d.flag R.BK_STAT_WAKE || d.flag R.BK_STAT_OSF || d.flag R.BK_STAT_BBOF then d.raise 13 else d
  else d

/-- VDD_IO rises above 2.80 V: the domain moves back from VBAT, and a new brown-out invalidates the clock (R482). -/
def Dev.bkReturn (d : Dev) : Dev :=
  let new := d.bk.bbofNew
  let d := d.updBk (fun b => { b with vbat := false, bbofNew := false })
  if new then ((d.setF R.BK_STAT_OSF).setBk 0).wrReg R.BK_WAKE.addr 0 else d

/-- The domain powers up (R481). -/
def Dev.bkPowerUp (d : Dev) : Dev :=
  let d := { d with bk := { BkSt.zero with vbat := d.bk.vbat, hostLat := d.bk.hostLat } }
  [R.BK_SET_SEC.addr, R.BK_SET_SUB.addr, R.BK_WAKE.addr, R.BK_NEXT_SEC.addr, R.BK_NEXT_SUB.addr, R.BK_STAT.addr,
    R.BK_CAL.addr].foldl (fun d a => d.wrReg a (regReset a)) d

/-- The supply falls below 1.7 V on VBAT (R482). -/
def Dev.bkBrownout (d : Dev) : Dev :=
  if d.bk.vbat then (d.setF R.BK_STAT_BBOF).updBk (fun b => { b with bbofNew := true }) else d

/-- No crystal edge for 4 ms (R483). -/
def Dev.oscStop (d : Dev) : Dev := (d.setF R.BK_STAT_OSF).clrF R.BK_STAT_OSC_RUN

/-- The oscillator restarts (R483). -/
def Dev.oscRestart (d : Dev) : Dev := d.setF R.BK_STAT_OSC_RUN

/-! ## Registers -/

/-- A write to a register of the block while the interface is unlocked; a locked one discards it (R470). -/
def Dev.bkOpen (d : Dev) (f : Dev → Dev) : Dev := if d.flag R.BK_IF_LOCKED then d else f d

/-- BK_CMD (R476). -/
def Dev.wrBkCmd (w : Wr) (d : Dev) : Dev :=
  if w.does R.BK_CMD_SET then
    if d.flag R.BK_IF_BUSY || d.flag R.BK_IF_LOCKED then d.setF R.BK_IF_DENY
    else (d.setF R.BK_IF_BUSY).updBk (fun b => { b with edges := some 0 })
  else d

/-- BK_SET_SEC and BK_SET_SUB (R476). -/
def Dev.wrBkSet (a : Nat) (w : Wr) (d : Dev) : Dev :=
  d.bkOpen (fun d => if d.flag R.BK_IF_BUSY then d.setF R.BK_IF_DENY else d.writePlain a w)

/-- BK_WAKE (R478). -/
def Dev.wrBkWake (a : Nat) (w : Wr) (d : Dev) : Dev :=
  d.bkOpen (fun d => (d.writePlain a w).updBk (fun b => { b with wakePend := true }))

/-- BK_CAL. -/
def Dev.wrBkCal (a : Nat) (w : Wr) (d : Dev) : Dev := d.bkOpen (fun d => d.writePlain a w)

/-- BK_STAT: OSF stays set while the oscillator is stopped (R483). -/
def Dev.wrBkStat (a : Nat) (w : Wr) (d : Dev) : Dev :=
  d.bkOpen (fun d =>
    let osf := d.flag R.BK_STAT_OSF && !d.flag R.BK_STAT_OSC_RUN
    let d := d.writePlain a w
    if osf then d.setF R.BK_STAT_OSF else d)

end Sys2Proof.Machine
end

