-- ==== Sys2Proof/Machine/PlanMath.lean ====
section
/-! DEFINITION. The exact arithmetic of the Mule and of the interpolator: saturating sums and the second and third order
filters (R201, R202), and the planning of one segment (R236), its jerk phases and its stop profile (R240). -/

namespace Sys2Proof.Machine

/-! ## Loops (R201, R202) -/

/-- The largest and the smallest s64. -/
def s64Max : Int := 9223372036854775807
def s64Min : Int := -9223372036854775808

/-- A value and whether a saturation took place on the way to it. -/
abbrev Sat (α : Type) := α × Bool

/-- sadd: a sum limited to s64. -/
def sadd (a b : Int) : Sat Int := (clampI s64Min s64Max (a + b), clampI s64Min s64Max (a + b) != a + b)

/-- lim32: limited to s32. -/
def lim32 (x : Int) : Sat Int := (sat32 x, sat32 x != x)

/-- q28: a Q.28 sum to a signal, half away from zero. -/
def q28 (acc : Int) : Sat Int :=
  let m : Int := (((acc.natAbs + 2 ^ 27) / 2 ^ 28 : Nat) : Int)
  lim32 (if acc < 0 then -m else m)

/-- df2t: one sample of a filter in direct form II transposed. `b`, `a`: the coefficients b[1..k] and a[1..k]; the result
is y, the new states and whether a saturation took place. -/
def df2t (x b0 : Int) (b a s : List Int) : Int × List Int × Bool :=
  let (t, f0) := sadd (b0 * x) (s.headD 0)
  let (y, f1) := q28 t
  let rec go : List Int → List Int → List Int → List Int × Bool
    | bi :: bs, ai :: as, s1 :: ss =>
      let (u, g0) := sadd (bi * x) (-(ai * y))
      let (w, g1) := sadd u s1
      let (r, g2) := go bs as ss
      (w :: r, g0 || g1 || g2)
    | bi :: _, ai :: _, [] =>
      let (u, g0) := sadd (bi * x) (-(ai * y))
      ([u], g0)
    | _, _, _ => ([], false)
  let (s', f2) := go b a s.tail
  (y, s', f0 || f1 || f2)

/-! ## Planning (R236) -/

/-- rnd() of a fraction: half away from zero. -/
def rndDiv (num : Int) (den : Nat) : Int :=
  let m : Int := (((2 * num.natAbs + den) / (2 * den) : Nat) : Int)
  if num < 0 then -m else m

/-- A fraction with a positive denominator. -/
abbrev Frac := Nat × Nat

/-- The smaller of two fractions. -/
def fracMin (a b : Frac) : Frac := if a.1 * b.2 ≤ b.1 * a.2 then a else b

/-- The least n from `base` upward with `p n`, searched over `2 ^ b` values of a rising predicate. -/
def leastN (p : Nat → Bool) : Nat → Nat → Nat
  | 0, base => base
  | b + 1, base => if p (base + 2 ^ b - 1) then leastN p b base else leastN p b (base + 2 ^ b)

/-- The phase lengths nj, na, nv of a path of length D under the limits V, A and J. -/
def phases (D : Nat) (V A J : Frac) : Nat × Nat × Nat :=
  let (vn, vd) := V
  let (an, ad) := A
  let (jn, jd) := J
  let reach := decide (an * an * vd * jd ≤ vn * jn * ad * ad)
  let x := an * jd            -- A / J = x / y
  let y := ad * jn
  let p := vn * ad            -- V / A = p / q
  let q := vd * an
  let sn := x * q + p * y     -- A / J + V / A = sn / sd
  let sd := y * q
  if reach && decide (vn * sn ≤ D * vd * sd) then
    (ceilDiv x y, ceilDiv (p * y - x * q) (q * y), ceilDiv (D * vd * sd - sn * vn) (vn * sd))
  else if !reach && decide (4 * vn ^ 3 * jd ≤ D * D * vd ^ 3 * jn) then
    (leastN (fun n => decide (vn * jd ≤ n * n * jn * vd)) 20 0, 0,
     leastN (fun m => decide (D * vd ≤ m * vn) || decide ((D * vd - m * vn) ^ 2 * vd * jn ≤ 4 * vn ^ 3 * jd)) 20 0)
  else if reach && decide (2 * an ^ 3 * jd ^ 2 ≤ D * ad ^ 3 * jn ^ 2) then
    (ceilDiv x y, leastN (fun m => decide (D * ad * y * y ≤ an * (x + m * y) * (2 * x + m * y))) 20 0, 0)
  else (leastN (fun n => decide (D * jd ≤ 2 * jn * n ^ 3)) 20 1, 0, 0)

/-- Jerk of motion sample k, 1 to N: +jp, 0, −jp, 0, −jp, 0, +jp. -/
def phaseJerk (nj na nv jp k : Nat) : Int :=
  let j : Int := (jp : Int)
  if k ≤ nj then j
  else if k ≤ nj + na then 0
  else if k ≤ 2 * nj + na then -j
  else if k ≤ 2 * nj + na + nv then 0
  else if k ≤ 3 * nj + na + nv then -j
  else if k ≤ 3 * nj + 2 * na + nv then 0
  else j

/-- One sample of the stop profile (R240): acceleration, velocity, path position, done, and whether the path's end was
reached. `len`: D in units of 2^−48. -/
def stopSample (As Js a v s len : Int) : Int × Int × Int × Bool × Bool :=
  let j := if a < 0 && 2 * Js * v ≤ a * a - Js * a then Js else clampI (-Js) Js (-As - a)
  let a := a + j
  let a := if j == Js && 0 < a then 0 else a
  let v := v + a
  let done := decide (v ≤ 0)
  let a := if done then 0 else a
  let v := if done then 0 else v
  let s := s + v
  if len ≤ s then (0, 0, len, true, true) else (a, v, s, done, false)

end Sys2Proof.Machine
end

