-- ==== Sys2Proof/Machine/HostQueue.lean ====
section
/-! DEFINITION. Completions of host commands (14_host_interface.md, R333, R341 to R343, R357): the entry written at TAIL,
the head it reports, the vector, and the commands that complete when the scan or the staging state moves. -/

namespace Sys2Proof.Machine

/-- A number kept per queue or group; 0 when unlisted. -/
def natAt (s : Store Nat) (k : Nat) : Nat := Store.get (fun _ => 0) s k

/-- Set a number kept per queue or group. -/
def setNat (s : Store Nat) (k v : Nat) : Store Nat := Store.set (fun _ => 0) s k v

/-- Change the host link's own state. -/
def Dev.updHif (d : Dev) (f : HifSt → HifSt) : Dev := { d with hif := f d.hif }

/-- The number of entries of a command queue. -/
def Dev.cmdqSize (d : Dev) (q : Nat) : Nat := 2 ^ d.get (R.CMDQ_CFG_SZ q)

/-- The number of entries of a completion queue. -/
def Dev.cplqSize (d : Dev) (p : Nat) : Nat := 2 ^ d.get (R.CPLQ_CFG_SZ p)

/-- Send the vector of completion queue `p`, once until its next head doorbell (R357). -/
def Dev.cplVector (p : Nat) (d : Dev) : Dev :=
  if d.flag (R.CPLQ_CFG_IEN p) && !tst d.hif.vecHeld p then
    (d.updHif (fun h => { h with vecHeld := setBit h.vecHeld p })).sendMsix (d.get (R.CPLQ_CFG_IV p))
  else d

/-- The entries of completion queue `p` that are written and not released, or reserved for running commands (R341). -/
def Dev.cplTaken (d : Dev) (p : Nat) : Nat :=
  natAt d.hif.cplUsed p + (d.hif.running.filter (fun r => d.get (R.CMDQ_CFG_CPLQ r.q) == p)).length

/-- Completion queue `p` has an entry to spare. -/
def Dev.cplFree (d : Dev) (p : Nat) : Bool := d.cplTaken p < d.cplqSize p

/-- Write a completion entry for command queue `q` (Table 14.4, R342). -/
def Dev.writeCompletion (q cid status result : Nat) (d : Dev) : Dev :=
  let p := d.get (R.CMDQ_CFG_CPLQ q)
  let tail := d.get (R.CPLQ_STAT_TAIL p)
  let base := d.get64 (R.CPLQ_BASE_LO p) (R.CPLQ_BASE_HI p)
  let ph := d.get (R.CPLQ_STAT_P p)
  let ws := [BitVec.ofNat 16 cid, BitVec.ofNat 16 (q + 256 * ph), BitVec.ofNat 16 status,
    BitVec.ofNat 16 (d.get (R.CMDQ_STAT_HEAD q)), BitVec.ofNat 16 result, BitVec.ofNat 16 (result / 65536),
    BitVec.ofNat 16 d.time.toNat, BitVec.ofNat 16 (d.time.toNat / 65536)]
  let d := d.emit (.hostWrite (base + 16 * tail) ws)
  let next := (tail + 1) % d.cplqSize p
  let d := d.put (R.CPLQ_STAT_TAIL p) next
  let d := if next == 0 then d.put (R.CPLQ_STAT_P p) (1 - ph) else d
  (d.updHif (fun h => { h with cplUsed := setNat h.cplUsed p (natAt h.cplUsed p + 1) })).cplVector p

/-- A completion with no entry reserved for it: written at once, or once the host frees an entry. That of an aborted command
also follows the queue's running command (R341), and raises event 115. -/
def Dev.oweCompletion (q cid status : Nat) (d : Dev) : Dev :=
  if d.cplFree (d.get (R.CMDQ_CFG_CPLQ q)) && !(status == 8 && d.hif.running.any (fun r => r.q == q)) then
    let d := d.writeCompletion q cid status 0
    if status == 8 then d.raise 115 else d
  else d.updHif (fun h => { h with owed := h.owed ++ [(q, cid, status)] })

/-- Write the waiting completions that now find an entry, in order. -/
def Dev.payOwed (d : Dev) : Dev :=
  d.hif.owed.foldl (fun d o => d.oweCompletion o.1 o.2.1 o.2.2) (d.updHif (fun h => { h with owed := [] }))

/-- A command of queue `q` completes (R341): HEAD passes it when `adv`, the entry is written, and a status other than
SUCCESS raises event 115. -/
def Dev.hostComplete (q cid status result : Nat) (adv : Bool) (d : Dev) : Dev :=
  let d := if adv then d.put (R.CMDQ_STAT_HEAD q) ((d.get (R.CMDQ_STAT_HEAD q) + 1) % d.cmdqSize q) else d
  let d := d.writeCompletion q cid status result
  if status == 0 then d else d.raise 115

/-- A running command leaves the running list and completes; the aborted ones of its queue follow it. -/
def Dev.hostFinish (r : HostRun) (status result : Nat) (d : Dev) : Dev :=
  ((d.updHif (fun h => { h with running := h.running.filter (fun x => x.q != r.q) })).hostComplete r.q r.cmd.cid status
    result r.counts).payOwed

/-- The SNAP_READ that started first, once it has its page (R347). -/
def Dev.firstSnap (d : Dev) : Option HostRun :=
  (d.hif.running.find? (fun r => r.wait == .snap)).bind (fun r => if r.page.isSome then some r else none)

/-- The status and RESULT with which a waiting command completes now, when what it waits for has come about. -/
def Dev.waitOver (d : Dev) (r : HostRun) : Option (Nat × Nat) :=
  match r.wait with
  | .scanStart => if d.get R.SCAN_STAT_STATE == 2 then some (0, (d.rd R.SCAN_STAT.addr).toNat) else none
  | .scanStop => if d.get R.SCAN_STAT_STATE == 0 then some (0, (d.rd R.SCAN_STAT.addr).toNat) else none
  | .prog =>
    let s := d.get R.PROG_STAT_STATE
    if s == 2 || s == 5 || (s == 4 && r.cmd.arg0 % 8 == 3) then none else some (0, (d.rd R.PROG_STAT.addr).toNat)
  | _ => none

/-- Complete the waiting commands for whose end the scan or the staging state has moved on. -/
def Dev.hostPoll (d : Dev) : Dev :=
  d.hif.running.foldl (fun d r =>
    match d.waitOver r with
    | some (st, res) => d.hostFinish r st res
    | none => d) d

end Sys2Proof.Machine
end

