-- ==== Sys2Proof/Machine/Records.lean ====
section
/-! DEFINITION. The checksums the spec names, and the two-copy records and wear-ring slots of MRAM (19_nonvolatile.md,
R457 to R459, R461). -/

namespace Sys2Proof.Machine

/-- One bit of the reflected CRC-32. -/
def crc32Bit (c : Nat) : Nat := if c % 2 = 1 then (c / 2) ^^^ 0xEDB88320 else c / 2

/-- One byte of the CRC-32. -/
def crc32Byte (c : Nat) (b : BitVec 8) : Nat :=
  crc32Bit (crc32Bit (crc32Bit (crc32Bit (crc32Bit (crc32Bit (crc32Bit (crc32Bit (c ^^^ b.toNat))))))))

/-- The IEEE 802.3 CRC-32 of a byte string (R182, Table 19.2). -/
def crc32 (bs : List (BitVec 8)) : Nat := (bs.foldl crc32Byte 0xFFFFFFFF) ^^^ 0xFFFFFFFF

/-- One bit of the CRC-16/CCITT-FALSE. -/
def crc16Bit (c : Nat) : Nat := if 0x8000 ≤ c then (c * 2 % 0x10000) ^^^ 0x1021 else c * 2

/-- One byte of the CRC-16/CCITT-FALSE. -/
def crc16Byte (c : Nat) (b : BitVec 8) : Nat :=
  crc16Bit (crc16Bit (crc16Bit (crc16Bit (crc16Bit (crc16Bit (crc16Bit (crc16Bit (c ^^^ (b.toNat * 256)))))))))

/-- The CRC-16/CCITT-FALSE of a byte string (R488). -/
def crc16 (bs : List (BitVec 8)) : Nat := bs.foldl crc16Byte 0xFFFF

/-- A number as little-endian words. -/
def wordsLE : Nat → Nat → List (BitVec 16)
  | 0, _ => []
  | n + 1, v => BitVec.ofNat 16 v :: wordsLE n (v / 65536)

/-- Little-endian words as a number. -/
def ofWords : List (BitVec 16) → Nat
  | [] => 0
  | w :: ws => w.toNat + 65536 * ofWords ws

/-- The words of a record copy with sequence number and payload (Table 19.2). -/
def recordWords (seq : Nat) (payload : List (BitVec 16)) : List (BitVec 16) :=
  let body := wordsLE 2 seq ++ wordsLE 1 payload.length ++ [0] ++ payload
  body ++ wordsLE 2 (crc32 (wordBytes body))

/-- No granule of the range is uncorrectable in the array. -/
def Dev.nvClean (d : Dev) (off n : Nat) : Bool :=
  (List.range (n / 4 + 2)).all (fun i => d.eccAt .mram (off + 4 * i) != .unc || off + n ≤ (off + 4 * i) / 4 * 4)

/-- The copy at `off` is a valid copy with `len` payload words (R457). -/
def Dev.recValid (d : Dev) (off len : Nat) : Bool :=
  let ws := d.nvWords off (len + 6)
  d.nvClean off (len + 6) && ofWords ((ws.drop 2).take 1) == len
    && ofWords (ws.drop (len + 4)) == crc32 (wordBytes (ws.take (len + 4)))

/-- SEQ of the copy at `off`. -/
def Dev.recSeq (d : Dev) (off : Nat) : Nat := ofWords (d.nvWords off 2)

/-- The payload of the copy at `off`. -/
def Dev.recPayload (d : Dev) (off len : Nat) : List (BitVec 16) := d.nvWords (off + 4) len

/-- SEQ `a` is newer than `b` (R457). -/
def seqNewer (a b : Nat) : Bool :=
  let x := (a + 2 ^ 32 - b) % 2 ^ 32
  1 ≤ x && x ≤ 0x7FFFFFFF

/-- Where copy B of a record lies (R457). -/
def copyB (off len : Nat) : Nat := off + 128 * ((len + 6 + 127) / 128)

/-- What a record read selects (Table 19.3). -/
inductive RecSel where
  | none | copyA | copyB | tie
deriving DecidableEq, Repr, Inhabited

/-- The selection of Table 19.3 for the record whose copy A is at `off`. -/
def Dev.recSelect (d : Dev) (off len : Nat) : RecSel :=
  let b := copyB off len
  match d.recValid off len, d.recValid b len with
  | false, false => .none
  | true, false => .copyA
  | false, true => .copyB
  | true, true =>
    if seqNewer (d.recSeq b) (d.recSeq off) then .copyB
    else if d.recSeq off == d.recSeq b && d.recPayload off len != d.recPayload b len then .tie
    else .copyA

/-- The payload that a record read delivers. -/
def Dev.recRead (d : Dev) (off len : Nat) : Option (List (BitVec 16)) :=
  match d.recSelect off len with
  | .none => none
  | .copyA | .tie => some (d.recPayload off len)
  | .copyB => some (d.recPayload (copyB off len) len)

/-- The copy that a record write writes, and its SEQ (R458). -/
def Dev.recTarget (d : Dev) (off len : Nat) : Nat × Nat :=
  match d.recSelect off len with
  | .none => (off, 1)
  | .copyA | .tie => (copyB off len, (d.recSeq off + 1) % 2 ^ 32)
  | .copyB => (off, (d.recSeq (copyB off len) + 1) % 2 ^ 32)

/-- Write words of the array with new check bits. -/
def Dev.writeNvArr (off : Nat) (ws : List (BitVec 16)) (d : Dev) : Dev :=
  (List.range (ws.length / 4 + 2)).foldl
    (fun d i => if off ≤ (off + 4 * i) / 4 * 4 && (off + 4 * i) / 4 * 4 + 4 ≤ off + ws.length
      then d.setEcc .mram (off + 4 * i) .ok else d)
    (d.setNvArrs off ws)

/-- A record write (R458). -/
def Dev.recWrite (off : Nat) (payload : List (BitVec 16)) (d : Dev) : Dev :=
  let t := d.recTarget off payload.length
  d.writeNvArr t.1 (recordWords t.2 payload)

/-- The payload of the program commit record. -/
def commitPayload (copy id len : Nat) : List (BitVec 16) := wordsLE 1 copy ++ wordsLE 2 id ++ wordsLE 2 len ++ [0]

/-! ## The device records (R446) -/

/-- The program commit record: the copy it names, PKG_ID and LEN. -/
def Dev.commitRec (d : Dev) : Option (Nat × Nat × Nat) :=
  (d.recRead 0x700000 6).map (fun p => (ofWords (p.take 1), ofWords ((p.drop 1).take 2), ofWords ((p.drop 3).take 2)))

/-- The controller reads `n` words of the array: a correctable granule is corrected and counted, an uncorrectable one is a
machine check (R455, R456). -/
def Dev.nvTouch (off n : Nat) (d : Dev) : Dev :=
  upTo ((off % 4 + n + 3) / 4) (fun i d =>
    let w := 4 * (off / 4 + i)
    match d.eccAt .mram w with
    | .ok => d
    | .corr => d.corrected .mram w
    | .unc => d.unitMc 0xF9 .mram w) d

/-- Both copies of a record are read. -/
def Dev.recTouch (off len : Nat) (d : Dev) : Dev := (d.nvTouch off (len + 6)).nvTouch (copyB off len) (len + 6)

/-- A record write by the firmware or the boot: it reads both copies. -/
def Dev.recUpdate (off : Nat) (payload : List (BitVec 16)) (d : Dev) : Dev :=
  (d.recTouch off payload.length).recWrite off payload

/-- A record read: its check bits, and the tie rule, which sets NV_STAT.TIE and raises event 11 (Table 19.3). -/
def Dev.recMark (off len : Nat) (d : Dev) : Dev :=
  let d := d.recTouch off len
  if d.recSelect off len == .tie then (d.setF R.NV_STAT_TIE).raise 11 else d

/-- Write the commit record. -/
def Dev.writeCommitRec (copy id len : Nat) (d : Dev) : Dev :=
  (d.recMark 0x700000 6).recWrite 0x700000 (commitPayload copy id len)

end Sys2Proof.Machine
end

