-- ==== Sys2Proof/Machine/Package.lean ====
section
/-! DEFINITION. The change package in a program bank (07_online_change.md): its header and sections (R182), the checks
of PREPARE (Table 7.8), the counts and the bound (R185, R189, R193). -/

namespace Sys2Proof.Machine

/-! ## Header and sections -/

/-- A word of the package in bank `b`. -/
def Dev.pw (d : Dev) (b : Bool) (i : Nat) : Nat := (d.mw (.prog b) i).toNat

/-- A dword of the package in bank `b`. -/
def Dev.pd (d : Dev) (b : Bool) (i : Nat) : Nat := d.md (.prog b) i

/-- The package length in words. -/
def Dev.pkgLen (d : Dev) (b : Bool) : Nat := d.pd b 2

/-- The package's identity. -/
def Dev.pkgId (d : Dev) (b : Bool) : Nat := d.pd b 4

/-- FLAGS.FULL. -/
def Dev.pkgFull (d : Dev) (b : Bool) : Bool := d.pw b 8 % 2 == 1

/-- The sections of Table 7.3 in order: word of the header, entry size, limit. -/
def sectionKinds : List (Nat × Nat × Nat) :=
  [(12, 4, 256), (16, 16, 32768), (20, 6, 262144), (24, 4, 4096), (28, 2, 131072)]

/-- Offset and entry count of section `i`: 0 register load list, 1 directory, 2 descriptors, 3 force map, 4 prime. -/
def Dev.sect (d : Dev) (b : Bool) (i : Nat) : Nat × Nat := (d.pd b (12 + 4 * i), d.pd b (14 + 4 * i))

/-- The words of section `i`, as a half-open range. -/
def Dev.sectRange (d : Dev) (b : Bool) (i : Nat) : Nat × Nat :=
  let s := d.sect b i
  (s.1, s.1 + s.2 * ((sectionKinds.getD i (0, 0, 0)).2.1))

/-- Two half-open ranges meet. -/
def rangesMeet (x y : Nat × Nat) : Bool := x.1 < y.2 && y.1 < x.2 && x.1 < x.2 && y.1 < y.2

/-! ## Directory and descriptors -/

/-- A directory entry (Table 7.4). -/
structure DirEnt where
  ident : Nat
  base : Nat
  size : Nat
  hash : Nat
  oldHash : Nat
  first : Nat
  ndesc : Nat
deriving DecidableEq, Repr, Inhabited

/-- Entry `i` of the directory in bank `b`. -/
def Dev.dirEnt (d : Dev) (b : Bool) (i : Nat) : DirEnt :=
  let o := (d.sect b 1).1 + 16 * i
  { ident := d.pd b o, base := d.pd b (o + 2), size := d.pd b (o + 4), hash := d.pd b (o + 6),
    oldHash := d.pd b (o + 8), first := d.pd b (o + 10), ndesc := d.pw b (o + 12) }

/-- The directory of the package in bank `b`. -/
def Dev.directory (d : Dev) (b : Bool) : List DirEnt := (List.range (d.sect b 1).2).map (d.dirEnt b)

/-- A carry descriptor (Table 7.5). -/
structure Desc where
  op : Nat
  sbit : Nat
  dbit : Nat
  low : Nat
  src : Nat
  dst : Nat
  count : Nat
deriving DecidableEq, Repr, Inhabited

/-- Descriptor `i` of the package in bank `b`. -/
def Dev.desc (d : Dev) (b : Bool) (i : Nat) : Desc :=
  let o := (d.sect b 2).1 + 6 * i
  let w := d.pw b o
  { op := w / 4096, sbit := w / 256 % 16, dbit := w / 16 % 16, low := w % 16,
    src := d.pd b (o + 1), dst := d.pd b (o + 3), count := d.pw b (o + 5) }

/-- The descriptors of a directory entry. -/
def Dev.descsOf (d : Dev) (b : Bool) (e : DirEnt) : List Desc := (List.range e.ndesc).map (fun k => d.desc b (e.first + k))

/-- The words a descriptor reads, from its source word on (Table 7.7). -/
def Desc.srcLen (c : Desc) : Nat :=
  match c.op with
  | 0 | 1 | 3 => c.count
  | 2 | 4 => 2 * c.count
  | 5 => (c.sbit + c.count + 15) / 16
  | _ => 0

/-- The words a descriptor writes, from its destination word on (Table 7.7). -/
def Desc.dstLen (c : Desc) : Nat :=
  match c.op with
  | 0 | 2 | 4 | 8 => c.count
  | 1 | 3 => 2 * c.count
  | 5 => (c.dbit + c.count + 15) / 16
  | _ => 0

/-- FILL. -/
def Desc.isFill (c : Desc) : Bool := c.op == 8

/-- OP is one of Table 7.7, COUNT is not 0 and every field that must be 0 is 0. -/
def Desc.wellFormed (c : Desc) : Bool :=
  (c.op ≤ 5 || c.op == 8) && c.low == 0 && c.count != 0 && (c.op == 5 || (c.sbit == 0 && c.dbit == 0))
    && (!c.isFill || c.src < 65536)

/-- The old entry that a new entry is carried from (R189). -/
def carriedFrom (old : List DirEnt) (e : DirEnt) : Option DirEnt :=
  old.find? (fun o => o.ident == e.ident && o.hash == e.oldHash)

/-- The old directory: that of the active bank while a program is active (R185). -/
def Dev.oldDirectory (d : Dev) : List DirEnt :=
  if d.prog.loaded then d.directory (d.get R.PROG_STAT_ACTIVE == 1) else []

/-- The inactive bank. -/
def Dev.inactive (d : Dev) : Bool := d.get R.PROG_STAT_ACTIVE == 0

/-- A COPY whose absolute source is its absolute destination: the engine skips it (R190). -/
def skipsCopy (o e : DirEnt) (c : Desc) : Bool := c.op == 0 && o.base + c.src == e.base + c.dst

/-- The copy descriptors of the carried instances in the order of pass 1, without the skipped COPYs: source and
destination ranges. -/
def Dev.copyRanges (d : Dev) (b : Bool) (old dir : List DirEnt) : List ((Nat × Nat) × (Nat × Nat)) :=
  dir.flatMap (fun e =>
    match carriedFrom old e with
    | none => []
    | some o => (d.descsOf b e).filterMap (fun c =>
        if c.isFill || skipsCopy o e c then none
        else some ((o.base + c.src, o.base + c.src + c.srcLen), (e.base + c.dst, e.base + c.dst + c.dstLen))))

/-! ## The force map -/

/-- An entry of the force relocation map (Table 7.6). -/
structure FMapEnt where
  old : Nat
  oldMask : Nat
  new : Nat
  del : Bool
  shift : Int
deriving DecidableEq, Repr, Inhabited

/-- Entry `i` of the force relocation map in bank `b`. -/
def Dev.fmapEnt (d : Dev) (b : Bool) (i : Nat) : FMapEnt :=
  let o := (d.sect b 3).1 + 4 * i
  { old := d.pw b o, oldMask := d.pw b (o + 1), new := d.pw b (o + 2), del := 0x8000 ≤ d.pw b (o + 3),
    shift := sx 5 (d.pw b (o + 3)) }

/-- The force relocation map in bank `b`. -/
def Dev.fmap (d : Dev) (b : Bool) : List FMapEnt := (List.range (d.sect b 3).2).map (d.fmapEnt b)

/-- Shift left by a signed amount: right when negative. -/
def shiftI (n : Nat) (s : Int) : Nat := if s < 0 then n / 2 ^ (-s).toNat else n * 2 ^ s.toNat

/-! ## The register load list and the prime list -/

/-- The register load list in bank `b`: address and value. -/
def Dev.regList (d : Dev) (b : Bool) : List (Nat × Nat) :=
  (List.range (d.sect b 0).2).map (fun i => (d.pd b ((d.sect b 0).1 + 4 * i), d.pd b ((d.sect b 0).1 + 4 * i + 2)))

/-- A register that R183 lets the list name: ENTRY, STK, EVT_STK, EMU_VEC, ACC_VEC and CTRL of a tile, CTASK[k], and
EV_ROUTE and EV_VEC, the event-routing registers of their block. -/
def loadable (a : Nat) : Bool :=
  a % 2 == 0 && ((0xE0B00 ≤ a && a < 0xE0BC0) || (0xE0840 ≤ a && a < 0xE0850) || (0xE0500 ≤ a && a < 0xE0700))

/-- The prime list in bank `b`: even bit index in instance memory, previous state, and the bits that must be 0. -/
def Dev.primeList (d : Dev) (b : Bool) : List (Nat × Bool × Nat) :=
  (List.range (d.sect b 4).2).map (fun i =>
    let v := d.pd b ((d.sect b 4).1 + 2 * i)
    (v % 2 ^ 23, tst v 31, v / 2 ^ 23 % 256))

/-! ## The checks of Table 7.8 -/

/-- 0x02: LEN, sections and limits. -/
def Dev.checkSections (d : Dev) (b : Bool) : Bool :=
  let len := d.pkgLen b
  let rs := (List.range 5).map (d.sectRange b)
  64 ≤ len && len ≤ 0x200000
    && (List.range 5).all (fun i => (d.sect b i).2 ≤ (sectionKinds.getD i (0, 0, 0)).2.2)
    && rs.all (fun r => r.1 == r.2 || (64 ≤ r.1 && r.2 ≤ len))
    && (List.range 5).all (fun i => (List.range i).all (fun j => !rangesMeet (rs.getD i (0, 0)) (rs.getD j (0, 0))))

/-- 0x03: the CRC of the package. -/
def Dev.checkCrc (d : Dev) (b : Bool) : Bool :=
  d.pd b 62 == crc32 (wordBytes (d.mws (.prog b) 0 62 ++ [0, 0] ++ d.mws (.prog b) 64 (d.pkgLen b - 64)))

/-- Strictly ascending numbers. -/
def ascending : List Nat → Bool
  | a :: b :: rest => a < b && ascending (b :: rest)
  | _ => true

/-- No two of the ranges meet. -/
def disjointRanges : List (Nat × Nat) → Bool
  | [] => true
  | r :: rest => rest.all (fun q => !rangesMeet r q) && disjointRanges rest

/-- 0x05: the directory. -/
def Dev.checkDirectory (d : Dev) (b : Bool) : Bool :=
  let dir := d.directory b
  ascending (dir.map (·.ident))
    && dir.all (fun e => e.base % 4 == 0 && e.size != 0 && e.base + e.size ≤ 0x80000
        && e.first + e.ndesc ≤ (d.sect b 2).2)
    && disjointRanges (dir.map (fun e => (e.base, e.base + e.size)))

/-- 0x06: the descriptors. -/
def Dev.checkDescs (d : Dev) (b : Bool) : Bool :=
  let old := d.oldDirectory
  (List.range (d.sect b 2).2).all (fun i => (d.desc b i).wellFormed)
    && (d.directory b).all (fun e => (d.descsOf b e).all (fun c =>
        c.dst + c.dstLen ≤ e.size &&
        match carriedFrom old e with
        | some o => c.isFill || c.src + c.srcLen ≤ o.size
        | none => true))

/-- No source range of a later copy meets the destination range of an earlier one. -/
def orderedCopies : List ((Nat × Nat) × (Nat × Nat)) → Bool
  | [] => true
  | c :: rest => rest.all (fun e => !rangesMeet e.1 c.2) && orderedCopies rest

/-- 0x07: the copy order (R190). -/
def Dev.checkOrder (d : Dev) (b : Bool) : Bool := orderedCopies (d.copyRanges b d.oldDirectory (d.directory b))

/-- No two map entries have the same old word and overlapping masks. -/
def disjointMap : List FMapEnt → Bool
  | [] => true
  | m :: rest => rest.all (fun n => n.old != m.old || (n.oldMask &&& m.oldMask) == 0) && disjointMap rest

/-- 0x08: the force map. -/
def Dev.checkFmap (d : Dev) (b : Bool) : Bool :=
  (d.fmap b).all (fun m => m.shift != -16 && shiftI m.oldMask m.shift < 65536
      && shiftI (shiftI m.oldMask m.shift) (-m.shift) == m.oldMask)
    && disjointMap (d.fmap b)

/-- 0x09: the register load list. -/
def Dev.checkRegs (d : Dev) (b : Bool) : Bool :=
  let rs := d.regList b
  rs.all (fun r => loadable r.1)
    && (List.range 16).all (fun t => rs.any (fun r => r.1 == (R.TILE_ENTRY t).addr)
        && rs.any (fun r => r.1 == (R.TILE_STK t).addr))

/-- The list sets T4_MODE on tile `t`: its last entry for CTRL has bit 0 set. -/
def setsT4 (rs : List (Nat × Nat)) (t : Nat) : Bool :=
  match (rs.filter (fun r => r.1 == (R.TILE_CTRL t).addr)).getLast? with
  | some r => r.2 % 2 == 1
  | none => false

/-- 0x0A: T4_MODE on two tiles of one herd. -/
def Dev.checkT4 (d : Dev) (b : Bool) : Bool :=
  (List.range 4).all (fun h => ((List.range 4).filter (fun m => setsT4 (d.regList b) (4 * h + m))).length ≤ 1)

/-- 0x0B: the prime list. -/
def Dev.checkPrime (d : Dev) (b : Bool) : Bool :=
  (d.primeList b).all (fun p => p.1 % 2 == 0 && p.1 < 0x80000 * 16)

/-- The package is committed as a FULL load: its FLAGS say so (R187), or it is the partner's program (R405). -/
def Dev.loadsFull (d : Dev) (b : Bool) : Bool := d.pkgFull b || d.prog.fullLoad

/-- The ERR code of the first check that fails up to 0x0B; 0 when every one passes (Table 7.8). -/
def Dev.packageErr (d : Dev) (b : Bool) : Nat :=
  if d.pw b 0 != 0x4F43 || d.pw b 1 / 256 != 1 then 0x01
  else if !d.checkSections b then 0x02
  else if !d.checkCrc b then 0x03
  else if !d.loadsFull b && d.pd b 6 != d.get R.PROG_ID then 0x04
  else if !d.checkDirectory b then 0x05
  else if !d.checkDescs b then 0x06
  else if !d.checkOrder b then 0x07
  else if !d.checkFmap b then 0x08
  else if !d.checkRegs b then 0x09
  else if !d.checkT4 b then 0x0A
  else if !d.checkPrime b then 0x0B
  else 0

/-! ## Counts and bound -/

/-- New instances and mismatched instances of the package (R189). -/
def Dev.newMismatched (d : Dev) (b : Bool) : Nat × Nat :=
  let old := d.oldDirectory
  let dir := d.directory b
  let known := dir.filter (fun e => old.any (fun o => o.ident == e.ident))
  (dir.length - known.length, (known.filter (fun e => (carriedFrom old e).isNone)).length)

/-- The force entries that an entry of the table is: LO and HI of every entry with EN = 1 and ORPH = 0, by number. The
table is read from the listed registers, since EN resets to 0. -/
def Dev.forceEntries (d : Dev) : List (Nat × BitVec 32 × BitVec 32) :=
  d.regs.filterMap (fun e =>
    if 0xE4000 ≤ e.1 && e.1 < 0xE8000 && e.1 % 4 == 2 && tst e.2.toNat 31 then
      some ((e.1 - 0xE4000) / 4, d.rd (e.1 - 2), e.2)
    else none)

/-- The bound of R193 for the package, with T_cw = 2,000 ns. A FULL package moves, converts and fills no word, and R191
processes no entry (R187). -/
def Dev.swapBound (d : Dev) (b : Bool) : Nat :=
  let old := d.oldDirectory
  let dir := d.directory b
  let base := 1000 + 40 * dir.length + 20 * (d.sect b 2).2 + 20 * (d.sect b 0).2 + 2000
  let cds := dir.flatMap (fun e =>
    match carriedFrom old e with
    | none => []
    | some o => (d.descsOf b e).map (fun c => (o, e, c)))
  let wCopy := (cds.map (fun x => if x.2.2.op == 0 && !skipsCopy x.1 x.2.1 x.2.2 then x.2.2.count
    else if x.2.2.op == 5 then (x.2.2.count + 15) / 16 + 1 else 0)).sum
  let wConv := (cds.map (fun x => if 1 ≤ x.2.2.op && x.2.2.op ≤ 4 then x.2.2.count else 0)).sum
  let wFill := (cds.map (fun x => if x.2.2.isFill then x.2.2.count else 0)).sum
    + ((dir.filter (fun e => (carriedFrom old e).isNone)).map (·.size)).sum
  let nForce := (d.forceEntries.filter (fun f => !tst f.2.2.toNat 30)).length
  if d.loadsFull b then base
  else base + (wCopy + 3) / 4 + (wConv + 1) / 2 + (wFill + 7) / 8 + 10 * nForce

end Sys2Proof.Machine
end

