-- ==== Sys2Proof/Machine/PairPoint.lean ====
section
/-! DEFINITION. The mirror stream of the active pair member (16_pair_redundancy.md): the lines of 64 words, and the
closing of a mirror point (R394 to R399). -/

namespace Sys2Proof.Machine

/-- A word of the W space as it stands, without an access: what a mirrored line carries. -/
def Dev.peek (d : Dev) (w : Nat) : BitVec 16 :=
  match d.sharedLoc w with
  | .mem .mram off => d.nvWord off
  | .mem a off => d.mw a off
  | .reg r => BitVec.ofNat 16 ((d.rd (r / 2 * 2)).toNat / 65536 ^ (r % 2))
  | .none => 0

/-- The 64 words of a line (R394). -/
def Dev.lineWords (d : Dev) (l : Nat) : List (BitVec 16) := (List.range 64).map (fun i => d.peek (64 * l + i))

/-- The mirror stream flows: this member is active and its partner SYNCING or SYNCED (R394, R405). -/
def Dev.mirroring (d : Dev) : Bool :=
  d.get R.PAIR_STAT_ROLE == 1 && (d.get R.PAIR_STAT_SYNC == 1 || d.get R.PAIR_STAT_SYNC == 2)

/-- A Mule-table write is to be mirrored with the next cycle start (R392). -/
def Dev.noteMuleWr (a : Nat) (mask val : BitVec 32) (d : Dev) : Dev :=
  if d.mirroring && 0xD0000 ≤ a && a < 0xE0000 then
    { d with pair := { d.pair with mwOut := d.pair.mwOut ++ [{ addr := BitVec.ofNat 24 a, mask := mask, val := val }] } }
  else d

/-- A mirror point closes (R395): its dirty lines leave as LINE frames, then POINT_END with the point's number, the scan
number, whether it carries a committed image, the cycle that a handover names, and COLD of the scan. A closing moment that
finds the previous point unsent is not taken; it counts as a lag (R399). -/
def Dev.closePoint (image : Bool) (handover : Option Nat) (d : Dev) : Dev :=
  if !d.mirroring then { d with pair := { d.pair with lines := [] } }
  else if d.pair.unsent then
    let d := ((d.setF R.PAIR_STAT_LAG).satAdd R.MIR_LAG_CNT 1).raise 9
    if d.flag R.PAIR_CFG_POLICY && d.get R.SCAN_STAT_STATE == 5 then { d with pair := { d.pair with late := some image } } else d
  else
    let p := (d.pair.point + 1) % 2 ^ 32
    let d' := d.emits (d.pair.lines.map (fun l => .pair 0x25 (p :: 64 * l :: (d.lineWords l).map (·.toNat))))
    let d' := d'.emit (.pair 0x26 [p, d.get R.SCAN_CNT_CNT, b2n image, b2n handover.isSome, handover.getD 0, d.get R.SCAN_STAT_COLD])
    let d' := d'.put R.MIR_LAG_LINES (satU 16 d.pair.lines.length)
    { d' with pair := { d'.pair with point := p, lines := [], unsent := true, late := none } }

end Sys2Proof.Machine
end

