-- ==== Sys2Proof/Machine/Prog.lean ====
section
/-! DEFINITION. Online change (07_online_change.md): the staging states and commands (R180, R181), the carry-over engine
(R190), the relocation of forces (R191), and the swap (R186 to R188, R192). -/

namespace Sys2Proof.Machine

/-! ## The carry-over engine (R190) -/

/-- A word of instance memory. -/
def Dev.im (d : Dev) (i : Nat) : Nat := (d.mw .inst i).toNat

/-- Write a word of instance memory. -/
def Dev.setIm (i v : Nat) (d : Dev) : Dev := d.setMw .inst i (BitVec.ofNat 16 v)

/-- A value limited by SAT16 or USAT16 is counted (CHG_COUNT.CONV_SAT). -/
def Dev.countSat (b : Bool) (d : Dev) : Dev := if b then d.satAdd R.CHG_COUNT_CONV_SAT 1 else d

/-- One bit of BITCOPY. -/
def Dev.copyBit (da db sa sb j : Nat) (d : Dev) : Dev :=
  let s := bitOf (d.im (sa + (sb + j) / 16)) ((sb + j) % 16)
  let o := da + (db + j) / 16
  let k := (db + j) % 16
  d.setIm o (if s = 1 then setBit (d.im o) k else clrBit (d.im o) k)

/-- One copy descriptor of a carried instance with source base `sb` and destination base `db`. -/
def Dev.runCopy (sbase dbase : Nat) (c : Desc) (d : Dev) : Dev :=
  let sa := sbase + c.src
  let da := dbase + c.dst
  match c.op with
  | 0 => if sa = da then d else d.setMws .inst da (d.mws .inst sa c.count)
  | 1 => upTo c.count (fun j d =>
      let v := toU 32 (sx 16 (d.im (sa + j)))
      (d.setIm (da + 2 * j) v).setIm (da + 2 * j + 1) (v / 65536)) d
  | 3 => upTo c.count (fun j d => (d.setIm (da + 2 * j) (d.im (sa + j))).setIm (da + 2 * j + 1) 0) d
  | 2 => upTo c.count (fun j d =>
      let v := sx 32 (d.md .inst (sa + 2 * j))
      let r := clampI (-32768) 32767 v
      (d.setIm (da + j) (toU 16 r)).countSat (r != v)) d
  | 4 => upTo c.count (fun j d =>
      let v := d.md .inst (sa + 2 * j)
      (d.setIm (da + j) (if 0xFFFF < v then 0xFFFF else v)).countSat (0xFFFF < v)) d
  | 5 => upTo c.count (fun j d => d.copyBit da c.dbit sa c.sbit j) d
  | _ => d

/-- The two passes over the new directory in bank `b`. -/
def Dev.carryOver (b : Bool) (d : Dev) : Dev :=
  let old := d.oldDirectory
  let dir := d.directory b
  let pass1 := dir.foldl (fun d e =>
    match carriedFrom old e with
    | none => d
    | some o => ((d.descsOf b e).filter (fun c => !c.isFill)).foldl (fun d c => d.runCopy o.base e.base c) d) d
  dir.foldl (fun d e =>
    match carriedFrom old e with
    | none => d.fillMw .inst e.base 0 e.size
    | some _ => ((d.descsOf b e).filter (·.isFill)).foldl
        (fun d c => d.fillMw .inst (e.base + c.dst) (BitVec.ofNat 16 c.src) c.count) d) pass1

/-! ## The force table (R171, R174, R191) -/

/-- Write a force-table register: any write to word +3 clears ORPH and the reserved bits (R171); while a swap runs the
write is held (R188 step 2). -/
def Dev.wrForce (a : Nat) (hi : Bool) (w : Wr) (d : Dev) : Dev :=
  let v : BitVec 32 := if hi && w.meets 31 16 then (w.over (d.rd a)) &&& 0x8000FFFF else w.over (d.rd a)
  let m : BitVec 32 := if hi && w.meets 31 16 then w.mask ||| 0x7FFF0000 else w.mask
  if w.mask == 0 then d
  else if d.get R.PROG_STAT_STATE == 5 then
    { d with prog := { d.prog with held := d.prog.held ++ [{ key := a, mask := m, val := v }] } }
  else (d.wrReg a v).markLine a

/-- The force unit's write of part of a table granule (R24): not made where the granule is uncorrectable, whose check is
logged. -/
def Dev.tabStore (unit a : Nat) (f : Dev → Dev) (d : Dev) : Dev :=
  let (bad, d) := d.readGrans (tabGran a)
  if bad.isEmpty then f d else d.unitMcs unit bad

/-- CLR_ALL and CLR_ORPH: word +3 of every entry, or of every orphan, is written with EN = 0 and ORPH = 0 (R174). -/
def Dev.clearForces (orphOnly : Bool) (d : Dev) : Dev :=
  d.regs.foldl (fun d e =>
    if 0xE4000 ≤ e.1 && e.1 < 0xE8000 && e.1 % 4 == 2 && (!orphOnly || tst e.2.toNat 30) then
      d.tabStore 0xF0 e.1 (fun d => d.wrForce e.1 true { mask := 0xFFFF0000, val := 0, wo := false })
    else d) d

/-- FORCE_CTRL; while a swap runs the writes to the table wait for its end (R188 step 2). -/
def Dev.wrForceCtrl (w : Wr) (d : Dev) : Dev :=
  if d.get R.PROG_STAT_STATE == 5 && (w.does R.FORCE_CTRL_CLR_ALL || w.does R.FORCE_CTRL_CLR_ORPH) then
    { d with prog := { d.prog with held := d.prog.held ++ [{ key := R.FORCE_CTRL.addr, mask := w.mask, val := w.val }] } }
  else
    let d := if w.does R.FORCE_CTRL_CLR_ALL then d.clearForces false else d
    if w.does R.FORCE_CTRL_CLR_ORPH then d.clearForces true else d

/-- One force entry under the relocation map. -/
def Dev.relocate (map : List FMapEnt) (f : Nat × BitVec 32 × BitVec 32) (d : Dev) : Dev :=
  let lo := f.2.1.toNat
  let hi := f.2.2.toNat
  let word0 := lo % 65536
  let mask := lo / 65536
  let value := hi % 65536
  if tst hi 30 then d
  else
    match map.filter (fun m => m.old == word0 && (m.oldMask &&& mask) != 0) with
    | [] => d
    | m :: more =>
      if !more.isEmpty || (mask &&& (65535 - m.oldMask)) != 0 || m.del then
        d.tabStore 0xF0 (R.FORCE_HI f.1).addr (fun d => d.wrReg (R.FORCE_HI f.1).addr (BitVec.ofNat 32 (setBit hi 30)))
      else
        let mask' := shiftI mask m.shift % 65536
        let value' := shiftI (value &&& mask) m.shift % 65536
        d.tabStore 0xF0 (R.FORCE_LO f.1).addr (fun d =>
          (d.wrReg (R.FORCE_LO f.1).addr (BitVec.ofNat 32 (m.new + 65536 * mask'))).wrReg (R.FORCE_HI f.1).addr
            (BitVec.ofNat 32 (value' + hi / 65536 * 65536)))

/-- Every force entry under the map of bank `b`. -/
def Dev.relocateForces (b : Bool) (d : Dev) : Dev := d.forceEntries.foldl (fun d f => d.relocate (d.fmap b) f) d

/-! ## The swap (R188) -/

/-- The mirror point of step 1 closes and the change marker follows it (R195). -/
def Dev.sendMarker (d : Dev) : Dev := (d.closePoint false none).emit (.pair 0x28 [4, d.pkgId d.inactive])

/-- Step 1 begins, when a package is PENDING: entry of preempting events stops. In a pair the active member closes a
mirror point and sends the change marker (R195); while the point before is unsent, both wait for its acknowledgement
(R399), and the swap with them. -/
def Dev.swapStart (d : Dev) : Dev :=
  if d.get R.PROG_STAT_STATE == 4 && !d.prog.swapWait && !d.sys.fatal then
    let late := d.mirroring && d.pair.unsent
    let d := if late then d.closePoint false none else if d.mirroring then d.sendMarker else d
    ({ d with prog := { d.prog with swapWait := true, markDue := late } }).swapEnter
  else d

/-- The point and the marker that step 1 owes leave, once the point before has been acknowledged or no stream flows. -/
def Dev.markNow (d : Dev) : Dev :=
  if d.prog.markDue then
    ({ (if d.mirroring then d.sendMarker else d) with prog := { d.prog with markDue := false } }).swapEnter
  else d

/-- TILE[t].CTRL (R137): T4_MODE is refused on a second tile of a herd. -/
def Dev.wrTileCtrl (t : Nat) (w : Wr) (d : Dev) : Dev :=
  let other := (List.range 4).any (fun m => t / 4 * 4 + m != t && d.flag (R.TILE_CTRL_T4_MODE (t / 4 * 4 + m)))
  if w.ones (R.TILE_CTRL_T4_MODE t) == 1 && other then
    (d.put (R.TILE_CTRL_T4_MODE t) 0).setF (R.TILE_STATE_T4_DENY t)
  else
    let anew := w.ones (R.TILE_CTRL_T4_MODE t) == 1 && !d.flag (R.TILE_CTRL_T4_MODE t)
    let d := d.writeField (R.TILE_CTRL t).addr w ⟨0, 0, .rw⟩
    if anew then d.updCore (Fin.ofNat 17 (t % 16)) (fun s => { s with t4New := true }) else d

/-- An entry of the register load list is written (R183). T4_MODE of a second tile of a herd is refused as in any write
(R137). -/
def Dev.listWrite (r : Nat × Nat) (d : Dev) : Dev :=
  let w := Wr.whole (BitVec.ofNat 32 r.2)
  match (List.range 16).find? (fun t => (R.TILE_CTRL t).addr == r.1) with
  | some t => d.wrTileCtrl t w
  | none => d.writePlain r.1 w

/-- The handler address of a pending event after step 5 (R188 step 8). -/
def Dev.rehandle (t : Fin 16) (e : PendEv) (d : Dev) : PendEv :=
  match d.boundTask e.src t.val with
  | some k => { e with pc := BitVec.ofNat 21 (d.get (R.CTASK_PC k)), task := some k }
  | none => { e with pc := BitVec.ofNat 21 (d.get (R.EV_VEC_PC e.src)), task := none }

/-- A write that step 2 held takes effect. -/
def Dev.applyHeld (h : HeldReg) (d : Dev) : Dev :=
  if h.key == R.FORCE_CTRL.addr then d.wrForceCtrl { mask := h.mask, val := h.val, wo := true }
  else d.tabStore 0xF0 h.key (fun d =>
    (d.wrReg h.key ((d.rd h.key &&& ~~~h.mask) ||| (h.val &&& h.mask))).markLine h.key)

/-- Steps 3 to 8, with the commit point (R192). -/
def Dev.swapCommit (d : Dev) : Dev :=
  let nb := d.inactive
  let full := d.loadsFull nb
  let id := d.pkgId nb
  let len := d.pkgLen nb
  let list := d.regList nb
  let d := d.put R.CHG_COUNT_CONV_SAT 0
  let d := if full then d else (d.carryOver nb).relocateForces nb
  let d := list.foldl (fun d r => d.listWrite r) d
  let d := (d.updTiles (fun _ c =>
    { c with s0 := RegSet.zero, s1 := RegSet.zero, latch := .empty, loads := [], t4Loaded := false, t4New := true
             runAt := none })).icClearAll
  let d := d.writeCommitRec (b2n d.prog.storeB) id len
  let d := d.put R.CHG_LAST_NS (satU 32 ((d.time - d.prog.swapAt).toNat))
  let d := d.put R.PROG_STAT_STATE 0
  let d := d.put R.PROG_STAT_ACTIVE (b2n nb)
  let d := d.put R.PROG_ID id
  let held := d.prog.held
  let d := { d with prog := { d.prog with loaded := true, held := [], fullLoad := false } }
  let d := held.foldl (fun d h => d.applyHeld h) d
  let d := (List.finRange 16).foldl (fun d t =>
    d.updCore (tileCore t) (fun c => { c with pend := c.pend.map (fun e => d.rehandle t e) })) d
  (d.updScan (fun s => { s with chg := true, mustCold := s.mustCold || full })).hostPoll

/-! ## Commands (Table 7.1) -/

/-- A command the state does not list. -/
def Dev.chgSeq (d : Dev) : Dev := d.setF R.PROG_STAT_SEQ

/-- A failure with its code. -/
def Dev.chgFail (err : Nat) (d : Dev) : Dev := (d.put R.PROG_STAT_STATE 6).put R.PROG_STAT_ERR err

/-- What the active member of a pair sends of a change (R194). -/
def Dev.chgMirror (ws : List Nat) (d : Dev) : Dev := if d.mirroring then d.emit (.pair 0x28 ws) else d

/-- OPEN. -/
def Dev.chgOpen (d : Dev) : Dev :=
  let s := d.get R.PROG_STAT_STATE
  if s == 0 || s == 1 || s == 3 || s == 6 then
    (((d.put R.PROG_STAT_STATE 1).put R.STAGE_PTR_PTR 0).put R.PROG_STAT_ERR 0).chgMirror [0]
  else d.chgSeq

/-- PREPARE. -/
def Dev.chgPrepare (d : Dev) : Dev := if d.get R.PROG_STAT_STATE == 1 then 
    { (d.put R.PROG_STAT_STATE 2).chgMirror [2] with prog := { d.prog with pairRes := none, checkEnd := none } }
  else d.chgSeq

/-- The partner is a SYNCED standby: its check counts (R186, R197). -/
def Dev.peerSynced (d : Dev) : Bool := d.get R.PAIR_STAT_SYNC == 2 && d.get R.PAIR_STAT_ROLE == 1

/-- COMMIT (R186). In STOP the swap starts at once (R187). -/
def Dev.chgCommit (d : Dev) : Dev :=
  if d.get R.PROG_STAT_STATE == 3 then
    if d.pkgFull d.inactive && d.get R.SCAN_STAT_STATE != 0 then d.chgFail 0x0E
    else if d.peerSynced && d.prog.pairRes != some true then d.chgFail 0x0C
    else
      let d := d.put R.PROG_STAT_STATE 4
      if d.get R.SCAN_STAT_STATE == 0 then d.swapStart else d
  else d.chgSeq

/-- ABORT; the standby drops the change too (R194). -/
def Dev.chgAbort (d : Dev) : Dev :=
  let s := d.get R.PROG_STAT_STATE
  if s == 0 then d
  else if s == 5 then d.chgSeq
  else
    let d := (d.put R.PROG_STAT_STATE 0).chgMirror [5]
    { d with prog := { d.prog with swapWait := false, markDue := false, checkEnd := none } }.hostPoll

/-- A write of CHG_CTRL.CMD. -/
def Dev.chgCmd (cmd : Nat) (d : Dev) : Dev :=
  match cmd with
  | 1 => d.chgOpen
  | 2 => d.chgPrepare
  | 3 => d.chgCommit
  | 4 => d.chgAbort
  | _ => d

/-- CHG_CTRL. -/
def Dev.wrChgCtrl (w : Wr) (d : Dev) : Dev := d.chgCmd (w.act R.CHG_CTRL_CMD)

/-- STAGE_PTR: taken in STAGING only. -/
def Dev.wrStagePtr (w : Wr) (d : Dev) : Dev :=
  if !w.meets 20 0 then d
  else if d.get R.PROG_STAT_STATE == 1 then d.put R.STAGE_PTR_PTR (w.over (d.rd R.STAGE_PTR.addr)).toNat
  else d.chgSeq

/-- Two words staged at STAGE_PTR for a requester (R181): a store of part of a granule (R24). -/
def Dev.stageWords (unit : Nat) (lo hi : BitVec 16) (d : Dev) : Dev :=
  let p := d.get R.STAGE_PTR_PTR
  if d.get R.PROG_STAT_STATE == 1 && p ≤ 0x1FFFFE then
    ((d.unitStore unit (wholeWords (.prog d.inactive) p [lo, hi])).put R.STAGE_PTR_PTR (p + 2)).chgMirror
      [1, p, lo.toNat, hi.toNat]
  else d.chgSeq

/-- STAGE_DATA: a write of both halves stages them. -/
def Dev.wrStageData (unit : Nat) (w : Wr) (d : Dev) : Dev :=
  if w.wo && w.covers 31 0 then d.stageWords unit (BitVec.ofNat 16 w.val.toNat) (BitVec.ofNat 16 (w.val.toNat / 65536)) else d

/-- The MRAM program-store copy that the commit record does not name (R184); copy 0 when there is no record. -/
def Dev.freeCopy (d : Dev) : Nat :=
  match d.commitRec with
  | some (0, _) => 1
  | _ => 0

/-- The granules of the package in bank `b`. -/
def Dev.pkgGrans (d : Dev) (b : Bool) : List (Arr × Nat) :=
  (List.range ((min (d.pkgLen b) 0x200000 + 3) / 4)).map (fun i => (.prog b, i))

/-- The commit unit reads the staged package: its check bits (R22), and the code of the first check that fails. A package
with an uncorrectable granule passes no check from its CRC on (log entry 71). -/
def Dev.readPackage (b : Bool) (d : Dev) : Nat × Dev :=
  let (bad, d) := d.readGrans (d.pkgGrans b)
  let err := d.packageErr b
  (if !bad.isEmpty && (err == 0 || 3 < err) then 3 else err, d.unitMcs 0xF0 bad)

/-- The result of a check (R184, R185, R197): VALID with the package in MRAM, or FAILED. -/
def Dev.checkResult (copyFail : Bool) (d : Dev) : Dev :=
  let b := d.inactive
  let (err, d) := d.readPackage b
  if err != 0 then d.chgFail err
  else
    let nm := d.newMismatched b
    let d := d.put R.CHG_COUNT_NEW (satU 16 nm.1)
    let d := d.put R.CHG_COUNT_MISMATCH (satU 8 nm.2)
    let d := d.put R.CHG_BOUND_NS (d.swapBound b)
    if d.peerSynced && d.prog.pairRes == some false then d.chgFail 0x0C
    else if copyFail then d.chgFail 0x0D
    else
      let copy := d.freeCopy
      let d := d.writeNvArr (copy * 0x200000) (d.mws (.prog b) 0 (d.pkgLen b))
      { (d.put R.PROG_STAT_STATE 3) with prog := { d.prog with storeB := copy == 1 } }

/-- Checking ends; a standby tells its partner the result (R194, R197). `copyFail`: the MRAM copy met an uncorrectable
error. With a SYNCED partner the own check waits for the partner's result. -/
def Dev.checkingEnd (copyFail : Bool) (d : Dev) : Dev :=
  if d.get R.PROG_STAT_STATE == 2 then
    if d.peerSynced && d.prog.pairRes.isNone then { d with prog := { d.prog with checkEnd := some copyFail } }
    else
      let d := { d with prog := { d.prog with checkEnd := none } }.checkResult copyFail
      let d :=
        if d.get R.PAIR_STAT_ROLE == 2 && d.get R.PAIR_STAT_SYNC != 0 then
          d.emit (.pair 0x28 [3, b2n (d.get R.PROG_STAT_STATE == 3)])
        else d
      d.hostPoll
  else d

/-- The own check that has ended goes on, once the partner's result is there or the partner is SYNCED no more. -/
def Dev.checkGoOn (d : Dev) : Dev :=
  match d.prog.checkEnd with
  | some cf => if d.peerSynced && d.prog.pairRes.isNone then d else d.checkingEnd cf
  | none => d

end Sys2Proof.Machine
end

