-- ==== Sys2Proof/Machine/Scan.lean ====
section
/-! DEFINITION. The scan (06_scan.md): the images and their halves (R144 to R147, R154), the states and their transitions
(R148 to R165), the force unit (R171 to R174) and the registers of the block. -/

namespace Sys2Proof.Machine

/-! ## Cycle times and port regions -/

/-- The cycle time in ns of a cycle time code (Table 10.1). -/
def cycleNs (ctc : Nat) : Nat := 15625 * 2 ^ ctc

/-- The cycle time of ring `x`. -/
def Dev.ringT (d : Dev) (x : Nat) : Nat := cycleNs (d.get (R.RING_CFG_CTC x))

/-- The length of the I region of port `k` (Table 6.3, R268, R311, R320). -/
def Dev.iLen (d : Dev) (k : Nat) : Nat :=
  if k = 0 then 8
  else if k ≤ 4 then 2 + 6 * d.get (R.RING_CFG_NNODE (k - 1))
  else 4 + 8 * d.get (R.CAN_IMG_INUM (k - 5))

/-- The length of the Q region of port `k` (R268, R312, R321). -/
def Dev.qLen (d : Dev) (k : Nat) : Nat :=
  if k = 0 then 2
  else if k ≤ 4 then 4 * d.get (R.RING_CFG_NNODE (k - 1))
  else 4 * d.get (R.CAN_IMG_QNUM (k - 5))

/-- The port has something to put into an I region: a ring with a node, a CAN channel with an I buffer. R146
gives a port that is not configured no region and does not say what makes a port configured: DEDUCED (log entry 74). -/
def Dev.iConf (d : Dev) (k : Nat) : Bool :=
  if k = 0 then true
  else if k ≤ 4 then d.get (R.RING_CFG_NNODE (k - 1)) != 0
  else d.get (R.CAN_IMG_INUM (k - 5)) != 0

/-- The enabled I regions as half-open ranges of I words. -/
def Dev.iRegions (d : Dev) : List (Nat × Nat) :=
  (List.range 13).filterMap (fun k =>
    if d.flag (R.PMAP_IEN k) && d.iConf k then some (d.get (R.PMAP_IBASE k), d.get (R.PMAP_IBASE k) + d.iLen k) else none)

/-- The enabled Q regions. -/
def Dev.qRegions (d : Dev) : List (Nat × Nat) :=
  (List.range 13).filterMap (fun k =>
    if d.flag (R.PMAP_QEN k) && d.qLen k != 0 then some (d.get (R.PMAP_QBASE k), d.get (R.PMAP_QBASE k) + d.qLen k) else none)

/-- The port map lets a start command take effect (R147). -/
def Dev.mapOk (d : Dev) : Bool :=
  disjointRanges d.iRegions && d.iRegions.all (fun r => 0x10 ≤ r.1 && r.2 ≤ 0x8000) && d.qRegions.all (fun r => r.2 ≤ 0x8000)

/-- The port map as the last start took it: field `f` of PMAP[k]. -/
def Dev.pmapOf (d : Dev) (k : Nat) : BitVec 32 := d.scan.pmap.getD k 0

/-- First I word of port `k`, when its I region is enabled. -/
def Dev.iBase (d : Dev) (k : Nat) : Option Nat :=
  let conf := if 1 ≤ k && k ≤ 4 then (d.ring (k - 1)).nnodeI != 0 else d.iConf k
  if tst (d.pmapOf k).toNat 15 && conf then some ((d.pmapOf k).toNat % 0x8000) else none

/-- First Q word of port `k`, when its Q region is enabled. -/
def Dev.qBase (d : Dev) (k : Nat) : Option Nat :=
  if tst (d.pmapOf k).toNat 31 then some ((d.pmapOf k).toNat / 65536 % 0x8000) else none

/-! ## The I image -/

/-- The filling half. -/
def Dev.iFill (d : Dev) : Arr := .iHalf (!d.scan.iSnap)

/-- Copy a granule word by word from one array to another; `f` gives what a word becomes on the way. An uncorrectable
source is logged for the commit unit, and the copy carries the error (DESIGN CHOICE, log entry 71). -/
def Dev.copyGran (src dst : Arr) (g : Nat) (f : Nat → BitVec 16 → BitVec 16) (d : Dev) : Dev :=
  let put (d : Dev) : Dev := upTo 4 (fun i d => d.setMw dst (4 * g + i) (f (4 * g + i) (d.mw src (4 * g + i)))) d
  match d.readGran src (4 * g) with
  | some d => (put d).setEcc dst (4 * g) .ok
  | none => ((put d).setEcc dst (4 * g) .unc).unitMc 0xF0 src (4 * g)

/-- Copy one granule forward: a forced word as it stood before the force (R154). -/
def Dev.copyFwd (g : Nat) (d : Dev) : Dev :=
  let pre := d.scan.preForce
  let d' := d.copyGran (.iHalf d.scan.iSnap) d.iFill g (fun o v => ((pre.find? (fun p => p.1 == o)).map (·.2)).getD v)
  d'.updScan (fun s => { s with copyList := s.copyList.filter (· != g) })

/-- A word written into the filling half: a granule not yet copied forward is copied first. -/
def Dev.fillI (unit o : Nat) (v : BitVec 16) (d : Dev) : Dev :=
  let d := if d.scan.copyList.contains (o / 4) then d.copyFwd (o / 4) else d
  let d := d.unitStore unit [(d.iFill, o, 0xFFFF, v)]
  d.updScan (fun s => { s with iWritten := insNat (o / 4) s.iWritten })

/-- Ports hold their writes: from the end of copy-forward in SNAP until the flip (R153 steps 2 to 5). -/
def Dev.iHolding (d : Dev) : Bool := d.get R.SCAN_STAT_STATE == 2 && d.scan.copyList.isEmpty

/-- A word written by a port into its I region (R153, R155). -/
def Dev.writeI (unit o : Nat) (v : BitVec 16) (d : Dev) : Dev :=
  if d.iHolding then d.updScan (fun s => { s with heldI := s.heldI ++ [(unit, o, v)] }) else d.fillI unit o v

/-- Words written into the I region of port `k` from word `o` of the region upward. -/
def Dev.portI (k unit o : Nat) (ws : List (BitVec 16)) (d : Dev) : Dev :=
  match d.iBase k with
  | none => d
  | some b => (List.range ws.length).foldl (fun d i => d.writeI unit (b + o + i) (ws.getD i 0)) d

/-- The Q region of port `k` as a pickup of `unit` reads it from the committed half (R159): `n` words. -/
def Dev.portQ (k unit n : Nat) (d : Dev) : Option (List (BitVec 16)) × Dev :=
  match d.qBase k with
  | none => (none, d)
  | some b =>
    let (ws, _, d) := d.unitReads unit (.qHalf (!d.scan.qShadow)) b n
    (some ws, d)

/-! ## Forces -/

/-- The enabled force entries, in ascending order, of the I area or the Q area: word, mask, value (R172). -/
def Dev.forcesOf (d : Dev) (q : Bool) : List (Nat × BitVec 16 × BitVec 16) :=
  d.forceEntries.filterMap (fun f =>
    if tst f.2.1.toNat 15 == q then
      some (f.2.1.toNat % 0x8000, BitVec.ofNat 16 (f.2.1.toNat / 65536), BitVec.ofNat 16 f.2.2.toNat)
    else none)

/-- The force unit reads the enabled entries of an area (R173): an entry in an uncorrectable granule of the table is logged
and not applied (log entry 71). -/
def Dev.readForces (q : Bool) (d : Dev) : List (Nat × BitVec 16 × BitVec 16) × Dev :=
  let all := d.forceEntries.filter (fun f => tst f.2.1.toNat 15 == q)
  let (bad, d) := d.readGrans (all.map (fun f => (.forceTab, f.1)))
  ((all.filter (fun f => !bad.contains (.forceTab, f.1))).map (fun f =>
    (f.2.1.toNat % 0x8000, BitVec.ofNat 16 (f.2.1.toNat / 65536), BitVec.ofNat 16 f.2.2.toNat)), d.unitMcs 0xF0 bad)

/-- A masked store of the force unit (R24): none where its granule is uncorrectable, which is logged. -/
def Dev.forceStore (a : Arr) (f : Nat × BitVec 16 × BitVec 16) (d : Dev) : Option Dev := d.storeGran a f.1 [f]

/-- Apply one I force to the filling half, keeping the word as it stood (R154). -/
def Dev.forceI (f : Nat × BitVec 16 × BitVec 16) (d : Dev) : Dev :=
  match d.forceStore d.iFill f with
  | none => d.unitMc 0xF0 d.iFill f.1
  | some d' =>
    d'.updScan (fun s => { s with
      preForce := if s.preForce.any (fun p => p.1 == f.1) then s.preForce else (f.1, d.mw d.iFill f.1) :: s.preForce
      lastForced := insNat (f.1 / 4) s.lastForced
      iWritten := insNat (f.1 / 4) s.iWritten })

/-- Apply one Q force to the shadow half; its granule is dirty (R157). -/
def Dev.forceQ (f : Nat × BitVec 16 × BitVec 16) (d : Dev) : Dev :=
  match d.forceStore (.qHalf d.scan.qShadow) f with
  | none => d.unitMc 0xF0 (.qHalf d.scan.qShadow) f.1
  | some d' => (d'.markDirty (f.1 / 4)).markLine (0x28000 + f.1)

/-- The number of enabled entries of an area, and of orphans (R174). -/
def Dev.forceCount (d : Dev) (q : Bool) : Nat := (d.forcesOf q).length
def Dev.orphanCount (d : Dev) : Nat := (d.forceEntries.filter (fun f => tst f.2.2.toNat 30)).length

/-! ## The Q image -/

/-- The dirty granules. -/
def Dev.dirtyGranules (d : Dev) : List Nat := if d.scan.dirtyAll then List.range 8192 else d.scan.dirty

/-- Copy the dirty granules from one half to the other. -/
def Dev.copyQ (src dst : Bool) (d : Dev) : Dev :=
  let one (d : Dev) (g : Nat) : Dev := d.copyGran (.qHalf src) (.qHalf dst) g (fun _ v => v)
  if d.scan.dirtyAll then
    ((d.ecc.filter (fun e => e.1 % 64 == arrCode (.qHalf src))).map (fun e => e.1 / 64)).foldl one
      (d.copyArr (.qHalf dst) (.qHalf src))
  else d.scan.dirty.foldl one d

/-- Clear the dirty map and release the held stores: they take effect in the shadow half and are dirty for the next
commit (R158 step 5, R160). -/
def Dev.releaseHeld (d : Dev) : Dev :=
  let hs := d.scan.heldQ
  let d := d.updScan (fun s => { s with dirty := [], dirtyAll := false, heldQ := [], qFlipped := false })
  hs.foldl (fun d h =>
    match d.storeGran (.qHalf d.scan.qShadow) h.off [(h.off, h.mask, h.val)] with
    | some d => (d.markDirty (h.off / 4)).markLine (0x28000 + h.off)
    | none =>
      match h.by_ with
      | some c => d.coreMc c (.qHalf d.scan.qShadow) h.off
      | none => d.unitMc 0xFB (.qHalf d.scan.qShadow) h.off) d

/-! ## States -/

/-- Ring `x` runs. -/
def Dev.ringInRun (d : Dev) (x : Nat) : Bool := d.get (R.RING_STAT_STATE x) == 5

/-- The cycle time of R_L, the running ring with the longest one (R407); 0 when none runs. -/
def Dev.longestT (d : Dev) : Nat :=
  (List.range 4).foldl (fun m x => if d.ringInRun x then max m (d.ringT x) else m) 0

/-- A planned switchover closes its point once the scan waits in GAP or STOP (R407 steps 1 and 2): cycle h is the first
cycle start of R_L 20 µs or more later. -/
def Dev.switchPoint (d : Dev) : Dev :=
  if d.pair.switch && d.pair.hand.isNone && !d.pair.unsent
      && (d.get R.SCAN_STAT_STATE == 0 || d.get R.SCAN_STAT_STATE == 6) && d.mirroring then
    let T := d.longestT
    let t := d.time.toNat + 20000
    let h := if T == 0 then t else (t + T - 1) / T
    let d := d.closePoint true (some (h % 2 ^ 32))
    { d with pair := { d.pair with hand := some (d.pair.point, if T == 0 then t else h * T), handAck := false } }
  else d

/-- Set SCAN_STAT.STATE. -/
def Dev.setScan (n : Nat) (d : Dev) : Dev := d.put R.SCAN_STAT_STATE n

/-- The scan enters SNAP: what belongs to the next scan now belongs to the scan in progress (R26). -/
def Dev.enterSnap (d : Dev) : Dev :=
  ((d.setScan 2).updScan (fun s => { s with
    began := d.time, reported := 0, overrun := false, skipNow := s.skipNext, skipNext := false,
    mcNow := s.mcNext, mcNext := false })).hostPoll

/-- The commit of a zero image with the Q forces on entering STOP (R150). -/
def Dev.stopOutput (d : Dev) : Dev :=
  if d.flag R.SCAN_CTRL_STOP_OUT then
    let d := (d.clearArr (.qHalf false)).clearArr (.qHalf true)
    let d := (d.forcesOf true).foldl (fun d f =>
      (d.setMasked (.qHalf false) f.1 f.2.1 f.2.2).setMasked (.qHalf true) f.1 f.2.1 f.2.2) d
    (d.updScan (fun s => { s with dirty := [], dirtyAll := false })).markLines 0x28000 0x2FFFF
  else d

/-- The scan enters STOP (R149, R150); a pending swap starts at once (R187). -/
def Dev.enterStop (d : Dev) : Dev :=
  (((d.setScan 0).updScan (fun s => { s with stopPend := false, resetSince := false })).stopOutput.swapStart).switchPoint.hostPoll

/-- The scan enters GAP; a pending swap starts (R187), and a waiting host snapshot read is gap work (R162). -/
def Dev.enterGap (d : Dev) : Dev :=
  let d := (d.setScan 6).updScan (fun s => { s with gapBegan := d.time })
  let d := d.updHif (fun h => { h with snapPend := d.firstSnap.isSome })
  d.swapStart.switchPoint.hostPoll

/-- One prime list entry (R152). -/
def Dev.prime (p : Nat × Bool × Nat) (d : Dev) : Dev :=
  let k := p.1 % 16
  d.unitStore 0xF0 [(.inst, p.1 / 16, BitVec.ofNat 16 (3 * 2 ^ k), BitVec.ofNat 16 ((2 + b2n p.2.1) * 2 ^ k))]

/-- Cold-start initialisation (R151, R152). The prime list is that of the active package, while one is active. -/
def Dev.initMem (d : Dev) : Dev :=
  let d := ((d.clearArr .mark).clearArr .inst).clearArr (.qHalf d.scan.qShadow)
  let d := (d.updScan (fun s => { s with dirtyAll := true, dirty := [] })).markLines 0x28000 0xBFFFF
  if d.prog.loaded then (d.primeList (d.get R.PROG_STAT_ACTIVE == 1)).foldl (fun d p => d.prime p) d else d

/-- The unit number of the CAN controllers (Table 1.2). -/
def canUnit : Nat := 0xF6

/-- The first word of the channel's live area. -/
def canLive (c : Nat) : Nat := 0x2000 + c * 0x100

/-- The I region of CAN channel `c` repeats its live words from the start of the scan on (R311). -/
def Dev.canFill (c : Nat) (d : Dev) : Dev :=
  if (d.iBase (5 + c)).isNone then d
  else
    let live := (List.range 4) ++ (List.range (8 * d.get (R.CAN_IMG_INUM c))).map (· + 0x10)
    let (ws, _, d) := d.unitWords canUnit (live.map (fun o => (.live, canLive c + o)))
    d.portI (5 + c) canUnit 0 ws

/-- A start command (R147, R149). A standby takes none (R386). -/
def Dev.scanStart (cold : Bool) (d : Dev) : Dev :=
  if d.get R.SCAN_STAT_STATE != 0 || d.get R.PAIR_STAT_ROLE == 2 || d.sys.fatal then d
  else if !d.mapOk then d.setF R.SCAN_STAT_MAP_ERR
  else
    let cold := cold || d.scan.resetSince || d.scan.mustCold
    let d := d.put R.SCAN_STAT_SKIP_CNT 0
    let d := d.updScan (fun s => { s with
      pmap := (List.range 13).map (fun k => d.rd (R.PMAP k).addr), first := true, mustCold := false, resetSince := false })
    let d := (List.range 4).foldl (fun d x => d.updRing x (fun r => { r with nnodeI := d.get (R.RING_CFG_NNODE x) })) d
    let d := upTo 8 (fun c d => d.canFill c) d
    if cold then ((d.setF R.SCAN_STAT_COLD).setScan 1).initMem else (d.clrF R.SCAN_STAT_COLD).enterSnap

/-- A stop command (R149). -/
def Dev.scanStop (d : Dev) : Dev :=
  match d.get R.SCAN_STAT_STATE with
  | 0 => d
  | 6 => if d.sys.fatal then d else d.enterStop
  | _ => d.updScan (fun s => { s with stopPend := true })

/-- SCAN_CTRL. -/
def Dev.wrScanCtrl (w : Wr) (d : Dev) : Dev :=
  let d := d.writeField R.SCAN_CTRL.addr w ⟨3, 3, .rw⟩
  let d := if w.does R.SCAN_CTRL_MAX_CLR then d.put R.SCAN_MAX_NS 0 else d
  match w.act R.SCAN_CTRL_CMD with
  | 1 => d.scanStart false
  | 2 => d.scanStart true
  | 4 => d.scanStop
  | _ => d

/-- INIT ends: SNAP, or STOP after a stop command, and then the next start is cold (R149). -/
def Dev.initDone (d : Dev) : Dev :=
  if d.get R.SCAN_STAT_STATE == 1 && !d.sys.fatal then
    if d.scan.stopPend then (d.enterStop).updScan (fun s => { s with mustCold := true }) else d.enterSnap
  else d

/-- The flags of I word 0x0000 (Table 6.2). -/
def Dev.iFlags (d : Dev) : Nat :=
  b2n d.scan.first + 2 * d.get R.SCAN_STAT_COLD + 4 * b2n d.scan.chg + 8 * b2n d.scan.skipped
    + 16 * b2n (!d.forceEntries.isEmpty) + 32 * b2n d.scan.takeover

/-- The 16 system input words (Table 6.2). -/
def Dev.sysWords (d : Dev) : List (BitVec 16) :=
  wordsLE 1 d.iFlags ++ wordsLE 2 (d.get R.SCAN_CNT_CNT + 1) ++ [0] ++ wordsLE 4 d.time.toNat
    ++ wordsLE 2 (d.get R.SCAN_LAST_NS) ++ [0, 0, 0, 0, 0, 0]

/-- The scan has overrun: OVR and event 3, and no commit (R163). -/
def Dev.markOverrun (d : Dev) : Dev :=
  ((d.setF R.SCAN_STAT_OVR).updScan (fun s => { s with skipNow := true })).raise 3

/-- Steps 1 to 6 of R153: the flip of the I image with its strand start. A scan that has overrun in SNAP starts no strand
(R163). Table 1.2 gives the commit unit no unit address: DESIGN CHOICE, its own accesses are logged under 0xF0, the
Bellwether's (log entry 60). -/
def Dev.iFlip (d : Dev) : Dev :=
  if d.get R.SCAN_STAT_STATE == 2 && d.scan.copyList.isEmpty && !d.sys.fatal then
    let again := d.scan.lastForced
    let d := d.updScan (fun s => { s with preForce := [], lastForced := [] })
    let ws := d.sysWords
    let d := (List.range 16).foldl (fun d i => d.fillI 0xF0 i (ws.getD i 0)) d
    let (fs, d) := d.readForces false
    let d := fs.foldl (fun d f => d.forceI f) d
    let held := d.scan.heldI
    let d := d.updScan (fun s => { s with
      iSnap := !s.iSnap, copyList := again.foldl (fun l g => insNat g l) s.iWritten, iWritten := [], heldI := []
      first := false, chg := false, takeover := false })
    let d := d.put R.SCAN_CNT_CNT (d.get R.SCAN_CNT_CNT + 1)
    let d := d.setScan 3
    let d := held.foldl (fun d h => d.fillI h.1 h.2.1 h.2.2) d
    if d.scan.overrun then
      ((List.finRange 16).foldl (fun d t => d.reportEnd t) d).markOverrun
    else (List.finRange 16).foldl (fun d t => d.strandStart t) d
  else d

/-- Copy-forward ends (R154). -/
def Dev.copyFwdAll (d : Dev) : Dev := d.scan.copyList.foldl (fun d g => d.copyFwd g) d

/-- Every tile has reported scan end. -/
def Dev.allReported (d : Dev) : Bool := d.scan.reported % 65536 == 65535

/-- BARRIER begins (R156). -/
def Dev.barrierStart (d : Dev) : Dev :=
  if d.get R.SCAN_STAT_STATE == 3 && d.allReported && !d.sys.fatal then d.setScan 4 else d

/-- The partner must acknowledge a point before the flip (R397): SYNC_COMMIT with a SYNCED partner. -/
def Dev.syncCommit (d : Dev) : Bool :=
  d.get R.PAIR_STAT_ROLE == 1 && d.flag R.PAIR_CFG_POLICY && d.get R.PAIR_STAT_SYNC == 2

/-- Step 3 of COMMIT with the copy-forward of step 4 (R158, R159). Under SYNC_COMMIT it waits for the acknowledgement
(R397). -/
def Dev.qFlip (d : Dev) : Dev :=
  if d.get R.SCAN_STAT_STATE == 5 && !d.scan.qFlipped && !d.sys.fatal && !(d.syncCommit && (d.pair.unsent || d.pair.late.isSome)) then
    let d := d.updScan (fun s => { s with qShadow := !s.qShadow, qFlipped := true })
    d.copyQ (!d.scan.qShadow) d.scan.qShadow
  else d

/-- The escalation count at a scan end (R27). -/
def Dev.countEsc (d : Dev) : Dev :=
  if d.scan.mcNow then
    let d := d.satAdd R.MC_STATUS_ESC_COUNT 1
    if d.get R.MC_CTRL_ESC_LIM != 0 && d.get R.MC_CTRL_ESC_LIM ≤ d.get R.MC_STATUS_ESC_COUNT then d.escalate else d
  else d.put R.MC_STATUS_ESC_COUNT 0

/-- The mirror interval in ns (R395). -/
def Dev.mirrorNs (d : Dev) : Nat := max 1 (d.get R.PAIR_CFG_MPER) * d.ringT (d.get R.PAIR_CFG_REF)

/-- The mirror point of a scan end (R395): after a ROLLBACK under SYNC_COMMIT; under ASYNC_COMMIT at the first scan end
at or after a multiple of the mirror interval. -/
def Dev.scanPoint (rollback : Bool) (d : Dev) : Dev :=
  if d.get R.PAIR_STAT_ROLE != 1 then d
  else if d.flag R.PAIR_CFG_POLICY then if rollback then d.closePoint false none else d
  else
    let due := d.pair.lastEnd / d.mirrorNs < d.time.toNat / d.mirrorNs
    let d := if due then d.closePoint (!rollback) none else d
    { d with pair := { d.pair with lastEnd := d.time.toNat } }

/-- The end of COMMIT or ROLLBACK: the held stores take effect, SCAN_LAST and SCAN_MAX are written, R27 counts, a mirror
point may close, and the scan enters GAP, or STOP after a stop command. -/
def Dev.scanEnd (rollback : Bool) (d : Dev) : Dev :=
  let d := d.releaseHeld
  let ns := satU 32 (d.time - d.scan.began).toNat
  let d := d.put R.SCAN_LAST_NS ns
  let d := if d.get R.SCAN_MAX_NS < ns then d.put R.SCAN_MAX_NS ns else d
  let d := (d.scanPoint rollback).countEsc
  if d.sys.fatal then d
  else if d.scan.stopPend then d.enterStop else d.enterGap

/-- COMMIT ends (R158). -/
def Dev.commitEnd (d : Dev) : Dev :=
  if d.get R.SCAN_STAT_STATE == 5 && d.scan.qFlipped && !d.sys.fatal then d.scanEnd false else d

/-- ROLLBACK ends (R165). -/
def Dev.rollbackEnd (d : Dev) : Dev :=
  if d.get R.SCAN_STAT_STATE == 7 && !d.sys.fatal then d.scanEnd true else d

/-- The ceiling has elapsed (R163). -/
def Dev.ceilingPast (d : Dev) : Bool :=
  d.get R.SCAN_CEIL_CEIL != 0 && d.get R.SCAN_CEIL_CEIL * 10 ≤ (d.time - d.scan.began).toNat

/-- Stop of set 0 by a scan overrun (R163): its outstanding accesses end by LOAD_RETURN and STORE_BUFFER_DRAIN, at the latest
when BARRIER ends. -/
def Dev.overrunTile (t : Fin 16) (d : Dev) : Dev :=
  if tst d.scan.reported t.val then d
  else
    (d.updCore (tileCore t) (fun s =>
      { s with run0 := .idle, strandSince := false, t4Preload := false, wait := if s.inSet1 then s.wait else .none })).reportEnd t

/-- A scan overrun (R163). During SNAP it takes effect at the flip. -/
def Dev.scanOverrun (d : Dev) : Dev :=
  if d.ceilingPast && !d.sys.fatal && !d.scan.overrun then
    let s := d.get R.SCAN_STAT_STATE
    if s == 2 then d.updScan (fun s => { s with overrun := true })
    else if s == 3 || s == 4 then
      let d := d.updScan (fun s => { s with overrun := true })
      ((List.finRange 16).foldl (fun d t => d.overrunTile t) d).markOverrun
    else d
  else d

/-- The gap time has elapsed; GAP above 100,000 is taken as 100,000 (R162). -/
def Dev.gapPast (d : Dev) : Bool := min (d.get R.SCAN_GAP_GAP) 100000 ≤ (d.time - d.scan.gapBegan).toNat

/-- GAP ends once its time and the pending gap work have ended (R162); a planned switchover holds the next SNAP
(R407). -/
def Dev.gapEnd (d : Dev) : Dev :=
  if d.get R.SCAN_STAT_STATE == 6 && d.gapPast && !d.prog.swapWait && d.get R.PROG_STAT_STATE != 5 && !d.hif.snapPend
      && !d.pair.hold && !d.sys.fatal then d.enterSnap
  else d

/-! ## Cycle task registers -/

/-- CTASK[k] (R168): an enable that names the ring, point and tile of another enabled entry is discarded whole. -/
def Dev.wrCtask (k : Nat) (w : Wr) (d : Dev) : Dev :=
  let a := (R.CTASK k).addr
  let v := (w.over (d.rd a)) &&& 0xFFDFFFFF
  let clash := (List.range 8).any (fun j =>
    j != k && d.flag (R.CTASK_EN j) && (d.rd (R.CTASK j).addr).toNat / 2 ^ 22 == v.toNat / 2 ^ 22)
  if tst v.toNat 31 && clash && w.mask != 0 then d.setF R.SCAN_STAT_CT_DENY else d.wrReg a v

/-- CTASK_STAT.ACT: the tasks with a release pending or running. -/
def Dev.taskAct (d : Dev) : Nat := (List.range 8).foldl (fun n k => if d.taskBusy k then setBit n k else n) 0

/-- TILE[t].STATE.RUN. -/
def CoreSt.runCode (c : CoreSt) : Nat :=
  if c.inSet1 then 2
  else match c.run0 with
    | .idle => 0
    | .active => 1
    | .stopped => 3

end Sys2Proof.Machine
end

