-- ==== Sys2Proof/Machine/Group.lean ====
section
/-! DEFINITION. The motion groups (09_trajectory.md): the queue (R232 to R235), taking and planning a segment (R231, R236),
the waits and the start of a segment (R237), the samples of a group (R238), its stops and their remainder (R239 to R242),
and its events (R243). -/

namespace Sys2Proof.Machine

/-! ## Events of a sample (R224, R243) -/

/-- Source `s` is due at the end of this sample, once for each cycle of cycle time `T`; 0: caused outside any cycle. -/
def Dev.mev (T s : Nat) (d : Dev) : Dev :=
  if T != 0 && d.mule.seen.contains (T, s) then d
  else { d with mule := { d.mule with
    evs := insNat s d.mule.evs, seen := if T = 0 then d.mule.seen else (T, s) :: d.mule.seen } }

/-- A cycle of every cycle time that divides `t` starts. -/
def Dev.newCycles (t : Nat) (d : Dev) : Dev :=
  { d with mule := { d.mule with seen := d.mule.seen.filter (fun e => t % e.1 != 0) } }

/-- The sources that are due are raised, once each. -/
def Dev.flushMev (d : Dev) : Dev :=
  let es := d.mule.evs
  es.foldl (fun d s => d.raise s) { d with mule := { d.mule with evs := [] } }

/-! ## The group's registers -/

def Dev.gState (d : Dev) (g : Nat) : Nat := d.get (R.GROUP_STAT_STATE g)
def Dev.setGState (g n : Nat) (d : Dev) : Dev := d.put (R.GROUP_STAT_STATE g) n

/-- The enabled member slots: slot and axis. -/
def Dev.members (d : Dev) (g : Nat) : List (Nat × Nat) :=
  (List.range 8).filterMap (fun k =>
    if d.flag (R.GROUP_MEMBER_AXIS_EN g k) then some (k, d.get (R.GROUP_MEMBER_AXIS_AXIS g k)) else none)

/-- A group is enabled. -/
def Dev.gEnabled (d : Dev) (g : Nat) : Bool := d.flag (R.GROUP_CFG_EN g)

/-- The enabled group that names an axis. -/
def Dev.groupOf (d : Dev) (n : Nat) : Option (Nat × Nat) :=
  (List.range 16).findSome? (fun g =>
    if d.gEnabled g then ((d.members g).find? (fun m => m.2 == n)).map (fun m => (g, m.1)) else none)

/-- The period of a group's sample clock: the cycle time of its members' rings. -/
def Dev.gPeriod (d : Dev) (g : Nat) : Nat :=
  match d.members g with
  | (_, n) :: _ => d.ringT (d.get (R.AXIS_MAP_RING n))
  | [] => 15625

/-- A ring runs while its STATE is RUN (R216). -/
def Dev.ringRuns (d : Dev) (x : Nat) : Bool := d.get (R.RING_STAT_STATE x) == 5

/-- A source of group `g` is due, once per group cycle (R243); a group none of whose rings runs has no cycle. -/
def Dev.gEv (g s : Nat) (d : Dev) : Dev :=
  d.mev (if (d.members g).any (fun m => d.ringRuns (d.get (R.AXIS_MAP_RING m.2))) then d.gPeriod g else 0) s

/-- The queue's count of occupied entries (R232). -/
def Dev.qCount (d : Dev) (g : Nat) : Nat := (d.get (R.GROUP_QPTR_WR g) + 128 - d.get (R.GROUP_QPTR_RD g)) % 128

/-- LOW_WM as it acts: a value above 63 acts as 63. -/
def Dev.lowWm (d : Dev) (g : Nat) : Nat := min 63 (d.get (R.GROUP_CFG_LOW_WM g))

/-- New queue indices; COUNT follows, and a fall below LOW_WM is due as event 104 (R235). -/
def Dev.setQ (g wr rd : Nat) (d : Dev) : Dev :=
  let old := d.qCount g
  let d := (d.put (R.GROUP_QPTR_WR g) wr).put (R.GROUP_QPTR_RD g) rd
  let new := d.qCount g
  let d := d.put (R.GROUP_QPTR_COUNT g) new
  if d.lowWm g != 0 && d.lowWm g ≤ old && new < d.lowWm g then d.gEv g 104 else d

/-- Word `w` of queue slot `e`. -/
def Dev.segWord (d : Dev) (g e w : Nat) : Nat :=
  (d.rd (R.SEGQ g (8 * (e % 64) + w / 2)).addr).toNat / 65536 ^ (w % 2) % 65536

/-! ## Planning (R231, R236) -/

/-- The displacement of member k in the descriptor in slot `e`. -/
def Dev.segDelta (d : Dev) (g e k : Nat) : Int :=
  sx 24 (d.segWord g e k + 65536 * (d.segWord g e (8 + k / 2) / 256 ^ (k % 2) % 256))

/-- The planned positions of the 8 slots. -/
def Dev.planned (d : Dev) (g : Nat) : List (BitVec 32) := (List.range 8).map (fun k => d.rd (R.GROUP_MEMBER_PLAN g k).addr)

/-- A scale field: 0 means 1.0. -/
def scaleOf (one n : Nat) : Nat := if n = 0 then one else n

/-- The path limit of a group: the minimum over the moving members of `lim k` × D / |delta k|, over `den`. -/
def pathLimit (delta : List Int) (dist : Nat) (lim : Nat → Nat) (den : Nat) : Option Frac :=
  (List.range 8).foldl (fun (acc : Option Frac) k =>
    let q := (delta.getD k 0).natAbs
    if q = 0 then acc
    else
      let f : Frac := (lim k * dist, den * q)
      match acc with
      | none => some f
      | some a => some (fracMin a f)) none

/-- Plan the path of a segment whose displacements and scales stand in `p`. -/
def Dev.planPath (d : Dev) (g : Nat) (p : PlanSt) : PlanSt :=
  let dist := p.delta.foldl (fun m x => max m x.natAbs) 0
  let V := pathLimit p.delta dist (fun k => scaleOf 65536 p.vscl * d.get (R.GROUP_MEMBER_VMAX g k)) (2 ^ 32)
  let A := pathLimit p.delta dist (fun k => scaleOf 256 p.ascl * d.get (R.GROUP_MEMBER_AMAX g k)) (2 ^ 32)
  let J := pathLimit p.delta dist (fun k => scaleOf 256 p.jscl * d.get (R.GROUP_MEMBER_JMAX g k)) (2 ^ 40)
  match V, A, J with
  | some V, some A, some J =>
    let (nj, na, nv) := phases dist V A J
    let nj := max 1 nj
    let q := nj * (nj + na) * (2 * nj + na + nv)
    { p with
      start := d.planned g, dist := dist, nj := nj, na := na, nv := nv
      jp := (rndDiv ((dist * 2 ^ 48 : Nat) : Int) q).toNat
      n := 4 * nj + 2 * na + nv, aNum := A.1, aDen := A.2, jNum := J.1, jDen := J.2
      rho := p.delta.map (fun x => rndDiv (x * 2 ^ 30) dist) }
  | _, _, _ =>
    { p with start := d.planned g, dist := 0, nj := 0, na := 0, nv := 0, jp := 0, n := 0, aNum := 0, aDen := 1,
             jNum := 0, jDen := 1, rho := List.replicate 8 0 }

/-- The targets of a plan. -/
def PlanSt.targets (p : PlanSt) : List (BitVec 32) :=
  (List.range 8).map (fun k => BitVec.ofNat 32 (toU 32 (((p.start.getD k 0).toNat : Int) + p.delta.getD k 0)))

/-- The member of slot k moves but lacks a limit (Table 9.2, 0x03). -/
def Dev.limitMissing (d : Dev) (g : Nat) (delta : List Int) : Bool :=
  (List.range 8).any (fun k => delta.getD k 0 != 0 &&
    (d.get (R.GROUP_MEMBER_VMAX g k) == 0 || d.get (R.GROUP_MEMBER_AMAX g k) == 0 || d.get (R.GROUP_MEMBER_JMAX g k) == 0))

/-- The segment in queue slot `e`, its path not planned yet. -/
def Dev.segment (d : Dev) (g e : Nat) : PlanSt :=
  let w (i : Nat) : Nat := d.segWord g e i
  { (default : PlanSt) with
    tag := w 12 / 256, evEnd := tst (w 12) 3, evStart := tst (w 12) 2, sync := tst (w 12) 1, waitGo := tst (w 12) 0
    needGo := tst (w 12) 0, dwell := w 13, vscl := w 14, ascl := w 15 / 256, jscl := w 15 % 256
    delta := (List.range 8).map (fun k => d.segDelta g e k) }

/-- The checks of Table 9.2 in their order: the error code, or the plan. -/
def Dev.checkSeg (d : Dev) (g e : Nat) : Except Nat PlanSt :=
  let p := d.segment g e
  let mask := d.get (R.GROUP_SYNC_MASK_MASK g)
  if d.segWord g e 12 / 16 % 16 != 0 then .error 1
  else if (List.range 8).any (fun k => p.delta.getD k 0 != 0 && !d.flag (R.GROUP_MEMBER_AXIS_EN g k)) then .error 2
  else if d.limitMissing g p.delta then .error 3
  else
    let q := d.planPath g p
    if 131072 < q.n then .error 4
    else if p.sync && (!tst mask g || (List.range 16).any (fun h => tst mask h && !d.gEnabled h)) then .error 5
    else .ok q

/-- A group enters HALTED. `rest`: the interrupted segment, if any. -/
def Dev.gHalt (g cause : Nat) (rest : Option PlanSt) (d : Dev) : Dev :=
  let d := (d.setGState g 6).put (R.GROUP_STAT_HCAUSE g) cause
  let d := ((d.put (R.GROUP_STAT_WGO g) 0).put (R.GROUP_STAT_WAXIS g) 0).put (R.GROUP_STAT_WSYNC g) 0
  (d.put (R.GROUP_CUR_LEFT g) 0).updGrp g (fun s =>
    { s with rest := rest, targets := (rest.map PlanSt.targets).getD [], plan := none, syncMet := none, a := 0, v := 0
             fin := false })

/-- A plan error (R236). -/
def Dev.planError (g code : Nat) (d : Dev) : Dev :=
  let d := (d.put (R.GROUP_ERR_CODE g) code).put (R.GROUP_ERR_INDEX g) (d.get (R.GROUP_QPTR_RD g))
  ((d.gHalt g 5 none).setF (R.GROUP_STAT_PERR g)).gEv g 106

/-- The plan becomes the group's current segment. -/
def Dev.setPlan (g : Nat) (p : PlanSt) (d : Dev) : Dev :=
  let d := (d.put (R.GROUP_CUR_TAG g) p.tag).put (R.GROUP_CUR_LEFT g) (p.n + p.dwell)
  let d := upTo 8 (fun k d => d.put (R.GROUP_MEMBER_TARGET g k) (p.targets.getD k 0).toNat) d
  (d.updGrp g (fun s =>
    { s with plan := some p, k := 0, a := 0, v := 0, s := 0, dwellLeft := p.dwell, syncMet := none, rest := none, fin := false })).setGState g 1

/-- The current segment completes (R238). -/
def Dev.segDone (g : Nat) (p : PlanSt) (d : Dev) : Dev :=
  let d := (d.incr (R.GROUP_SEG_CNT g)).put (R.GROUP_CUR_LEFT g) 0
  let d := if p.evEnd then d.gEv g 102 else d
  d.updGrp g (fun s => { s with plan := none, dwellLeft := 0, a := 0, v := 0, fin := true })

/-- The head of the queue is taken, when no segment is current and the group is not halted: it is checked and planned,
RD increments, and a WAIT_GO segment consumes a held GO (R232, R237). -/
def Dev.takeSeg (g : Nat) (d : Dev) : Dev :=
  if (d.grp g).plan.isSome || d.gState g == 6 || d.qCount g == 0 then d
  else
    let rd := d.get (R.GROUP_QPTR_RD g)
    match d.checkSeg g rd with
    | .error code => d.planError g code
    | .ok p =>
      let d := d.setQ g (d.get (R.GROUP_QPTR_WR g)) ((rd + 1) % 128)
      let held := d.flag (R.GROUP_STAT_GOHELD g)
      let d := if p.waitGo && held then d.clrF (R.GROUP_STAT_GOHELD g) else d
      d.setPlan g { p with needGo := p.waitGo && !held }

/-! ## Stops (R239 to R242) -/

/-- The limits As and Js of a stop in units of 2^−48, truncated (R240). -/
def Dev.stopLimits (d : Dev) (g : Nat) (p : PlanSt) (quick : Bool) : Int × Int :=
  if quick then
    let qa (k : Nat) : Nat := if d.get (R.GROUP_MEMBER_QAMAX g k) = 0 then d.get (R.GROUP_MEMBER_AMAX g k) else d.get (R.GROUP_MEMBER_QAMAX g k)
    let qj (k : Nat) : Nat := if d.get (R.GROUP_MEMBER_QJMAX g k) = 0 then d.get (R.GROUP_MEMBER_JMAX g k) else d.get (R.GROUP_MEMBER_QJMAX g k)
    let A := (pathLimit p.delta p.dist qa (2 ^ 24)).getD (0, 1)
    let J := (pathLimit p.delta p.dist qj (2 ^ 32)).getD (0, 1)
    (((A.1 * 2 ^ 48 / A.2 : Nat) : Int), ((J.1 * 2 ^ 48 / J.2 : Nat) : Int))
  else (((p.aNum * 2 ^ 48 / p.aDen : Nat) : Int), ((p.jNum * 2 ^ 48 / p.jDen : Nat) : Int))

/-- A group in MOVE or STOP begins a stop profile with the cause it will halt with. -/
def Dev.beginStop (g : Nat) (quick : Bool) (cause : Nat) (d : Dev) : Dev :=
  match (d.grp g).plan with
  | none => d
  | some p =>
    let (as, js) := d.stopLimits g p quick
    (d.updGrp g (fun s => { s with stopA := as, stopJ := js, cause := cause })).setGState g (if quick then 5 else 4)

/-- A stop in WAIT or DWELL: HALTED at once with event 105; a dwell that ends this way completes its segment. -/
def Dev.haltNow (g cause : Nat) (d : Dev) : Dev :=
  match (d.grp g).plan with
  | some p =>
    if d.gState g == 3 then ((d.segDone g p).gHalt g cause none).gEv g 105
    else (d.gHalt g cause (some p)).gEv g 105
  | none => (d.gHalt g cause (d.grp g).rest).gEv g 105

/-- A stop of the given kind, commanded or by a member (R239, R241). -/
def Dev.gStop (g : Nat) (quick : Bool) (cause : Nat) (d : Dev) : Dev :=
  let s := d.gState g
  if s == 2 || (s == 4 && quick) then d.beginStop g quick cause
  else if s == 1 || s == 3 then d.haltNow g cause
  else d

/-- A member leaves ENABLED (R241): cause 3 for a fault, 4 otherwise. -/
def Dev.memberLeft (n cause : Nat) (d : Dev) : Dev :=
  match d.groupOf n with
  | none => d
  | some (g, _) =>
    let s := d.gState g
    if s == 0 then d.haltNow g cause
    else if s == 5 then d.updGrp g (fun q => { q with cause := cause })
    else d.gStop g true cause

/-- The remainder planned from the planned positions as they stand (R242). -/
def Dev.planRest (d : Dev) (g : Nat) (p : PlanSt) (targets : List (BitVec 32)) : PlanSt :=
  d.planPath g { p with
    waitGo := false, needGo := false, sync := false, evStart := false, remain := true
    delta := (List.range 8).map (fun k =>
      if d.flag (R.GROUP_MEMBER_AXIS_EN g k) then
        sx 32 (((targets.getD k 0) - d.rd (R.GROUP_MEMBER_PLAN g k).addr).toNat)
      else 0) }

/-- RESUME (R239, R242). -/
def Dev.gResume (g : Nat) (d : Dev) : Dev :=
  let h := d.get (R.GROUP_STAT_HCAUSE g)
  if d.gState g == 6 && 1 ≤ h && h ≤ 4 then
    match (d.grp g).rest with
    | none => d.setGState g 0
    | some p =>
      let q := d.planRest g p (d.grp g).targets
      if d.limitMissing g q.delta then d.planError g 3
      else if 131072 < q.n then d.planError g 4
      else d.setPlan g q
  else d

/-- FLUSH (R239). -/
def Dev.gFlush (g : Nat) (d : Dev) : Dev :=
  let rd := d.get (R.GROUP_QPTR_RD g)
  let d := ((d.setQ g rd rd).clrF (R.GROUP_STAT_GOHELD g)).put (R.GROUP_ERR g) 0
  if d.gState g == 6 then (d.updGrp g (fun s => { s with rest := none, targets := [] })).setGState g 0 else d

/-- GO (R239). -/
def Dev.gGo (g : Nat) (d : Dev) : Dev :=
  match (d.grp g).plan with
  | some p =>
    if d.gState g == 1 && p.needGo then d.updGrp g (fun s => { s with plan := some { p with needGo := false } })
    else d.setF (R.GROUP_STAT_GOHELD g)
  | none => d.setF (R.GROUP_STAT_GOHELD g)

/-- The CMD bits taken at t_n, in the order QSTOP, STOP, FLUSH, RESUME, GO (R239). -/
def Dev.gCommands (g : Nat) (d : Dev) : Dev :=
  let c := (d.grp g).cmd
  let d := d.updGrp g (fun s => { s with cmd := 0 })
  let d := if tst c 2 then d.gStop g true 2 else d
  let d := if tst c 1 then d.gStop g false 1 else d
  let d := if tst c 4 then d.gFlush g else d
  let d := if tst c 3 && !tst c 2 && !tst c 1 then d.gResume g else d
  if tst c 0 then d.gGo g else d

/-! ## Samples -/

/-- A motion sample is in place: LEFT counts the samples after it; behind the last one the dwell begins (R238). -/
def Dev.gReach (g : Nat) (d : Dev) : Dev :=
  match (d.grp g).plan with
  | none => d
  | some p =>
    if d.gState g != 2 then d
    else
      let d := d.put (R.GROUP_CUR_LEFT g) (p.n - (d.grp g).k + p.dwell)
      if p.n ≤ (d.grp g).k && p.dwell != 0 then
        (d.updGrp g (fun s => { s with dwellLeft := p.dwell + 1 })).setGState g 3
      else d

/-- What ends at t_n: a motion without dwell whose last sample is in place, or a dwell, which counts down (R238). -/
def Dev.gEnd (g : Nat) (d : Dev) : Dev :=
  match (d.grp g).plan with
  | none => d
  | some p =>
    if d.gState g == 2 && p.n ≤ (d.grp g).k then d.segDone g p
    else if d.gState g == 3 then
      let left := (d.grp g).dwellLeft - 1
      let d := (d.updGrp g (fun s => { s with dwellLeft := left })).put (R.GROUP_CUR_LEFT g) left
      if left = 0 then d.segDone g p else d
    else d

/-- The reasons for which a taken segment waits, apart from the sync condition (R237). -/
def Dev.gWaits (d : Dev) (g : Nat) (p : PlanSt) : Bool × Bool :=
  (p.needGo, (d.members g).any (fun m => d.get (R.AXIS_STAT_STATE m.2) != 2))

/-- A group waits in WAIT with a SYNC segment and for nothing else. -/
def Dev.gSyncReady (d : Dev) (g : Nat) : Bool :=
  match (d.grp g).plan with
  | some p => d.gState g == 1 && p.sync && d.gWaits g p == (false, false)
  | none => false

/-- A waiting segment that waits for nothing starts: its motion, or its dwell when it has no motion. -/
def Dev.gStart (t : Nat) (g : Nat) (d : Dev) : Dev :=
  match (d.grp g).plan with
  | none => d
  | some p =>
    if d.gState g == 1 then
      let (go, ax) := d.gWaits g p
      let sync := p.sync && (match (d.grp g).syncMet with
        | some m => decide (t + d.gPeriod g < m.toNat)
        | none => true)
      let d := ((d.put (R.GROUP_STAT_WGO g) (b2n go)).put (R.GROUP_STAT_WAXIS g) (b2n ax)).put (R.GROUP_STAT_WSYNC g) (b2n sync)
      if go || ax || sync then d
      else
        let p := { p with start := d.planned g }
        let d := upTo 8 (fun k d => d.put (R.GROUP_MEMBER_TARGET g k) (p.targets.getD k 0).toNat) d
        let d := d.updGrp g (fun s => { s with plan := some p, syncMet := none })
        if p.n = 0 then if p.dwell = 0 then d.segDone g p else d.setGState g 3
        else (if p.evStart then d.gEv g 101 else d).setGState g 2
    else d

/-- A setpoint limited to s32 (R238). -/
def Dev.spLim (g : Nat) (x : Int) (d : Dev) : Int × Dev :=
  let (v, f) := lim32 x
  (v, if f then (d.setF (R.GROUP_STAT_SATF g)).gEv g 109 else d)

/-- The setpoints of every member from the path state; `last`: the final sample. -/
def Dev.gSetpoints (g : Nat) (p : PlanSt) (last : Bool) (d : Dev) : Dev :=
  let s := d.grp g
  (d.members g).foldl (fun d (m : Nat × Nat) =>
    let rho := p.rho.getD m.1 0
    let pos := if last then p.targets.getD m.1 0
      else BitVec.ofNat 32 (toU 32 (((p.start.getD m.1 0).toNat : Int) + rndDiv (rho * s.s) (2 ^ 78)))
    let (vel, d) := d.spLim g (rndDiv (rho * s.v) (2 ^ 62))
    let (acc, d) := d.spLim g (rndDiv (rho * s.a) (2 ^ 54))
    let d := d.put (R.GROUP_MEMBER_PLAN g m.1) pos.toNat
    d.updAxis m.2 (fun a =>
      { a with nextPos := pos, nextVel := BitVec.ofNat 32 (toU 32 vel), nextAcc := BitVec.ofNat 32 (toU 32 acc) })) d

/-- The setpoints of a group at rest: the planned positions. -/
def Dev.gHold (g : Nat) (d : Dev) : Dev :=
  (d.members g).foldl (fun d (m : Nat × Nat) =>
    let pos := d.rd (R.GROUP_MEMBER_PLAN g m.1).addr
    d.updAxis m.2 (fun a => { a with nextPos := pos, nextVel := 0, nextAcc := 0 })) d

/-- One motion sample (R238). -/
def Dev.gMove (g : Nat) (p : PlanSt) (d : Dev) : Dev :=
  let s := d.grp g
  let k := s.k + 1
  let a := s.a + phaseJerk p.nj p.na p.nv p.jp k
  let v := s.v + a
  let last := p.n ≤ k
  let d := d.updGrp g (fun s =>
    if last then { s with k := k, a := 0, v := 0, s := ((p.dist * 2 ^ 48 : Nat) : Int) }
    else { s with k := k, a := a, v := v, s := s.s + v })
  d.gSetpoints g p last

/-- One stop sample (R240). -/
def Dev.gStopSample (g : Nat) (p : PlanSt) (d : Dev) : Dev :=
  let s := d.grp g
  let (a, v, q, done, reached) := stopSample s.stopA s.stopJ s.a s.v s.s ((p.dist * 2 ^ 48 : Nat) : Int)
  let d := (d.updGrp g (fun s => { s with a := a, v := v, s := q })).gSetpoints g p reached
  if done then
    let d := if reached then d.segDone g p else d
    (d.gHalt g s.cause (if reached then none else some p)).gEv g 105
  else d

/-- The setpoints of the next sample are computed. -/
def Dev.gSample (g : Nat) (d : Dev) : Dev :=
  match (d.grp g).plan with
  | some p =>
    match d.gState g with
    | 2 => d.gMove g p
    | 4 | 5 => d.gStopSample g p
    | _ => d.gHold g
  | none => d.gHold g

/-- Up to `n` segments are taken: one that has neither motion nor dwell completes at once. -/
def Dev.gTakeStart (t g : Nat) : Nat → Dev → Dev
  | 0, d => d
  | n + 1, d =>
    if d.gState g == 1 || (d.grp g).plan.isNone then
      let d := (d.takeSeg g).gStart t g
      if (d.grp g).plan.isNone && d.gState g == 1 then (d.setGState g 0).gTakeStart t g n else d
    else d

/-- The group has completed its last segment with the queue empty: IDLE, with event 103 (R235). -/
def Dev.gIdle (g : Nat) (d : Dev) : Dev :=
  if (d.grp g).fin && (d.grp g).plan.isNone then
    ((d.updGrp g (fun s => { s with fin := false })).setGState g 0).gEv g 103
  else d

/-- The segments that can start at `t` start, and the setpoints of the next sample are computed. -/
def Dev.gWork (t g : Nat) (d : Dev) : Dev := ((d.gTakeStart t g 64).gIdle g).gSample g

/-- The sync condition of group `g` is met now: all groups it names start together at the first cycle start of the longest
cycle time among them after `t` (R237). A group in the middle of the cycle before that start computes its first motion
sample now (R229). -/
def Dev.gSync (t : Nat) (g : Nat) (d : Dev) : Dev :=
  let mask := d.get (R.GROUP_SYNC_MASK_MASK g)
  let hs := (List.range 16).filter (fun h => tst mask h)
  if d.gSyncReady g && (d.grp g).syncMet.isNone && hs.all (fun h => d.gSyncReady h) then
    let T := hs.foldl (fun m h => max m (d.gPeriod h)) 1
    let start := (t / T + 1) * T
    let d := (hs.foldl (fun d h => d.updGrp h (fun s => { s with syncMet := some (BitVec.ofNat 64 start) })) d).gEv g 108
    hs.foldl (fun d h =>
      if t % d.gPeriod h != 0 && start ≤ (t / d.gPeriod h + 1) * d.gPeriod h then d.gWork (t / d.gPeriod h * d.gPeriod h) h
      else d) d
  else d

/-- A bound host segment ring fills free queue slots, up to 4 per group cycle (R234), and the consumer index is written to
host memory. A standby copies the entries that the mirror stream gave it, and writes nothing (R392, R393). -/
def Dev.segRingCopy (g : Nat) (d : Dev) : Dev :=
  match Store.get (fun _ => (none : Option SegRing)) d.hif.segs g with
  | none => d
  | some r =>
    if d.get (R.GROUP_CFG_SRC g) != 1 then d
    else
      let n := min 4 (min r.ents.length (64 - d.qCount g))
      if n = 0 then d
      else
        let wr := d.get (R.GROUP_QPTR_WR g)
        let d := upTo n (fun i d =>
          let ws := r.ents.getD i []
          upTo 8 (fun j d =>
            let a := (R.SEGQ g (8 * ((wr + i) % 64) + j)).addr
            let v := BitVec.ofNat 32 ((ws.getD (2 * j) 0).toNat + 65536 * (ws.getD (2 * j + 1) 0).toNat)
            (d.wrReg a v).noteMuleWr a 0xFFFFFFFF v) d) d
        let d := d.setQ g ((wr + n) % 128) (d.get (R.GROUP_QPTR_RD g))
        let ci := (r.cIdx + n) % 65536
        let d := { d with hif := { d.hif with
          segs := Store.set (fun _ => none) d.hif.segs g (some { r with cIdx := ci, ents := r.ents.drop n }) } }
        if d.get R.PAIR_STAT_ROLE == 2 then d else d.emit (.hostWrite r.ciAddr [BitVec.ofNat 16 ci, 0])

/-- A group's t_n before the axes take theirs: the setpoints of this sample are in place (R229). A member under HOLD, with
direct setpoints, or that follows a gantry lead, does not take them. -/
def Dev.gPlace (skip : Nat → Bool) (g : Nat) (d : Dev) : Dev :=
  if (d.grp g).initPlan then d
  else
    (d.members g).foldl (fun d (m : Nat × Nat) =>
      if skip m.2 then d
      else
        let a := d.axis m.2
        ((d.put (R.AXIS_POS_SP m.2) a.nextPos.toNat).put (R.AXIS_VEL_SP m.2) a.nextVel.toNat).put (R.AXIS_ACC_SP m.2) a.nextAcc.toNat) d

/-- The planned positions of a group enabled since the last t_n (R228). -/
def Dev.gInit (g : Nat) (d : Dev) : Dev :=
  if (d.grp g).initPlan then
    let d := (d.members g).foldl (fun d (m : Nat × Nat) =>
      d.put (R.GROUP_MEMBER_PLAN g m.1) (d.get (R.AXIS_POS_SP m.2))) d
    d.updGrp g (fun s => { s with initPlan := false })
  else d

/-- A group's t_n after the axes have taken theirs, up to the start of its segment: the sample that is in place, the
commands, what ends, the queue (R229, R235, R239). A segment ends after the commands of its last t_n: DEDUCED, log entry
76. -/
def Dev.gTake (t g : Nat) (d : Dev) : Dev :=
  let d := ((d.gInit g).gReach g).gCommands g
  let d := (d.gEnd g).segRingCopy g
  (d.gTakeStart t g 64).gIdle g

end Sys2Proof.Machine
end

