-- ==== Sys2Proof/Machine/Axis.lean ====
section
/-! DEFINITION. The loops of one axis and of a gantry couple (08_mule_loops.md): the cascade (R198 to R203), the sample by
feedback age (R207, R208), the enabling sample (R215), faults (R216 to R218) and couples (R219 to R221). -/

namespace Sys2Proof.Machine

/-! ## Where an axis is -/

/-- STAT.STATE of an axis (Table 8.5): 0 DISABLED, 1 ENABLING, 2 ENABLED, 3 FAULT. -/
def Dev.axState (d : Dev) (n : Nat) : Nat := d.get (R.AXIS_STAT_STATE n)

/-- The MAP register maps the axis to ring `x`. -/
def Dev.axMapped (d : Dev) (x n : Nat) : Bool := d.flag (R.AXIS_MAP_EN n) && d.get (R.AXIS_MAP_RING n) == x

/-- The axis has a t_n: it is mapped and its ring runs (R212). -/
def Dev.axLive (d : Dev) (n : Nat) : Bool := d.flag (R.AXIS_MAP_EN n) && d.ringRuns (d.get (R.AXIS_MAP_RING n))

/-- A field of MAP as the Mule took it (R205). -/
def Dev.mapFld (d : Dev) (f : Nat → Fld) (n : Nat) : Nat := (f n).of (d.axis n).par.map

/-- The samples of the axis follow ring `x`, by its MAP as taken (R205). -/
def Dev.axOn (d : Dev) (x n : Nat) : Bool := d.mapFld R.AXIS_MAP_EN n == 1 && d.mapFld R.AXIS_MAP_RING n == x

/-- Its samples follow a ring that runs. -/
def Dev.axHeld (d : Dev) (n : Nat) : Bool := d.mapFld R.AXIS_MAP_EN n == 1 && d.ringRuns (d.mapFld R.AXIS_MAP_RING n)

/-- A source of axis `n` is due, once per sample (R224). -/
def Dev.aEv (n s : Nat) (d : Dev) : Dev :=
  d.mev (if d.axHeld n then d.ringT (d.mapFld R.AXIS_MAP_RING n) else 0) s

/-- The enabled couple that names an axis: its number, lead and follower (R219). -/
def Dev.coupleOf (d : Dev) (n : Nat) : Option (Nat × Nat × Nat) :=
  (List.range 16).findSome? (fun g =>
    let l := d.get (R.GANTRY_CTRL_L g)
    let f := d.get (R.GANTRY_CTRL_F g)
    if d.flag (R.GANTRY_CTRL_EN g) && (l == n || f == n) then some (g, l, f) else none)

/-- The axis is the follower of an enabled couple. -/
def Dev.isFollower (d : Dev) (n : Nat) : Bool :=
  match d.coupleOf n with
  | some (_, _, f) => f == n
  | none => false

/-- A fault whose setpoint the Mule holds frozen: HOLD, and QSTOP with direct setpoints (R217). -/
def Dev.frozen (d : Dev) (n : Nat) : Bool :=
  d.axState n == 3 &&
    (match (d.axis n).action with
     | .off => false
     | .hold => true
     | .qstop => tst (d.axis n).par.ctrl.toNat 3)

/-- The loops of the axis are computed (Table 8.3): ENABLED, or FAULT under HOLD or QSTOP. -/
def Dev.axComputes (d : Dev) (n : Nat) : Bool := d.axState n == 2 || (d.axState n == 3 && (d.axis n).action != .off)

/-- The fault action a CTRL.FACT value names (R217). -/
def factOf (n : Nat) : FAction := if n = 1 then .hold else if n = 2 then .qstop else .off

/-- The action of CTRL.FACT as taken at t_n. -/
def Dev.axFact (d : Dev) (n : Nat) : FAction := factOf ((d.axis n).par.ctrl.toNat % 4)

/-! ## Registers of the loop -/

/-- Signal `i` of a list of s64 states in two dwords each. -/
def Dev.getS64 (d : Dev) (f : Nat → Fld) (i : Nat) : Int := sx 64 (d.get64 (f (2 * i)) (f (2 * i + 1)))

/-- Write state `i`. -/
def Dev.putS64 (f : Nat → Fld) (i : Nat) (v : Int) (d : Dev) : Dev :=
  (d.put (f (2 * i)) (toU 64 v)).put (f (2 * i + 1)) (toU 64 v / 2 ^ 32)

/-- The first `k` states. -/
def Dev.states (d : Dev) (f : Nat → Fld) (k : Nat) : List Int := (List.range k).map (fun i => d.getS64 f i)

/-- Write the first `k` states. -/
def Dev.setStates (f : Nat → Fld) (k : Nat) (vs : List Int) (d : Dev) : Dev :=
  upTo k (fun i d => d.putS64 f i (vs.getD i 0)) d

/-- Coefficient `i` of the active bank (R210). -/
def Dev.coef (d : Dev) (n i : Nat) : Int := d.getS (R.COEF n (d.get (R.AXIS_STAT_BANK n)) i)

/-- Coefficients `i` to `i + k - 1`. -/
def Dev.coefs (d : Dev) (n i k : Nat) : List Int := (List.range k).map (fun j => d.coef n (i + j))

/-- Set SAT bits; a bit that goes from 0 to 1 is due as event 97 with CTRL.SATEV (R201, Table 8.7). -/
def Dev.satBits (n m : Nat) (d : Dev) : Dev :=
  let old := d.get (R.AXIS_SAT n)
  let d := d.put (R.AXIS_SAT n) (old ||| m)
  if old ||| m != old && tst (d.axis n).par.ctrl.toNat 5 then d.aEv n 97 else d

/-- A stage's flag bit when it saturated. -/
def satIf (b : Bool) (bit : Nat) : Nat := if b then 2 ^ bit else 0

/-- A setpoint of the sample, in the register and as the loop takes it. -/
def Dev.setSp (n : Nat) (pos vel acc : BitVec 32) (d : Dev) : Dev :=
  let d := ((d.put (R.AXIS_POS_SP n) pos.toNat).put (R.AXIS_VEL_SP n) vel.toNat).put (R.AXIS_ACC_SP n) acc.toNat
  d.updAxis n (fun a => { a with par := { a.par with posSp := pos, velSp := vel, accSp := acc } })

/-! ## The cascade (R203) -/

/-- p of R203. -/
def Dev.axPos (d : Dev) (n : Nat) : BitVec 32 :=
  let a := d.axis n
  (a.fbPos <<< (a.par.fbCfg.toNat % 8)) + a.par.posOfs

/-- The feedback lines of R203. -/
def Dev.feedback (n : Nat) (d : Dev) : Dev :=
  let a := d.axis n
  let p := d.axPos n
  let vr := if !tst a.par.fbCfg.toNat 3 then a.fbVel
    else if a.afterHold then d.rd (R.AXIS_VEL_RAW n).addr
    else p - d.rd (R.AXIS_POS_PREV n).addr
  let (v, fv) := q28 (d.coef n 29 * sx 32 vr.toNat)
  let d := ((d.put (R.AXIS_POS_ACT n) p.toNat).put (R.AXIS_VEL_RAW n) vr.toNat).putS (R.AXIS_VEL_ACT n) v
  let d := d.put (R.AXIS_POS_PREV n) p.toNat
  (d.updAxis n (fun a => { a with afterHold := false, everFresh := true })).satBits n (satIf fv 0)

/-- The torque branch of R203 (CTRL.OMODE = 0): the raw output, N1 and N2 outputs, the new velocity states, and the flags. -/
def Dev.torque (n : Nat) (vc v : Int) (d : Dev) : Int × Int × Int × Dev :=
  let par := (d.axis n).par
  let ctrl := par.ctrl.toNat
  let (ev, f0) := lim32 (vc - v)
  let sv := d.states (R.AXIS_S_VEL n) 3
  let (y2, sv', f1) := df2t ev (d.coef n 5) (d.coefs n 6 3) (d.coefs n 9 3) sv
  let (ka, f2) := q28 (d.coef n 23 * sx 32 par.accSp.toNat)
  let (u, f3) := lim32 (y2 + ka + sx 32 par.trqOfs.toNat)
  let s1 := d.states (R.AXIS_S_NA n) 2
  let (u1, s1', f4) := if tst ctrl 6 then df2t u (d.coef n 12) (d.coefs n 13 2) (d.coefs n 15 2) s1 else (u, s1, false)
  let s2 := d.states (R.AXIS_S_NB n) 2
  let (u2, s2', f5) := if tst ctrl 7 then df2t u1 (d.coef n 17) (d.coefs n 18 2) (d.coefs n 20 2) s2 else (u1, s2, false)
  let (o, f6) := q28 (d.coef n 30 * u2)
  let d := ((d.setStates (R.AXIS_S_VEL n) 3 sv').setStates (R.AXIS_S_NA n) 2 s1').setStates (R.AXIS_S_NB n) 2 s2'
  let d := (((d.putS (R.AXIS_VEL_ERR n) ev).putS (R.AXIS_TRQ n) u).putS (R.AXIS_N1_OUT n) u1).putS (R.AXIS_N2_OUT n) u2
  (ev, o, b2n (tst ctrl 4),
    d.satBits n (satIf f0 4 + satIf f1 5 + satIf (f2 || f3) 6 + satIf f4 7 + satIf f5 8 + satIf f6 9))

/-- The velocity branch (R199): the velocity states and notches stay 0. -/
def Dev.velocity (n : Nat) (vc : Int) (d : Dev) : Int × Dev :=
  let (o, f) := q28 (d.coef n 30 * vc)
  let d := ((d.setStates (R.AXIS_S_VEL n) 3 []).setStates (R.AXIS_S_NA n) 2 []).setStates (R.AXIS_S_NB n) 2 []
  let d := (((d.putS (R.AXIS_VEL_ERR n) 0).putS (R.AXIS_TRQ n) 0).putS (R.AXIS_N1_OUT n) 0).putS (R.AXIS_N2_OUT n) 0
  (o, d.satBits n (satIf f 9))

/-- The output limit: OUT_MAX decides when OUT_MIN is above it. -/
def Dev.outLimit (d : Dev) (n : Nat) (o : Int) : Int :=
  let lo := sx 32 (d.axis n).par.outMin.toNat
  let hi := sx 32 (d.axis n).par.outMax.toNat
  let ol := if o < lo then lo else o
  if hi < ol then hi else ol

/-- A fresh sample of an axis whose loops are computed (R203). `xc`: the gantry term. -/
def Dev.freshSample (n : Nat) (xc : Int) (d : Dev) : Dev :=
  let par := (d.axis n).par
  let ctrl := par.ctrl.toNat
  let d := d.feedback n
  let v := d.getS (R.AXIS_VEL_ACT n)
  let e := sx 32 (par.posSp - d.rd (R.AXIS_POS_ACT n).addr).toNat
  let (y1, sp, f0) := df2t e (d.coef n 0) (d.coefs n 1 2) (d.coefs n 3 2) (d.states (R.AXIS_S_POS n) 2)
  let d := d.setStates (R.AXIS_S_POS n) 2 sp
  let (kv, f1) := q28 (d.coef n 22 * sx 32 par.velSp.toNat)
  let (vs, f2) := lim32 (y1 + kv + xc)
  let vmax : Int := ((par.vcmdMax.toNat % 2 ^ 31 : Nat) : Int)
  let vc := clampI (-vmax) vmax vs
  let d := d.satBits n (satIf f0 1 + satIf (f1 || f2) 2 + satIf (vc != vs) 3)
  let keep := d.states (R.AXIS_S_VEL n) 3
  let (ev, o, awu, d) :=
    if tst ctrl 2 then
      let (o, d) := d.velocity n vc
      ((0 : Int), o, 0, d)
    else d.torque n vc v
  let ol := d.outLimit n o
  let d := d.satBits n (satIf (ol != o) 10)
  let d := if awu == 1 && ((ol < o && 0 < ev) || (o < ol && ev < 0)) then d.setStates (R.AXIS_S_VEL n) 3 keep else d
  (((d.putS (R.AXIS_POS_ERR n) e).putS (R.AXIS_VEL_CMD n) vc).putS (R.AXIS_OUT n) ol).putS (R.AXIS_XC_OUT n) xc

/-- Following-error supervision of a fresh ENABLED sample (R218): whether the axis faults with code 1. -/
def Dev.feCheck (n : Nat) (d : Dev) : Bool × Dev :=
  let par := (d.axis n).par
  let e := (d.getS (R.AXIS_POS_ERR n)).natAbs
  let d := if d.get (R.AXIS_FE_PEAK n) < e then d.put (R.AXIS_FE_PEAK n) e else d
  let lim := par.feLim.toNat
  let cnt := if lim != 0 && lim < e then satU 32 (d.get (R.AXIS_FE_CNT n) + 1) else 0
  let d := d.put (R.AXIS_FE_CNT n) cnt
  let warn := par.feWarn.toNat
  let d :=
    if warn != 0 && warn < e then
      if d.flag (R.AXIS_STAT_FEW n) then d else (d.setF (R.AXIS_STAT_FEW n)).aEv n 99
    else d
  (decide (max 1 par.feTime.toNat ≤ cnt), d)

/-! ## Faults (R216, R217) -/

/-- A fault cause and the action it calls for. -/
abbrev FCause := Nat × FAction

/-- The lowest code of a list of causes. -/
def lowCause : List FCause → Option FCause
  | [] => none
  | c :: cs =>
    match lowCause cs with
    | some b => if b.1 < c.1 then some b else some c
    | none => some c

/-- The action of a sample's causes: OFF when any calls for OFF, else that of the lowest code (R216). -/
def causeAction (cs : List FCause) : FAction :=
  if cs.any (fun c => c.2 == .off) then .off else ((lowCause cs).map (·.2)).getD .off

/-- Action OFF: OUT is 0. -/
def Dev.actOff (n : Nat) (d : Dev) : Dev := (d.updAxis n (fun a => { a with action := .off })).put (R.AXIS_OUT n) 0

/-- The causes of a sample act on an axis: it enters FAULT, or a fault under HOLD or QSTOP turns to OFF. -/
def Dev.axFault (n t : Nat) (cs : List FCause) (d : Dev) : Dev :=
  match lowCause cs with
  | none => d
  | some (code, _) =>
    let st := d.axState n
    if st == 0 then d
    else if st == 3 then
      if cs.any (fun c => c.1 == 2 || c.1 == 3 || c.1 == 6) then d.actOff n else d
    else
      let act := causeAction cs
      let d := (d.put (R.AXIS_STAT_STATE n) 3).put (R.AXIS_STAT_FCODE n) code
      let d := (d.put (R.AXIS_FAULT_TLO n) t).put (R.AXIS_FAULT_THI n) (t / 2 ^ 32)
      let d := if act == .off then d.actOff n else d.updAxis n (fun a => { a with action := act })
      let d := if d.frozen n then d.setSp n (d.rd (R.AXIS_POS_ACT n).addr) 0 0 else d
      let d := d.aEv n 96
      if st == 2 then d.memberLeft n 3 else d

/-! ## One sample (Table 8.3) -/

/-- AGE_LIM as it acts: 0 acts as 1, 0xFF as 0xFE. -/
def ageLim (fbCfg : BitVec 32) : Nat :=
  let a := fbCfg.toNat / 256 % 256
  if a = 0 then 1 else if a = 255 then 254 else a

/-- The feedback of the axis meets the conditions of the enabling sample (R215). -/
def Dev.enableReady (d : Dev) (n : Nat) : Bool :=
  let a := d.axis n
  d.axState n == 1 && a.age == 0 && a.fbStat.toNat % 4 == 1

/-- The interpolator's position of an axis that reaches its enabling sample (R215, R230); a remainder that has not begun
is planned again (R242). -/
def Dev.planAtEnable (n : Nat) (p : BitVec 32) (d : Dev) : Dev :=
  let d := d.updAxis n (fun a => { a with nextPos := p, nextVel := 0, nextAcc := 0 })
  match d.groupOf n with
  | none => d
  | some (g, k) =>
    let d := d.put (R.GROUP_MEMBER_PLAN g k) p.toNat
    match (d.grp g).plan with
    | some q =>
      if q.remain && d.gState g == 1 then
        let r := d.planRest g q q.targets
        if d.limitMissing g r.delta then d.planError g 3
        else if 131072 < r.n then d.planError g 4
        else d.setPlan g r
      else d
    | none => d

/-- The state an enabling sample sets before the computation (R215). `sp`: POS_SP. -/
def Dev.enableAxis (n : Nat) (sp : BitVec 32) (d : Dev) : Dev :=
  let d := ((d.setStates (R.AXIS_S_POS n) 2 []).setStates (R.AXIS_S_VEL n) 3 []).setStates (R.AXIS_S_NA n) 2 []
  let d := (d.setStates (R.AXIS_S_NB n) 2 []).setSp n sp 0 0
  let d := d.put (R.AXIS_FE_CNT n) 0
  let prev := if (d.axis n).everFresh then d.rd (R.AXIS_POS_ACT n).addr else d.axPos n
  let d := (d.put (R.AXIS_POS_PREV n) prev.toNat).planAtEnable n (d.axPos n)
  d.put (R.AXIS_STAT_STATE n) 2

/-- A hold sample (R208). -/
def Dev.holdSample (n : Nat) (d : Dev) : Dev :=
  (d.incr (R.AXIS_HOLD_CNT n)).updAxis n (fun a => { a with afterHold := true })

/-- A fresh sample of an axis whose loops are computed, with its causes. -/
def Dev.computeSample (n : Nat) (xc : Int) (d : Dev) : List FCause × Dev :=
  let flt := tst (d.axis n).fbStat.toNat 1
  let d := d.freshSample n xc
  let c3 : List FCause := if flt then [(3, .off)] else []
  if d.axState n == 2 then
    let (fe, d) := d.feCheck n
    (if fe then (1, d.axFact n) :: c3 else c3, d)
  else (c3, d)

/-- A sample in ENABLING that is not the enabling sample. -/
def Dev.enablingSample (n : Nat) (d : Dev) : List FCause × Dev :=
  let a := d.axis n
  let fresh := a.age == 0
  let d := if fresh then d.feedback n else d
  let late := max 1 a.par.enTime.toNat ≤ a.enCount
  ((if fresh && tst a.fbStat.toNat 1 then [(3, .off)] else []) ++ (if late then [(4, .off)] else []), d)

/-- The check values of an axis record (R392). -/
def Dev.axisChecks (d : Dev) (n : Nat) : List (BitVec 32) :=
  [R.AXIS_OUT n, R.AXIS_POS_SP n, R.AXIS_VEL_SP n, R.AXIS_ACC_SP n, R.AXIS_VEL_CMD n, R.AXIS_TRQ n, R.AXIS_N2_OUT n,
    R.AXIS_SAMPLE_CNT n, R.AXIS_FE_CNT n, R.AXIS_STAT_STATE n, R.AXIS_STAT_FCODE n, R.AXIS_STAT_BANK n].map
    (fun f => BitVec.ofNat 32 (d.get f))

/-- One sample of an axis whose feedback has been read (Table 8.3). `en`: POS_SP when this is its enabling sample. -/
def Dev.axSample (n : Nat) (xc : Int) (en : Option (BitVec 32)) (d : Dev) : List FCause × Dev :=
  let a := d.axis n
  let d := (d.put (R.AXIS_FB_AGE n) a.age).incr (R.AXIS_SAMPLE_CNT n)
  let d := if a.age == 0 then d.put (R.AXIS_DRV_STAT n) a.fbStat.toNat else d
  let st := d.axState n
  if st == 0 then ([], if a.age == 0 then d.feedback n else d)
  else if st == 3 && a.action == .off then ([], d)
  else if ageLim a.par.fbCfg < a.age then ([(2, .off)], d)
  else if st == 1 then
    let d := d.updAxis n (fun a => { a with enCount := a.enCount + 1 })
    match en with
    | some sp => (d.enableAxis n sp).computeSample n xc
    | none => d.enablingSample n
  else if a.age == 0 then d.computeSample n xc
  else ([], d.holdSample n)

/-! ## Gantry couples -/

/-- ux of couple `g` as kept between samples (R220). -/
def Dev.ux (d : Dev) (g : Nat) : Int := sx 32 (Store.get (fun _ => (0 : BitVec 32)) d.mule.ux g).toNat

/-- The gantry compensator (R219): DIFF and ux. -/
def Dev.gantryUx (g l f : Nat) (d : Dev) : Dev :=
  let diff := d.axPos l - d.axPos f - d.rd (R.GANTRY_OFS g).addr
  let d := d.put (R.GANTRY_DIFF g) diff.toNat
  let (ux, s, sat) := df2t (sx 32 diff.toNat) (d.coef l 24) (d.coefs l 25 2) (d.coefs l 27 2) (d.states (R.GANTRY_S_XC g) 2)
  let d := (d.setStates (R.GANTRY_S_XC g) 2 s).satBits l (satIf sat 11)
  { d with mule := { d.mule with ux := Store.set (fun _ => 0) d.mule.ux g (BitVec.ofNat 32 (toU 32 ux)) } }

/-- The couple's difference is above DIFF_LIM as taken at t_n (R205, R221). -/
def Dev.diffOver (d : Dev) (g : Nat) : Bool :=
  let lim := (Store.get (fun _ => (0 : BitVec 32)) d.mule.diffLim g).toNat
  lim != 0 && lim < (d.getS (R.GANTRY_DIFF g)).natAbs

/-- Both feedbacks of a couple have arrived: its sample (R220, R221). -/
def Dev.coupleSample (g l f t : Nat) (d : Dev) : Dev :=
  let fresh := (d.axis l).age == 0 && (d.axis f).age == 0
  let en := d.enableReady l && d.enableReady f
  let d := if en && d.flag (R.GANTRY_CTRL_LATCH g) then d.put (R.GANTRY_OFS g) (d.axPos l - d.axPos f).toNat else d
  let d := if en then d.setStates (R.GANTRY_S_XC g) 2 [] else d
  let both := en || (d.axState l == 2 && d.axState f == 2)
  let d := if fresh && (en || (d.axComputes l && d.axComputes f)) then d.gantryUx g l f else d
  let c5 : List FCause := if fresh && both && d.diffOver g then [(5, d.axFact l)] else []
  let lp := d.axPos l
  let (cl, d) := d.axSample l (-(d.ux g)) (if en then some lp else none)
  let (cf, d) := d.axSample f (d.ux g) (if en then some (lp - d.rd (R.GANTRY_OFS g).addr) else none)
  let cl := cl ++ c5
  let cf := cf ++ c5
  let add (own other : List FCause) (st : Nat) : List FCause :=
    if other.isEmpty || st == 3 || st == 0 then own else own ++ [(7, causeAction other)]
  let sl := d.axState l
  let sf := d.axState f
  (d.axFault l t (add cl cf sf)).axFault f t (add cf cl sl)

/-- The sample of an axis whose feedback of this cycle has been read: at once, or with its couple at the later of the two
feedbacks (R220). An axis of a couple whose other axis has no sample in the cycle has no enabling sample (R215). -/
def Dev.axisReady (n t : Nat) (d : Dev) : Dev :=
  match d.coupleOf n with
  | some (g, l, f) =>
    if d.axOn (d.mapFld R.AXIS_MAP_RING n) l && d.axOn (d.mapFld R.AXIS_MAP_RING n) f then
      let d := d.updAxis n (fun a => { a with gotFb := true })
      if (d.axis l).gotFb && (d.axis f).gotFb then
        ((d.updAxis l (fun a => { a with gotFb := false })).updAxis f (fun a => { a with gotFb := false })).coupleSample g l f t
      else d
    else
      let (cs, d) := d.axSample n 0 none
      d.axFault n t cs
  | none =>
    let en := if d.enableReady n then some (d.axPos n) else none
    let (cs, d) := d.axSample n 0 en
    d.axFault n t cs

/-- The Mule reads a channel's feedback and age from the live port buffer (R207, R270). A read that takes a machine check
counts as age 1 or above. -/
def Dev.readFb (x k n : Nat) (d : Dev) : Dev :=
  let base := x * 0x800 + 0x20 + k * 0x20
  let c := d.mapFld R.AXIS_MAP_CH n
  let (w0, bad0, d) := d.unitReads 0xF1 .live base 1
  let (ws, bad1, d) := d.unitReads 0xF1 .live (base + 4 + 5 * c) 5
  let w (i : Nat) : Nat := (ws.getD i 0).toNat
  if bad0 || bad1 then
    let old := d.get (R.AXIS_FB_AGE n)
    d.updAxis n (fun a => { a with age := if old = 255 then 255 else min 254 (old + 1) })
  else
    d.updAxis n (fun a => { a with
      age := (w0.headD 0).toNat % 256
      fbStat := BitVec.ofNat 16 (w 0)
      fbPos := BitVec.ofNat 32 (w 1 + 65536 * w 2)
      fbVel := BitVec.ofNat 32 (w 3 + 65536 * w 4) })

/-- The Mule reads what its tables hold of an axis: its registers and its active bank; their check bits (R19). -/
def Dev.axTables (n : Nat) (d : Dev) : Dev :=
  (d.scanArr 0xF1 .muleTab (n * 32) (n * 32 + 32)).scanArr 0xF1 .muleTab (0x1000 + n * 32 + d.get (R.AXIS_STAT_BANK n) * 16)
    (0x1000 + n * 32 + d.get (R.AXIS_STAT_BANK n) * 16 + 16)

/-- The axes that a node's frame carries feedback of, computed when it has been written (R204). A mismatch in a MAC lane is a
fatal check (R21). `t`: t_n. -/
def Dev.nodeSamples (x k t : Nat) (d : Dev) : Dev :=
  upTo 128 (fun n d =>
    if d.axOn x n && d.mapFld R.AXIS_MAP_NODE n == k && !d.sys.fatal then
      let d := d.axTables n
      if d.sys.fatal then d
      else if d.sys.muleTrip then ({ d with sys := { d.sys with muleTrip := false } }).fatalMc 4 0xF1 0
      else (d.readFb x k n).axisReady n t
    else d) d

end Sys2Proof.Machine
end

