-- ==== Sys2Proof/Machine/Mule.lean ====
section
/-! DEFINITION. The Mule at a cycle start (Table 8.2): commands (R212 to R214), bank swaps (R211), the RW parameters (R205),
gantry followers (R219), the motion groups, and the command slots of the next master frame (R213, R270); the ring that
leaves its running state (Table 8.6); and the Mule's registers (R210, R222, R226 to R234). -/

namespace Sys2Proof.Machine

/-! ## Commands -/

/-- A node is configured (R260): its address is below NNODE and every page in use holds an enabled entry for it. -/
def Dev.nodeConfigured (d : Dev) (x k : Nat) : Bool :=
  k < d.get (R.RING_CFG_NNODE x) &&
    (List.range (2 ^ d.get (R.RING_CFG_NPL x))).all (fun p =>
      (List.range 32).any (fun e => d.flag (R.RING_SCHED_LO_EN x (32 * p + e)) && d.get (R.RING_SCHED_LO_NODE x (32 * p + e)) == k))

/-- The load of an axis (R223): 2 when its ring runs at 15.625 µs, else 1. -/
def Dev.axLoad (d : Dev) (n : Nat) : Nat :=
  let x := d.get (R.AXIS_MAP_RING n)
  if d.ringRuns x && d.ringT x == 15625 then 2 else 1

/-- The sum of R223. -/
def Dev.loadSum (d : Dev) : Nat := (List.range 128).foldl (fun s n => if d.axState n = 0 then s else s + d.axLoad n) 0

/-- MULE_STAT.LOAD, which never exceeds 128: the sum could, when a ring starts at 15.625 µs under axes in FAULT (DESIGN
CHOICE, log entry 77). -/
def Dev.muleLoad (d : Dev) : Nat := min 128 d.loadSum

/-- The mapping reasons for which an ENABLE is refused (R214). -/
def Dev.mapRefuses (d : Dev) (n : Nat) : Bool :=
  !d.axLive n || !d.nodeConfigured (d.get (R.AXIS_MAP_RING n)) (d.get (R.AXIS_MAP_NODE n))
    || (List.range 128).any (fun m => m != n && d.axState m != 0 && d.get (R.AXIS_MAP_RING m) == d.get (R.AXIS_MAP_RING n)
        && d.get (R.AXIS_MAP_NODE m) == d.get (R.AXIS_MAP_NODE n) && d.get (R.AXIS_MAP_CH m) == d.get (R.AXIS_MAP_CH n))

/-- CLR_FAULT (Table 8.5). -/
def Dev.axClear (n : Nat) (d : Dev) : Dev :=
  if d.axState n == 3 then ((d.put (R.AXIS_STAT_STATE n) 0).put (R.AXIS_STAT_FCODE n) 0).put (R.AXIS_OUT n) 0 else d

/-- DISABLE (Table 8.5, R241). -/
def Dev.axDisable (n : Nat) (d : Dev) : Dev :=
  let st := d.axState n
  if st == 0 then d
  else
    let d := ((d.put (R.AXIS_STAT_STATE n) 0).put (R.AXIS_STAT_FCODE n) 0).put (R.AXIS_OUT n) 0
    if st == 2 then d.memberLeft n 4 else d

/-- ENABLE (Table 8.5, R214). -/
def Dev.axEnable (n : Nat) (d : Dev) : Dev :=
  if d.axState n != 0 then d
  else if d.mapRefuses n then (d.setF (R.AXIS_STAT_MAPDENY n)).aEv n 100
  else if 128 < d.loadSum + d.axLoad n then (d.setF (R.AXIS_STAT_CAPDENY n)).aEv n 100
  else (d.put (R.AXIS_STAT_STATE n) 1).updAxis n (fun a => { a with enCount := 0 })

/-- The CMD bits in their order: CLR_FAULT, DISABLE, ENABLE (R212), and PEAK_CLR. -/
def Dev.axCommands (n bits : Nat) (d : Dev) : Dev :=
  let d := if tst bits 2 then d.axClear n else d
  let d := if tst bits 1 then d.axDisable n else d
  let d := if tst bits 0 && !tst bits 1 then d.axEnable n else d
  if tst bits 4 then d.put (R.AXIS_FE_PEAK n) 0 else d

/-- The other axis of the enabled couple of an axis. -/
def Dev.coupleMate (d : Dev) (n : Nat) : Option Nat := (d.coupleOf n).map (fun c => if c.2.1 == n then c.2.2 else c.2.1)

/-- The CMD bits that act on an axis when those of the axes `ns` are taken: its own, and ENABLE, DISABLE and CLR_FAULT of its
couple's other axis (R221). -/
def Dev.cmdBits (d : Dev) (ns : List Nat) (n : Nat) : Nat :=
  (if ns.contains n then (d.axis n).cmd else 0) ||| (match d.coupleMate n with
    | some m => if ns.contains m then (d.axis m).cmd &&& 7 else 0
    | none => 0)

/-- The CMD bits of a list of axes are taken; they act on their couples' other axes too, wherever these are mapped. -/
def Dev.takeCmds (ns : List Nat) (d : Dev) : Dev :=
  let mates := (ns.filterMap d.coupleMate).filter (fun m => !ns.contains m)
  let bits := (ns ++ mates).map (fun n => (n, d.cmdBits ns n))
  let d := ns.foldl (fun d n => d.updAxis n (fun a => { a with cmd := 0 })) d
  bits.foldl (fun d b => d.axCommands b.1 b.2) d

/-! ## Swaps (R211) -/

/-- The other bank becomes active. -/
def Dev.swapBank (n : Nat) (d : Dev) : Dev := d.put (R.AXIS_STAT_BANK n) (1 - d.get (R.AXIS_STAT_BANK n))

/-- A list request is complete when every axis of it has swapped: PEND clears and SWAP_CNT increments on each. -/
def Dev.listCheck (d : Dev) : Dev :=
  if d.flag R.MULE_STAT_LPEND && (List.range 128).all (fun n => !(d.axis n).listSwap || (d.axis n).listDone) then
    let d := upTo 128 (fun n d =>
      if (d.axis n).listSwap then
        ((d.clrF (R.AXIS_STAT_PEND n)).incr (R.AXIS_SWAP_CNT n)).updAxis n (fun a =>
          { a with listSwap := false, listDone := false })
      else d) d
    (d.clrF R.MULE_STAT_LPEND).mev 0 98
  else d

/-- The pending swap of an axis takes place; `list`: a list request's boundary has come too. -/
def Dev.takeSwap (list : Bool) (n : Nat) (d : Dev) : Dev :=
  if !d.flag (R.AXIS_STAT_PEND n) then d
  else if !(d.axis n).listSwap then (((d.swapBank n).clrF (R.AXIS_STAT_PEND n)).incr (R.AXIS_SWAP_CNT n)).aEv n 98
  else if list && !(d.axis n).listDone then (d.swapBank n).updAxis n (fun a => { a with listDone := true })
  else d

/-- MULE_CMD.SWAP_LIST. -/
def Dev.swapListReq (d : Dev) : Dev :=
  let ns := (List.range 128).filter (fun n => tst (d.rd (R.SWAP_SEL (n / 32)).addr).toNat (n % 32))
  if d.flag R.MULE_STAT_LPEND || ns.any (fun n => d.flag (R.AXIS_STAT_PEND n)) then d.setF R.MULE_STAT_LDENY
  else
    let live := ns.filter (fun n => d.axLive n)
    let T := live.foldl (fun m n => max m (d.ringT (d.get (R.AXIS_MAP_RING n)))) 0
    let d := { d.setF R.MULE_STAT_LPEND with mule := { d.mule with listT := T } }
    let d := ns.foldl (fun d n =>
      (d.setF (R.AXIS_STAT_PEND n)).updAxis n (fun a => { a with listSwap := true, listDone := false })) d
    (ns.foldl (fun d n => if d.axLive n then d else d.takeSwap true n) d).listCheck

/-! ## Parameters (R205) -/

/-- The RW parameters as the registers hold them. -/
def Dev.readPar (d : Dev) (n : Nat) : AxisPar :=
  { map := d.rd (R.AXIS_MAP n).addr, ctrl := d.rd (R.AXIS_CTRL n).addr, fbCfg := d.rd (R.AXIS_FB_CFG n).addr, posOfs := d.rd (R.AXIS_POS_OFS n).addr
    posSp := d.rd (R.AXIS_POS_SP n).addr, velSp := d.rd (R.AXIS_VEL_SP n).addr, accSp := d.rd (R.AXIS_ACC_SP n).addr
    outMax := d.rd (R.AXIS_OUT_MAX n).addr, outMin := d.rd (R.AXIS_OUT_MIN n).addr
    vcmdMax := d.rd (R.AXIS_VCMD_MAX n).addr, trqOfs := d.rd (R.AXIS_TRQ_OFS n).addr
    feLim := d.rd (R.AXIS_FE_LIM n).addr, feTime := d.rd (R.AXIS_FE_TIME n).addr
    feWarn := d.rd (R.AXIS_FE_WARN n).addr, enTime := d.rd (R.AXIS_EN_TIME n).addr
    drvCtrl := d.rd (R.AXIS_DRV_CTRL n).addr }

/-- An axis takes its RW parameters; a notch whose enable bit changed starts from zero states (R200). A mapping to a ring
that runs, and whose t_n this is not (`ys`: the rings whose t_n it is), is left for that t_n. -/
def Dev.takePar (ys : List Nat) (n : Nat) (d : Dev) : Dev :=
  let old := (d.axis n).par
  let q := d.readPar n
  let q := if d.axLive n && !ys.contains (d.get (R.AXIS_MAP_RING n)) then { q with map := 0 } else q
  let diff := (old.ctrl ^^^ q.ctrl).toNat
  let d := if tst diff 6 then d.setStates (R.AXIS_S_NA n) 2 [] else d
  let d := if tst diff 7 then d.setStates (R.AXIS_S_NB n) 2 [] else d
  let hold := d.frozen n
  let d := d.updAxis n (fun a => { a with par := q })
  if hold then d.setSp n old.posSp old.velSp old.accSp else d

/-- An axis that waits for a t_n: of the ring it is mapped to, or of the one that its samples still follow. -/
def Dev.axWaits (d : Dev) (n : Nat) : Bool := d.axLive n || d.axHeld n

/-- A couple whose lead has no t_n takes DIFF_LIM at once, one on a ring of `ys` at its t_n (R205). -/
def Dev.takeLim (ys : List Nat) (g : Nat) (d : Dev) : Dev :=
  let l := d.get (R.GANTRY_CTRL_L g)
  if !d.axWaits l || ys.any (fun y => d.axOn y l) then
    { d with mule := { d.mule with diffLim := Store.set (fun _ => 0) d.mule.diffLim g (d.rd (R.GANTRY_DIFF_LIM g).addr) } }
  else d

/-- An axis without a t_n takes its CMD bits, parameters and swaps at once (R211, R212). -/
def Dev.takeNow (n : Nat) (d : Dev) : Dev :=
  if d.axWaits n then d
  else
    let ns := match d.coupleOf n with
      | some (_, l, f) => [l, f].filter (fun m => !d.axWaits m)
      | none => [n]
    ((((d.takeCmds ns).takeSwap true n).listCheck).takePar [] n).flushMev

/-! ## Command slots (R213, R270) -/

/-- The command word and command of an axis for the next master frame. -/
def Dev.axSlot (d : Dev) (n : Nat) : BitVec 16 × BitVec 32 :=
  let en := d.axState n == 1 || d.axComputes n
  let w := (d.axis n).par.drvCtrl.toNat % 65536 / 2 * 2 + b2n en
  (BitVec.ofNat 16 w, if d.axComputes n then d.rd (R.AXIS_OUT n).addr else 0)

/-- The commands of ring `x` by 4 × node + channel: the lowest-numbered axis of a channel that is not DISABLED, else the
lowest-numbered one. -/
def Dev.slotCmds (d : Dev) (x : Nat) : Store (BitVec 16 × BitVec 32) :=
  let ns := (List.range 128).filter (fun n => d.axOn x n)
  let order := (ns.filter (fun n => d.axState n == 0)).reverse ++ (ns.filter (fun n => d.axState n != 0)).reverse
  order.foldl (fun s n =>
    Store.set (fun _ => (0, 0)) s (4 * d.mapFld R.AXIS_MAP_NODE n + d.mapFld R.AXIS_MAP_CH n) (d.axSlot n)) []

/-! ## The Mule stream of the active pair member (R392) -/

/-- The ring header: ring, CYC of the cycle that began at `t`, STATE and HEALED. -/
def Dev.ringHeader (d : Dev) (x t : Nat) : List Nat :=
  [x, t / d.ringT x % 2 ^ 32, d.get (R.RING_STAT_STATE x), d.get (R.RING_STAT_HEALED x)]

/-- An axis record. -/
def Dev.axisRecord (d : Dev) (n : Nat) : List Nat :=
  let a := d.axis n
  [n, a.fbPos.toNat, a.fbVel.toNat, a.fbStat.toNat, a.age] ++ (d.axisChecks n).map (·.toNat)

/-- The Mule-table writes taken at t_n. -/
def Dev.muleWrSend (d : Dev) : Dev :=
  if d.pair.mwOut.isEmpty then d
  else
    let d' := if d.mirroring then
        d.emit (.pair 0x22 (d.pair.mwOut.flatMap (fun w => [w.addr.toNat, w.mask.toNat, w.val.toNat])))
      else d
    { d' with pair := { d'.pair with mwOut := [] } }

/-- The record of the cycle of ring `x` that began at `t`. -/
def Dev.muleRecSend (x t : Nat) (d : Dev) : Dev :=
  if d.mirroring && d.ringRuns x then
    let ns := (List.range 128).filter (fun n => d.axOn x n)
    let h := d.ringHeader x t
    let cyc := h.getD 1 0
    ((d.emit (.pair 0x23 (h ++ ns.flatMap d.axisRecord))).emit (.pair 0x24 [x, cyc])).put R.MIR_CYC cyc
  else d

/-! ## The cycle start (Table 8.2) -/

/-- The follower of every couple on a handled ring takes its lead's setpoint (R219). -/
def Dev.followers (ys : List Nat) (d : Dev) : Dev :=
  upTo 16 (fun g d =>
    let l := d.get (R.GANTRY_CTRL_L g)
    if d.flag (R.GANTRY_CTRL_EN g) && ys.any (fun y => d.axOn y l) then
      let p := (d.axis l).par
      d.setSp (d.get (R.GANTRY_CTRL_F g)) (p.posSp - d.rd (R.GANTRY_OFS g).addr) p.velSp p.accSp
    else d) d

/-- A motion group with a member on a handled ring that has not worked on `t`. -/
def Dev.groupsAt (d : Dev) (ys : List Nat) (t : Nat) : List Nat :=
  (List.range 16).filter (fun g =>
    d.gEnabled g && (d.grp g).lastT.toNat != t && (d.members g).any (fun m => ys.any (fun y => d.axMapped y m.2)))

/-- The Mule reads what its tables hold of a group, its queue with it; their check bits (R19). -/
def Dev.groupTables (g : Nat) (d : Dev) : Dev :=
  (d.scanArr 0xF1 .muleTab (0x3000 + g * 64) (0x3000 + g * 64 + 64)).scanArr 0xF1 .muleTab (0x2000 + g * 256) (0x2000 + g * 256 + 256)

/-- t_n of the rings `ys`: the Mule and the interpolator do their work of Table 8.2 and R229, once for each ring and group.
`ns`: the axes that a ring of `ys` is or was named for. -/
def Dev.muleCycle (t : Nat) (ys ns gs : List Nat) (d : Dev) : Dev :=
  let skip (n : Nat) : Bool := tst (d.rd (R.AXIS_CTRL n).addr).toNat 3 || d.frozen n || d.isFollower n
  let d := gs.foldl (fun d g => d.gPlace skip g) d
  let list := d.mule.listT != 0 && t % d.mule.listT == 0
  let d := (ns.foldl (fun d n => d.takeSwap list n) (d.takeCmds ns)).listCheck
  let d := ns.foldl (fun d n => (d.takePar ys n).updAxis n (fun a => { a with gotFb := false })) d
  let d := (upTo 16 (fun g d => d.takeLim ys g) d).followers ys
  let d := gs.foldl (fun d g => d.gTake t g) d
  let d := gs.foldl (fun d g => d.gSync t g) d
  let d := gs.foldl (fun d g => (d.gWork t g).updGrp g (fun s => { s with lastT := BitVec.ofNat 64 t })) d
  d.flushMev

/-- t_n of every ring in RUN whose cycle starts at `t`: the commands of the sample before go to the master frame, the tables
are read, and the work is done. -/
def Dev.muleBoundary (t : Nat) (d : Dev) : Dev :=
  if d.sys.fatal then d
  else
    let ys := (List.range 4).filter (fun y => d.ringRuns y && t % d.ringT y == 0 && (d.ring y).muleT.toNat != t)
    let d := (ys.foldl (fun d y => d.updRing y (fun s => { s with cmds := d.slotCmds y, muleT := BitVec.ofNat 64 t })) d).newCycles t
    let gs := d.groupsAt ys t
    let ns := (List.range 128).filter (fun n => ys.any (fun y => d.axMapped y n || d.axOn y n))
    let d := gs.foldl (fun d g => d.groupTables g) (ns.foldl (fun d n => d.axTables n) d)
    if d.sys.fatal then d else d.muleCycle t ys ns gs

/-- Ring `x` has left its running state (Table 8.6, code 6): its axes fault, and what waited for a t_n is taken. -/
def Dev.ringLeft (x : Nat) (d : Dev) : Dev :=
  let ns := (List.range 128).filter (fun n => d.axOn x n || d.axMapped x n)
  let d := ns.foldl (fun d n => d.axFault n d.time.toNat [(6, .off)]) d
  let d := (ns.foldl (fun d n => d.takeSwap true n) d).listCheck
  let d := ns.foldl (fun d n => d.takePar [] n) d
  let d := upTo 16 (fun g d => d.takeLim [] g) d
  let d := (d.takeCmds ns).flushMev
  if d.mirroring then d.emit (.pair 0x23 (d.ringHeader x (d.ring x).t.toNat)) else d

/-! ## Registers of an axis -/

/-- A write refused under R226. -/
def Dev.axDeny (n : Nat) (d : Dev) : Dev := d.setF (R.AXIS_STAT_WDENY n)

/-- AXIS[n].CTRL (R226). -/
def Dev.wrAxisCtrl (n : Nat) (w : Wr) (d : Dev) : Dev :=
  let a := (R.AXIS_CTRL n).addr
  let old := d.rd a
  let new := w.over old
  let bad := d.axState n != 0 && ((old ^^^ new) &&& 0xC) != 0
  let w := if bad then { w with mask := w.mask &&& 0xFFFFFFF3 } else w
  let d := if bad then d.axDeny n else d
  (d.writePlain a w).takeNow n

/-- AXIS[n].CMD: the bits wait for t_n; SWAP sets PEND (R211). -/
def Dev.wrAxisCmd (n : Nat) (w : Wr) (d : Dev) : Dev :=
  let bits := if w.wo then (w.val &&& w.mask).toNat % 32 else 0
  let d := d.updAxis n (fun a => { a with cmd := a.cmd ||| (bits &&& 0x17) })
  let d := if tst bits 3 && !d.flag (R.AXIS_STAT_PEND n) then
      (d.setF (R.AXIS_STAT_PEND n)).updAxis n (fun a => { a with listSwap := false, listDone := false })
    else d
  d.takeNow n

/-- AXIS[n].MAP, FB_CFG and POS_OFS (R226). -/
def Dev.wrAxisCfg (n a : Nat) (w : Wr) (d : Dev) : Dev :=
  if d.axState n == 0 then (d.writePlain a w).takeNow n else d.axDeny n

/-- AXIS[n].POS_SP, VEL_SP and ACC_SP (R226). -/
def Dev.wrAxisSp (n a : Nat) (w : Wr) (d : Dev) : Dev :=
  if d.flag (R.AXIS_CTRL_SPSRC n) then (d.writePlain a w).takeNow n else d.axDeny n

/-- Every other register of an axis. -/
def Dev.wrAxis (n a : Nat) (w : Wr) (d : Dev) : Dev := (d.writePlain a w).takeNow n

/-- A coefficient (R210). -/
def Dev.wrCoef (n b a : Nat) (w : Wr) (d : Dev) : Dev :=
  if d.get (R.AXIS_STAT_BANK n) == b || d.flag (R.AXIS_STAT_PEND n) then d.setF (R.AXIS_STAT_ACTW n)
  else d.writePlain a w

/-! ## Global and gantry registers -/

/-- MULE_CMD. -/
def Dev.wrMuleCmd (w : Wr) (d : Dev) : Dev :=
  let d := if w.does R.MULE_CMD_DIS_ALL then
      upTo 128 (fun n d => (d.updAxis n (fun a => { a with cmd := a.cmd ||| 2 })).takeNow n) d
    else d
  if w.does R.MULE_CMD_SWAP_LIST then d.swapListReq.flushMev else d

/-- GANTRY[g].CTRL (R222). -/
def Dev.wrGantryCtrl (g : Nat) (w : Wr) (d : Dev) : Dev :=
  let a := (R.GANTRY_CTRL g).addr
  let old := d.rd a
  let new := w.over old
  let l := (R.GANTRY_CTRL_L g).of new
  let f := (R.GANTRY_CTRL_F g).of new
  let busy (v : BitVec 32) : Bool :=
    d.axState ((R.GANTRY_CTRL_L g).of v) != 0 || d.axState ((R.GANTRY_CTRL_F g).of v) != 0
  let taken := (List.range 16).any (fun h => h != g && d.flag (R.GANTRY_CTRL_EN h) &&
    [d.get (R.GANTRY_CTRL_L h), d.get (R.GANTRY_CTRL_F h)].any (fun n => n == l || n == f))
  let deny := (d.flag (R.GANTRY_CTRL_EN g) && busy old)
    || (tst new.toNat 31 && (busy new || l == f || taken
        || d.get (R.AXIS_MAP_RING l) != d.get (R.AXIS_MAP_RING f)))
  if deny then d.setF (R.GANTRY_STAT_DENY g) else (d.writePlain a w).takeLim [] g

/-- GANTRY[g].OFS: refused while the couple's axes are not DISABLED. -/
def Dev.wrGantryOfs (g : Nat) (w : Wr) (d : Dev) : Dev :=
  if d.flag (R.GANTRY_CTRL_EN g)
      && (d.axState (d.get (R.GANTRY_CTRL_L g)) != 0 || d.axState (d.get (R.GANTRY_CTRL_F g)) != 0) then
    d.setF (R.GANTRY_STAT_DENY g)
  else d.writePlain (R.GANTRY_OFS g).addr w

/-- GANTRY[g].DIFF_LIM: taken at t_n, or at once (R205). -/
def Dev.wrGantryLim (g a : Nat) (w : Wr) (d : Dev) : Dev := (d.writePlain a w).takeLim [] g

/-- GANTRY[g].STAT.ACT: both axes are ENABLED. -/
def Dev.gantryAct (d : Dev) (g : Nat) : Bool :=
  d.flag (R.GANTRY_CTRL_EN g) && d.axState (d.get (R.GANTRY_CTRL_L g)) == 2 && d.axState (d.get (R.GANTRY_CTRL_F g)) == 2

/-! ## Motion-group registers -/

/-- A refused group write. -/
def Dev.gDeny (g : Nat) (d : Dev) : Dev := d.setF (R.GROUP_STAT_DENY g)

/-- A write of CFG.EN = 1 to a disabled group is refused (R227). -/
def Dev.gRefused (d : Dev) (g : Nat) (new : BitVec 32) : Bool :=
  let ms := (d.members g).map (·.2)
  let ring (n : Nat) : Nat := d.get (R.AXIS_MAP_RING n)
  ms.isEmpty || new.toNat % 4 ≥ 2
    || ms.any (fun n => 1 < (ms.filter (· == n)).length || (d.groupOf n).isSome || !d.axLive n
        || d.ringT (ring n) != d.ringT (ring (ms.headD 0)))

/-- GROUP[g].CFG (R227, R228). -/
def Dev.wrGroupCfg (g : Nat) (w : Wr) (d : Dev) : Dev :=
  let a := (R.GROUP_CFG g).addr
  let old := d.rd a
  let new := w.over old
  let on := tst new.toNat 31
  if !d.gEnabled g then
    if on then
      if d.gRefused g new then d.gDeny g
      else (d.writePlain a w).updGrp g (fun s => { s with initPlan := true })
    else d.writePlain a w
  else if on then
    if (old ^^^ new) &&& 0x80000003 == 0 then d.writePlain a w else d.gDeny g
  else if d.gState g == 0 || d.gState g == 6 then d.writePlain a w
  else d.gDeny g

/-- GROUP[g].CMD: the bits wait for t_n (R239). -/
def Dev.wrGroupCmd (g : Nat) (w : Wr) (d : Dev) : Dev :=
  let bits := if w.wo then (w.val &&& w.mask).toNat % 32 else 0
  d.updGrp g (fun s => { s with cmd := s.cmd ||| bits })

/-- GROUP[g].MEMBER[k].AXIS (R228). -/
def Dev.wrMember (g a : Nat) (w : Wr) (d : Dev) : Dev := if d.gEnabled g then d.gDeny g else d.writePlain a w

/-- GROUP[g].QPTR (R233, R234). -/
def Dev.wrQptr (g : Nat) (w : Wr) (d : Dev) : Dev :=
  let f : Fld := R.GROUP_QPTR_WR g
  let old := d.get f
  let new := f.of (w.over (d.rd f.addr))
  let rd := d.get (R.GROUP_QPTR_RD g)
  if w.mask &&& rangeMask f.hi f.lo == 0 then d
  else if d.get (R.GROUP_CFG_SRC g) == 1 then d.setF (R.GROUP_STAT_QERR g)
  else if (new + 128 - rd) % 128 ≤ 64 && (new + 128 - old) % 128 ≤ 64 then (d.setQ g new rd).flushMev
  else ((d.setF (R.GROUP_STAT_QERR g)).gEv g 107).flushMev

/-- Dword `j` of the queue words of group `g` (R233, R234). -/
def Dev.wrSegq (g j a : Nat) (w : Wr) (d : Dev) : Dev :=
  let e := j / 8
  let rd := d.get (R.GROUP_QPTR_RD g)
  if d.get (R.GROUP_CFG_SRC g) == 1 || (e + 128 - rd) % 64 < d.qCount g then d.setF (R.GROUP_STAT_QERR g)
  else d.writePlain a w

end Sys2Proof.Machine
end

