-- ==== Sys2Proof/Machine/RingFrames.lean ====
section
/-! DEFINITION. The octets of Purok frames (10_purok_ring.md, Tables 10.2 to 10.7): what the master sends, and the fields of
what arrives. An octet's number counts from the first of the destination address (R250). -/

namespace Sys2Proof.Machine

/-! ## Octets -/

/-- Octet `i` of a frame, 0 past its end. -/
def octet (bs : List (BitVec 8)) (i : Nat) : Nat := (bs.getD i 0).toNat

/-- The value of the `n` octets from `i` upward, least significant first. -/
def octetsVal (bs : List (BitVec 8)) (i : Nat) : Nat → Nat
  | 0 => 0
  | n + 1 => octet bs i + 256 * octetsVal bs (i + 1) n

/-- A frame with its FCS appended (IEEE 802.3 CRC-32). -/
def withFcs (bs : List (BitVec 8)) : List (BitVec 8) := bs ++ bytesLE 4 (crc32 bs)

/-- The FCS of a frame is correct. -/
def fcsOf (bs : List (BitVec 8)) : Bool :=
  let body := bs.take (bs.length - 4)
  4 ≤ bs.length && octetsVal bs body.length 4 == crc32 body

/-- The octets before TYPE: DA, SA with the master's ring number, EtherType 0x88B5 (Table 10.3). -/
def masterHead (x : Nat) : List (BitVec 8) :=
  List.replicate 6 0xFF ++ [0x02, 0, 0, 0, 0, BitVec.ofNat 8 x, 0x88, 0xB5]

/-- The octets before TYPE of an enumeration or link-delay frame. The spec gives their DA and SA no value: a free value
(DESIGN CHOICE, log entry 78). -/
def auxHead (type x : Nat) : List (BitVec 8) := (List.range 12).map (Config.ringAddr type x) ++ [0x88, 0xB5]

/-! ## Frames that the device sends -/

/-- The fields of a master frame (Table 10.3): the header, the service request, and the 16 words of each slot. -/
structure MasterFrame where
  cyc : BitVec 16
  rtime : BitVec 64
  ctc : Nat
  nslot : Nat
  run : Bool
  heal : Bool
  page : Nat
  svcNode : Nat
  svcOp : Nat
  svcTag : Nat
  svcIndex : Nat
  svcData : BitVec 32
  slots : List (List (BitVec 16))
deriving DecidableEq, Repr, Inhabited

/-- A master frame of ring `x` (Tables 10.3, 10.4 and 10.7). -/
def MasterFrame.octets (x : Nat) (f : MasterFrame) : List (BitVec 8) :=
  withFcs (masterHead x ++ [0x01, 0x10] ++ bytesLE 2 f.cyc.toNat ++ bytesLE 8 f.rtime.toNat
    ++ [BitVec.ofNat 8 f.ctc, BitVec.ofNat 8 f.nslot, BitVec.ofNat 8 (b2n f.run + 2 * b2n f.heal), BitVec.ofNat 8 f.page,
        BitVec.ofNat 8 f.svcNode, 0, BitVec.ofNat 8 f.svcOp, BitVec.ofNat 8 f.svcTag]
    ++ bytesLE 2 f.svcIndex ++ bytesLE 4 f.svcData.toNat ++ List.replicate 24 0 ++ wordBytes f.slots.flatten)

/-- The fields of a node frame (Tables 10.5 to 10.7). -/
structure NodeFrame where
  len : Nat
  node : Nat
  cyc : BitVec 16
  nstat : BitVec 16
  rspTag : Nat
  rspResult : Nat
  rspData : BitVec 32
  payload : List (BitVec 16)    -- words +4 to +27 of the node group: octets 2 w and 2 w + 1 of PAYLOAD (Table 10.11)
deriving DecidableEq, Repr, Inhabited

/-- An enumeration frame as the master sends it: COUNT 0, DLY 0 (R254). -/
def enumOctets (x eseq : Nat) : List (BitVec 8) :=
  withFcs (auxHead 3 x ++ [0x03, 0x10] ++ bytesLE 2 0 ++ bytesLE 4 0 ++ bytesLE 2 eseq ++ List.replicate 40 0)

/-- A link-delay request (TYPE 4) or response (TYPE 5) (R255). -/
def linkOctets (type x lseq turn : Nat) : List (BitVec 8) :=
  withFcs (auxHead type x ++ [BitVec.ofNat 8 type, 0x10] ++ bytesLE 2 lseq ++ bytesLE 4 turn ++ List.replicate 42 0)

/-- An enumeration frame that a standby forwards: DLY replaced and the FCS computed again (R256). -/
def enumForward (bs : List (BitVec 8)) (dly : Nat) : List (BitVec 8) :=
  withFcs (bs.take 18 ++ bytesLE 4 dly ++ (bs.take (bs.length - 4)).drop 22)

end Sys2Proof.Machine

namespace Sys2Proof

open Machine

/-! ## Frames that arrive -/

/-- The FCS is correct. A code-group error counts as an FCS error (R278). -/
def RxFrame.fcsOk (f : RxFrame) : Bool := !f.codeErr && fcsOf f.octets

/-- EtherType 0x88B5 (R250). -/
def RxFrame.purok (f : RxFrame) : Bool := octet f.octets 12 == 0x88 && octet f.octets 13 == 0xB5

/-- TYPE (Table 10.2). -/
def RxFrame.type (f : RxFrame) : Nat := octet f.octets 14

/-- A Purok frame of a TYPE. -/
def RxFrame.isType (f : RxFrame) (n : Nat) : Bool := f.purok && f.type == n

/-- CYC of a master or node frame. -/
def RxFrame.cyc (f : RxFrame) : BitVec 16 := BitVec.ofNat 16 (octetsVal f.octets 16 2)

/-- RTIME of a master frame. -/
def RxFrame.rtime (f : RxFrame) : Nat := octetsVal f.octets 18 8

/-- DLY of an enumeration frame, TURN of a link-delay response. -/
def RxFrame.dly (f : RxFrame) : Nat := octetsVal f.octets 18 4

/-- LSEQ of a link-delay frame. -/
def RxFrame.lseq (f : RxFrame) : Nat := octetsVal f.octets 16 2

/-- The node frame that has arrived. -/
def RxFrame.node (f : RxFrame) : NodeFrame :=
  let bs := f.octets
  { len := bs.length, node := octet bs 15, cyc := f.cyc, nstat := BitVec.ofNat 16 (octetsVal bs 18 2)
    rspTag := octet bs 20, rspResult := octet bs 21, rspData := BitVec.ofNat 32 (octetsVal bs 24 4)
    payload := (List.range 24).map (fun w => BitVec.ofNat 16 (octetsVal bs (28 + 2 * w) 2)) }

end Sys2Proof
end

