-- ==== Sys2Proof/Machine/RingBase.lean ====
section
/-! DEFINITION. The ring controllers (10_purok_ring.md, 11_ring_timing_faults.md), first part: the schedule and its checks
(R260 to R262), the live port buffers and the I region (R267 to R269), the end of a run, breaks and healing (R283 to R286),
and the service channel (R257, R272). -/

namespace Sys2Proof.Machine

/-! ## State and lengths -/

/-- STAT.STATE: 0 OFF, 1 LINK, 2 ENUM, 3 CONFIG, 4 SYNC, 5 RUN, 6 STOPPING, 7 ERROR. -/
def Dev.rState (d : Dev) (x : Nat) : Nat := d.get (R.RING_STAT_STATE x)

/-- The ring sends master frames: CONFIG to STOPPING. -/
def Dev.rSending (d : Dev) (x : Nat) : Bool := 3 ≤ d.rState x && d.rState x ≤ 6

/-- WIN as it acts: a value below 8 acts as 8. -/
def Dev.rWin (d : Dev) (x : Nat) : Nat := max 8 (d.get (R.RING_CFG_WIN x))

/-- F of R261 in tenths of a ns. -/
def Dev.rF10 (d : Dev) (x : Nat) : Nat := (68 + 32 * d.get (R.RING_CFG_NNODE x)) * 32

/-- t_n of the cycle in progress. -/
def Dev.rT (d : Dev) (x : Nat) : Nat := (d.ring x).t.toNat

/-- CYC of the cycle in progress (R248). -/
def Dev.rCyc (d : Dev) (x : Nat) : Nat := d.rT x / d.ringT x % 2 ^ 32

/-- CYC of the cycle before. -/
def Dev.rPrevCyc (d : Dev) (x : Nat) : Nat := (d.ring x).prevT.toNat / d.ringT x % 2 ^ 32

/-- The page of cycle `cyc` (R260). -/
def Dev.pageOf (d : Dev) (x cyc : Nat) : Nat := cyc % 2 ^ d.get (R.RING_CFG_NPL x)

/-- The page of the cycle in progress (R260). -/
def Dev.rPage (d : Dev) (x : Nat) : Nat := d.pageOf x (d.rCyc x)

/-- The enabled entries of page `p`: node and OFS. -/
def Dev.pageEntries (d : Dev) (x p : Nat) : List (Nat × Nat) :=
  (List.range 32).filterMap (fun e =>
    let k := 32 * p + e
    if d.flag (R.RING_SCHED_LO_EN x k) then some (d.get (R.RING_SCHED_LO_NODE x k), d.get (R.RING_SCHED_HI_OFS x k)) else none)

/-- The nodes scheduled in the cycle in progress, with OFS. -/
def Dev.scheduled (d : Dev) (x : Nat) : List (Nat × Nat) := d.pageEntries x (d.rPage x)

/-- OFS of node `k` in this cycle. -/
def Dev.ofsOf (d : Dev) (x k : Nat) : Option Nat := ((d.scheduled x).find? (fun e => e.1 == k)).map (·.2)

/-- OFS of node `k` in the cycle before. -/
def Dev.prevOfs (d : Dev) (x k : Nat) : Option Nat :=
  ((d.pageEntries x (d.pageOf x (d.rPrevCyc x))).find? (fun e => e.1 == k)).map (·.2)

/-- Every enabled entry of the pages in use. -/
def Dev.allEntries (d : Dev) (x : Nat) : List (Nat × Nat) :=
  (List.range (2 ^ d.get (R.RING_CFG_NPL x))).flatMap (fun p => d.pageEntries x p)

/-! ## Schedule (R261, R262) -/

/-- Two entries of a page do not clash. -/
def pageApart (gap : Nat) : List (Nat × Nat) → Bool
  | [] => true
  | e :: es => es.all (fun f => f.1 != e.1 && (e.2 + gap ≤ f.2 || f.2 + gap ≤ e.2)) && pageApart gap es

/-- The conditions of R261. -/
def Dev.scheduleOk (d : Dev) (x : Nat) : Bool :=
  let W := d.rWin x
  let es := d.allEntries x
  es.all (fun e =>
    e.1 < d.get (R.RING_CFG_NNODE x)
      && es.all (fun f => f.1 != e.1 || f.2 == e.2)
      && 10 * (d.get (R.RING_LOOP x) + 64 + W) + d.rF10 x ≤ 10 * e.2
      && e.2 + 282 + W + 3000 ≤ d.ringT x)
    && (List.range (2 ^ d.get (R.RING_CFG_NPL x))).all (fun p => pageApart (282 + W) (d.pageEntries x p))

/-- CFG.AUTO: the schedule is filled (R262). -/
def Dev.autoSchedule (x : Nat) (d : Dev) : Dev :=
  let W := d.rWin x
  let o0 := ceilDiv (10 * (d.get (R.RING_LOOP x) + 64 + W) + d.rF10 x) 80 * 8
  let s := ceilDiv (282 + W) 8 * 8
  let d := (d.arrErrors (.sched (Fin.ofNat 4 x)) 0 1024).foldl (fun d e => d.setEcc (.sched (Fin.ofNat 4 x)) (4 * e.1) .ok) d
  let d := upTo 1024 (fun k d => (d.wrReg (R.RING_SCHED_LO x k).addr 0).wrReg (R.RING_SCHED_HI x k).addr 0) d
  upTo (2 ^ d.get (R.RING_CFG_NPL x)) (fun p d =>
    upTo (d.get (R.RING_CFG_NNODE x)) (fun k d =>
      let e := 32 * p + k
      ((d.setF (R.RING_SCHED_LO_EN x e)).put (R.RING_SCHED_LO_NODE x e) k).put (R.RING_SCHED_HI_OFS x e) (o0 + k * s)) d) d

/-- TAPPLY (R263). -/
def Dev.tapply (d : Dev) (x : Nat) : Nat := ceilDiv (10 * (d.get (R.RING_LOOP x) + 250) + d.rF10 x) 1000 * 100

/-- LAT_k as node `k` reported it in CAPS. -/
def Dev.latOf (d : Dev) (x k : Nat) : Nat := Store.get (fun _ => 0) (d.ring x).lat k

/-- TXOFS_k = OFS − (LOOP − D_k − LAT_k), 0 for a node with no enabled entry (R262, R263). -/
def Dev.txofs (d : Dev) (x k : Nat) : Int :=
  match (d.allEntries x).find? (fun e => e.1 == k) with
  | some (_, o) => (o : Int) - d.get (R.RING_LOOP x) + d.get (R.RING_NODE_DLY x k) + d.latOf x k
  | none => 0

/-- PAGES of node `k` (R263). -/
def Dev.pagesOf (d : Dev) (x k : Nat) : Nat :=
  (List.range (2 ^ d.get (R.RING_CFG_NPL x))).foldl (fun m p =>
    if (d.pageEntries x p).any (fun e => e.1 == k) then setBit m p else m) 0

/-! ## Live port buffers and images -/

/-- The unit number of a ring controller in error logs. -/
def ringUnit (x : Nat) : Nat := 0xF2 + x

/-- Write words of ring `x`'s area of the live port buffers (Table 10.11). -/
def Dev.liveW (x o : Nat) (ws : List (BitVec 16)) (d : Dev) : Dev := d.unitStore (ringUnit x) (wholeWords .live (x * 0x800 + o) ws)

/-- The node group of node `k`. -/
def nodeOff (k : Nat) : Nat := 0x20 + k * 0x20

/-- The age byte of node `k` grows by one cycle (R269, R275): read and written back by the ring. -/
def Dev.ageNode (x k : Nat) (d : Dev) : Dev :=
  let (ws, bad, d) := d.unitReads (ringUnit x) .live (x * 0x800 + nodeOff k) 1
  let a := (ws.headD 0).toNat % 256
  if bad then d else d.liveW x (nodeOff k) [BitVec.ofNat 16 (if a = 255 then 255 else min 254 (a + 1))]

/-- Write words of ring `x`'s I region (R268). -/
def Dev.ringI (x o : Nat) (ws : List (BitVec 16)) (d : Dev) : Dev := d.portI (1 + x) (ringUnit x) o ws

/-- The I region group of node `k`: AGE, NSTAT and the AUX_IN words. The region ends with the nodes of the last scan
start (R265). -/
def Dev.ringGroupI (x k : Nat) (d : Dev) : Dev :=
  if k < (d.ring x).nnodeI && (d.iBase (1 + x)).isSome then
    let (ws, _, d) := d.unitWords (ringUnit x) (([0, 2, 24, 25, 26, 27]).map (fun i => (.live, x * 0x800 + nodeOff k + i)))
    d.ringI x (2 + 6 * k) ws
  else d

/-- A new STATE, shown in STAT and in the live area. -/
def Dev.setRing (x n : Nat) (d : Dev) : Dev := (d.put (R.RING_STAT_STATE x) n).liveW x 2 [BitVec.ofNat 16 n]

/-- The registers of a ring's configuration and schedule, as a resynchronization sends them (R405). -/
def ringCopyRegs (x : Nat) : List Nat :=
  [(R.RING_CFG x).addr, (R.RING_LOOP x).addr, (R.RING_TAPPLY x).addr]
    ++ (List.range 32).flatMap (fun k => [(R.RING_NODE_DLY x k).addr, (R.RING_NODE_TXOFS x k).addr])
    ++ (List.range 1024).flatMap (fun e => [(R.RING_SCHED_LO x e).addr, (R.RING_SCHED_HI x e).addr])

/-- The active pair member sends them: addresses and values, then each LAT_k. -/
def Dev.ringCopySend (x : Nat) (d : Dev) : Dev :=
  if d.mirroring then
    d.emit (.pair 0x29 (2 :: x :: (ringCopyRegs x).flatMap (fun a => [a, (d.rd a).toNat])
      ++ (List.range 32).map (fun k => Store.get (fun _ => 0) (d.ring x).lat k)))
  else d

/-- What the ring writes when it enters RUN (R269). `t`: the t_n at which it does. A pair's active member sends the ring's
configuration again (R405). -/
def Dev.runEntry (x t : Nat) (d : Dev) : Dev :=
  let d := upTo 32 (fun k d =>
    (d.liveW x (nodeOff k) [0xFF]).liveW x (nodeOff k + 2) [0] |>.liveW x (nodeOff k + 4) (List.replicate 24 0)) d
  let d := upTo 32 (fun k d => d.ringGroupI x k) d
  let w := BitVec.ofNat 16 (t / d.ringT x - 1)
  let d := d.ringI x 0 [w, w]
  let d := (d.setRing x 5).updRing x (fun s => { s with toRun := false, dead := 0, muleT := 0, late := [] })
  d.ringCopySend x

/-! ## The end of a run -/

/-- An outstanding request of SVC_CTRL ends as a timeout (R257, R272). -/
def Dev.svcEnd (x : Nat) (d : Dev) : Dev :=
  match (d.ring x).req with
  | none => d
  | some q =>
    let d := d.updRing x (fun s => { s with req := none })
    if q.own then (d.put (R.RING_SVC_STAT_RESULT x) 0x10).clrF (R.RING_SVC_STAT_BUSY x) else d

/-- The ring enters OFF (0) or ERROR (7); in RUN its axes fault. -/
def Dev.ringEnd (x n : Nat) (d : Dev) : Dev :=
  let ran := d.ringRuns x
  let d := (d.svcEnd x).setRing x n
  let d := d.updRing x (fun s => { s with stopAsked := false, toRun := false, stopLeft := 0, outOpen := false, tko := false, late := [] })
  if ran then d.ringLeft x else d

/-- A start-up step fails (R263). -/
def Dev.ringErr (x err : Nat) (d : Dev) : Dev := (d.put (R.RING_STAT_ERR x) err).ringEnd x 7

/-- A failure that names a node. -/
def Dev.ringErrNode (x err k : Nat) (d : Dev) : Dev := (d.put (R.RING_STAT_ERR_NODE x) k).ringErr x err

/-- Counters are zeroed (R291). `all`: with NODE[k].AERR, as CNT_CLR does. -/
def Dev.clearCounters (x : Nat) (all : Bool) (d : Dev) : Dev :=
  let d := [R.RING_SLOT_MISS x, R.RING_EARLY x, R.RING_LATE x, R.RING_FCS_ERR x, R.RING_STRAY x, R.RING_MF_LOST x,
    R.RING_BREAK_CNT x].foldl (fun d f => d.put f 0) d
  upTo 32 (fun k d =>
    let d := d.put (R.RING_NODE_MISS x k) 0
    if all then d.put (R.RING_NODE_AERR x k) 0 else d) d

/-! ## Start and stop (R263, R264) -/

/-- CFG passes START's check. -/
def Dev.ringCfgOk (d : Dev) (x : Nat) : Bool :=
  let ctc := d.get (R.RING_CFG_CTC x)
  let n := d.get (R.RING_CFG_NNODE x)
  ctc ≤ 5 && n != 0 && n ≤ (if ctc = 0 then 16 else 32) && d.get (R.RING_CFG_NPL x) ≤ 5
    && (List.range 8).all (fun p =>
      !(d.flag (R.RING_CPT_EN x p) && !d.flag (R.RING_CPT_REL x p) && d.ringT x ≤ d.get (R.RING_CPT_OFS x p)))

/-- ENUM begins (Table 10.10). -/
def Dev.enterEnum (x : Nat) (d : Dev) : Dev :=
  (d.setRing x 2).updRing x (fun s => { s with stepAt := d.time, enumN := 0, enumLoops := [], enumAt := none })

/-- CMD.START in OFF or ERROR. LINK ends at once where both ports are synchronized. -/
def Dev.ringStart (x : Nat) (d : Dev) : Dev :=
  let d := ((d.put (R.RING_STAT_ERR x) 0).put (R.RING_STAT_ERR_NODE x) 0).clearCounters x false
  let d := ((d.clrF (R.RING_STAT_HEALED x)).put (R.RING_HEAL_STAT_PHASE x) 0).put (R.RING_HEAL_STAT_JLAST x) 0xFF
  if d.ringCfgOk x then
    let d := (d.setRing x 1).updRing x (fun s => { s with
      stepAt := d.time, enumN := 0, enumLoops := [], enumAt := none, stopAsked := false, toRun := false, tko := false
      inDisp := 0, startAt := 0, req := none, syncGood := 0, syncBad := false, mfMiss := 0, outOpen := false, clean := 0, lower := 0, nOut := none
      late := [], prevT := 0 })
    if (d.ring x).linkOut && (d.ring x).linkIn then d.enterEnum x else d
  else d.ringErr x 0x0B

/-- CMD.STOP. -/
def Dev.ringStop (x : Nat) (d : Dev) : Dev :=
  let s := d.rState x
  if s == 5 then
    let d := (d.setRing x 6).updRing x (fun r => { r with stopLeft := 8 })
    d.ringLeft x
  else if 1 ≤ s && s ≤ 4 then d.updRing x (fun r => { r with stopAsked := true })
  else d

/-! ## Breaks and healing (R283 to R286) -/

/-- The master detects a break (R283). -/
def Dev.breakDetect (x : Nat) (d : Dev) : Dev :=
  if d.flag (R.RING_STAT_HEALED x) || !d.rSending x then d
  else
    let d := (d.setF (R.RING_STAT_HEALED x)).satAdd (R.RING_BREAK_CNT x) 1
    let d := d.put (R.RING_HEAL_STAT_PHASE x) 1
    let d := d.updRing x (fun s => { s with healNow := true, nOut := none, lower := 0, outOpen := false, clean := 0 })
    d.raise 6

/-- JLAST takes a node: Δ follows (R285, and R290 after a takeover). -/
def Dev.setJlast (x j : Nat) (d : Dev) : Dev :=
  let s := d.ring x
  let delta : Int := 2 * (d.get (R.RING_NODE_DLY x j) : Int) + d.latOf x j - d.get (R.RING_LOOP x)
    - (if s.tko then (s.standbyDs : Int) + 200 else 0)
  ((d.put (R.RING_HEAL_STAT_JLAST x) j).putS (R.RING_HEAL_DELTA x) delta).updRing x (fun r => { r with lower := 0 })

/-- A well-formed frame of node `k` has arrived at OUT of a healed ring (R284, R285). -/
def Dev.noteOut (x k : Nat) (d : Dev) : Dev :=
  if (d.ring x).healNow then d
  else
    let d := d.updRing x (fun s => { s with nOut := some (max k (s.nOut.getD k)) })
    let j := d.get (R.RING_HEAL_STAT_JLAST x)
    if j == 0xFF || j < k then d.setJlast x k else d

/-- The cycle that ends, looked back on in a healed ring: the rule for a lower N_OUT, and clean cycles (R285, R286). -/
def Dev.healCycle (x : Nat) (d : Dev) : Dev :=
  let s := d.ring x
  let j := d.get (R.RING_HEAL_STAT_JLAST x)
  let d := d.updRing x (fun r => { r with clean := if s.mfBack && !s.outSeen then r.clean + 1 else 0 })
  let d :=
    if s.healNow || j == 0xFF || (d.ofsOf x j).isNone then d
    else if s.nOut == some j then d.updRing x (fun r => { r with lower := 0 })
    else
      match s.nOut with
      | some m => if 1 ≤ s.lower then d.setJlast x m else d.updRing x (fun r => { r with lower := r.lower + 1 })
      | none => d.updRing x (fun r => { r with lower := r.lower + 1 })
  let j := d.get (R.RING_HEAL_STAT_JLAST x)
  if j != 0xFF && d.get (R.RING_HEAL_STAT_PHASE x) == 1 then
    ((d.put (R.RING_HEAL_STAT_PHASE x) 2).updRing x (fun r => { r with outOpen := true, delta := d.getS (R.RING_HEAL_DELTA x) })).raise 6
  else d.updRing x (fun r => { r with outOpen := j != 0xFF, delta := d.getS (R.RING_HEAL_DELTA x) })

/-- A healed ring closes (R286). -/
def Dev.healClose (x : Nat) (d : Dev) : Dev :=
  if d.flag (R.RING_STAT_HEALED x) && 16 ≤ (d.ring x).clean then
    let d := (d.clrF (R.RING_STAT_HEALED x)).put (R.RING_HEAL_STAT_PHASE x) 0
    let d := d.put (R.RING_HEAL_STAT_JLAST x) 0xFF
    (d.updRing x (fun s => { s with
      clean := 0, outOpen := false, tko := false, mfMiss := 0, inDisp := if s.tko then s.standbyDs + 200 else s.inDisp })).raise 6
  else d

/-! ## The service channel (R257, R263, R272) -/

/-- A new request with the next TAG. -/
def Dev.svcIssue (x op node index : Nat) (data : BitVec 32) (own : Bool) (d : Dev) : Dev :=
  d.updRing x (fun s => { s with
    tag := (s.tag + 1) % 256
    req := some { tag := (s.tag + 1) % 256, op := op, node := node, index := index, data := data, cycles := 0, own := own } })

/-- The request that step `i` of CONFIG sends to node `k`: OP, INDEX, DATA. -/
def Dev.cfgReq (d : Dev) (x k i : Nat) : Nat × Nat × BitVec 32 :=
  match i with
  | 0 => (1, 0, 0)
  | 1 => (1, 1, 0)
  | 2 => (1, 2, 0)
  | 3 => (1, 4, 0)
  | 4 => (2, 0x11, d.rd (R.RING_NODE_DLY x k).addr)
  | 5 => (2, 0x12, BitVec.ofNat 32 (d.get (R.RING_CFG_CTC x) + 16 * d.get (R.RING_CFG_NPL x)))
  | 6 => (2, 0x13, d.rd (R.RING_NODE_TXOFS x k).addr)
  | 7 => (2, 0x14, BitVec.ofNat 32 (d.pagesOf x k))
  | 8 => (2, 0x15, d.rd (R.RING_TAPPLY x).addr)
  | _ => (2, 0x16, 1)

/-- CONFIG sends its next request. -/
def Dev.cfgNext (x : Nat) (d : Dev) : Dev :=
  if d.rState x == 3 && (d.ring x).req.isNone then
    let k := (d.ring x).cfgNode
    let d := if (d.ring x).cfgStep == 4 then
        let d := d.put (R.RING_NODE_DLY x k) (Config.nodeDelay x k (d.ring x).eseq)
        d.putS (R.RING_NODE_TXOFS x k) (d.txofs x k)
      else d
    let (op, ix, data) := d.cfgReq x k (d.ring x).cfgStep
    d.svcIssue x op k ix data false
  else d

/-- The reply to a request of CONFIG (Table 10.10). -/
def Dev.cfgReply (x : Nat) (result : Nat) (data : BitVec 32) (d : Dev) : Dev :=
  let k := (d.ring x).cfgNode
  let i := (d.ring x).cfgStep
  let v := data.toNat
  let bad := result != 0 || (i == 2 && v / 256 % 256 != 1)
    || (i == 3 && (!tst v (d.get (R.RING_CFG_CTC x)) || 250 < v / 65536))
  if bad then d.ringErrNode x 8 k
  else
    let d := if i == 0 then d.put (R.RING_NODE_VENDOR x k) v else if i == 1 then d.put (R.RING_NODE_PRODUCT x k) v
      else if i == 3 then d.updRing x (fun s => { s with lat := Store.set (fun _ => 0) s.lat k (v / 65536) })
      else d
    if i < 9 then d.updRing x (fun s => { s with cfgStep := i + 1 })
    else if k + 1 < d.get (R.RING_CFG_NNODE x) then d.updRing x (fun s => { s with cfgNode := k + 1, cfgStep := 0 })
    else (d.setRing x 4).updRing x (fun s => { s with stepAt := d.time, syncGood := 0, syncBad := false })

/-- A reply in an accepted frame of node `k` (R257). -/
def Dev.svcReply (x k tag result : Nat) (data : BitVec 32) (d : Dev) : Dev :=
  match (d.ring x).req with
  | none => d
  | some q =>
    if q.node == k && q.tag == tag && q.cycles != 0 then
      let d := d.updRing x (fun s => { s with req := none })
      if q.own then
        ((d.put (R.RING_SVC_STAT_RESULT x) result).clrF (R.RING_SVC_STAT_BUSY x)).put (R.RING_SVC_DATA x) data.toNat
      else d.cfgReply x result data
    else d

/-- 64 cycles have passed without a matching reply (R257). -/
def Dev.svcTimeout (x : Nat) (d : Dev) : Dev :=
  match (d.ring x).req with
  | none => d
  | some q =>
    if 64 < q.cycles || (q.cycles == 64 && d.rT x + d.ringT x ≤ d.time.toNat) then
      if q.own then d.svcEnd x else (d.updRing x (fun s => { s with req := none })).ringErrNode x 7 q.node
    else d

/-! ## Registers -/

/-- A refused ring command or write (R264, R265). -/
def Dev.rDeny (x : Nat) (d : Dev) : Dev := d.setF (R.RING_STAT_DENY x)

/-- The ring is in OFF or ERROR. -/
def Dev.rIdle (d : Dev) (x : Nat) : Bool := d.rState x == 0 || d.rState x == 7

/-- RING[x].CMD. -/
def Dev.wrRingCmd (x : Nat) (w : Wr) (d : Dev) : Dev :=
  let go := w.does (R.RING_CMD_START x)
  let off := w.does (R.RING_CMD_STOP x)
  if go && (off || !d.rIdle x) then d.rDeny x
  else if go then d.ringStart x
  else if off then d.ringStop x
  else d

/-- RING[x].CFG and the schedule table (R265). -/
def Dev.wrRingCfg (x a : Nat) (w : Wr) (d : Dev) : Dev := if d.rIdle x then d.writePlain a w else d.rDeny x

/-- RING[x].CPT[p] (R265). -/
def Dev.wrCpt (x p : Nat) (w : Wr) (d : Dev) : Dev :=
  let a := (R.RING_CPT x p).addr
  let v := w.over (d.rd a)
  let bad := (R.RING_CPT_EN x p).of v == 1 && (R.RING_CPT_REL x p).of v == 0 && d.ringT x ≤ (R.RING_CPT_OFS x p).of v
  if bad && !d.rIdle x then d.rDeny x else d.writePlain a w

/-- RING[x].SVC_CTRL (R272). -/
def Dev.wrSvcCtrl (x : Nat) (w : Wr) (d : Dev) : Dev :=
  if w.does (R.RING_SVC_CTRL_GO x) then
    let node := (R.RING_SVC_CTRL_NODE x).of (w.val &&& w.mask)
    let op := (R.RING_SVC_CTRL_OP x).of (w.val &&& w.mask)
    if d.flag (R.RING_SVC_STAT_BUSY x) || !(d.rState x == 4 || d.rState x == 5)
        || d.get (R.RING_CFG_NNODE x) ≤ node || !(op == 1 || op == 2) then
      d.setF (R.RING_SVC_STAT_DENY x)
    else
      (d.setF (R.RING_SVC_STAT_BUSY x)).svcIssue x op node ((R.RING_SVC_CTRL_INDEX x).of (w.val &&& w.mask))
        (d.rd (R.RING_SVC_DATA x).addr) true
  else d

/-- RING[x].CNT_CLR. -/
def Dev.wrCntClr (x : Nat) (w : Wr) (d : Dev) : Dev := if w.does (R.RING_CNT_CLR_CLR x) then d.clearCounters x true else d

end Sys2Proof.Machine
end

