-- ==== Sys2Proof/Machine/Ring.lean ====
section
/-! DEFINITION. The ring controllers, second part: the cycle start and the master frame (R248 to R251, R268), received
frames (R274 to R278, R284), window closes (R275), cycle points (R266) and enumeration (R256). -/

namespace Sys2Proof.Machine

/-! ## Windows -/

/-- When the window of a slot has closed (R274, R285): an accepted slot ends with its own port's window, an open one with
the later of its windows. Times after t_n, from OFS. -/
def Dev.closeAfter (d : Dev) (x k ofs : Nat) : Int :=
  let s := d.ring x
  let W : Int := (d.rWin x : Int)
  let inEnd : Int := (ofs : Int) + s.inDisp + W
  let outEnd : Int := (ofs : Int) + s.delta + W
  if s.accOut.contains k then outEnd
  else if s.accepted.contains k then inEnd
  else if s.tko then outEnd
  else if s.outOpen then max inEnd outEnd
  else inEnd

/-- The close of the cycle's last window, in ns after t_n; t_n when the page is empty (R266). -/
def Dev.lastClose (d : Dev) (x : Nat) : Nat :=
  (d.scheduled x).foldl (fun m e => max m (d.closeAfter x e.1 e.2).toNat) 0

/-- Every window of the page has closed. -/
def Dev.allClosed (d : Dev) (x : Nat) : Bool := (d.scheduled x).all (fun e => (d.ring x).closed.contains e.1)

/-- A missed slot of the cycle that began at `t` (R275). `slip`: the cycle has raised event 5 before (R291). -/
def Dev.missSlot (x k t : Nat) (slip : Bool) (d : Dev) : Dev :=
  let d := (d.ageNode x k).put ⟨(R.RING_MISSMAP x).addr, k, k⟩ 1
  let d := (d.satAdd (R.RING_SLOT_MISS x) 1).satAdd (R.RING_NODE_MISS x k) 1
  let d := if slip then d else d.raise 5
  if d.ringRuns x then d.nodeSamples x k t else d

/-- The window of node `k` closes. -/
def Dev.closeSlot (x k : Nat) (d : Dev) : Dev :=
  let got := (d.ring x).accepted.contains k
  let st := d.rState x
  let d := d.updRing x (fun s => { s with closed := insNat k s.closed })
  let d :=
    if got then d.ringGroupI x k
    else if st == 5 || st == 6 then
      ((d.missSlot x k (d.rT x) (d.ring x).slip).updRing x (fun s => { s with slip := true })).ringGroupI x k
    else if st == 4 then d.updRing x (fun s => { s with syncBad := true, syncGood := 0 })
    else d
  if d.allClosed x then (d.ringI x 1 [BitVec.ofNat 16 (d.rCyc x)]).flushMev.muleRecSend x (d.rT x) else d

/-- The slots of the cycle in progress whose window ends at or after `t`, the next t_n: they stay open (R274, R285), each with
whether it has accepted a frame. -/
def Dev.lateSlots (d : Dev) (x t : Nat) : List (Nat × Bool) :=
  let s := d.ring x
  ((d.scheduled x).filter (fun e => !s.closed.contains e.1 && (t : Int) ≤ (d.rT x : Int) + d.closeAfter x e.1 e.2)).map
    (fun e => (e.1, s.accepted.contains e.1))

/-- The window of a slot of the cycle before closes: as in `closeSlot`. With the last of them that cycle is complete. -/
def Dev.closeLate (x k : Nat) (got : Bool) (d : Dev) : Dev :=
  let s := d.ring x
  let st := d.rState x
  let left := s.late.filter (fun e => e.1 != k)
  let d := d.updRing x (fun s => { s with late := left, lateBad := s.lateBad || !got })
  let d :=
    if got then d.ringGroupI x k
    else if st == 5 || st == 6 then
      ((d.missSlot x k s.prevT.toNat s.lateSlip).updRing x (fun s => { s with lateSlip := true })).ringGroupI x k
    else d
  if left.isEmpty then
    let d := if st == 4 then d.updRing x (fun s => { s with syncGood := if s.lateBad then 0 else s.syncGood + 1 }) else d
    (d.ringI x 1 [BitVec.ofNat 16 (d.rPrevCyc x)]).flushMev.muleRecSend x s.prevT.toNat
  else d

/-- The slot of the cycle before that node `k` has open, when its window is over. -/
def Dev.lateDue (d : Dev) (x k : Nat) : Option Bool :=
  let s := d.ring x
  match s.late.find? (fun e => e.1 == k), d.prevOfs x k with
  | some e, some o =>
    if (s.prevT.toNat : Int) + o + s.prevDelta + d.rWin x ≤ (d.time.toNat : Int) then some e.2 else none
  | _, _ => none

/-- WINDOW_CLOSE: the window of node `k` is over and has not been closed yet. -/
def Dev.windowClose (x k : Nat) (d : Dev) : Dev :=
  match d.lateDue x k with
  | some got => (d.closeLate x k got).flushMev
  | none =>
    match d.ofsOf x k with
    | none => d
    | some o =>
      if d.rSending x && !(d.ring x).closed.contains k && (d.rT x : Int) + d.closeAfter x k o ≤ (d.time.toNat : Int) then
        (d.closeSlot x k).flushMev
      else d

/-! ## Cycle points (R266) -/

/-- The time of cycle point `p` in this cycle, when it is enabled. -/
def Dev.pointTime (d : Dev) (x p : Nat) : Option Nat :=
  let v := ((d.ring x).cpt.getD p 0).toNat
  let ofs := v % 2 ^ 19
  if !tst v 31 then none
  else if tst v 30 then some (min (d.rT x + d.lastClose x + ofs) (d.rT x + d.ringT x - 1))
  else some (d.rT x + ofs)

/-- CYCLE_POINT: the point's time has come. The windows that have closed by then are written first. -/
def Dev.cyclePoint (x p : Nat) (d : Dev) : Dev :=
  if !(d.rState x == 5 || d.rState x == 6) || (d.ring x).points.contains p then d
  else
    match d.pointTime x p with
    | none => d
    | some t =>
      if t ≤ d.time.toNat then
        let d := (d.scheduled x).foldl (fun d e =>
          if !(d.ring x).closed.contains e.1 && (d.rT x : Int) + d.closeAfter x e.1 e.2 ≤ (t : Int) then d.closeSlot x e.1 else d) d
        let d := d.flushMev.updRing x (fun s => { s with points := insNat p s.points })
        d.raiseAt (16 + 8 * x + p) (BitVec.ofNat 64 t)
      else d

/-! ## The master frame -/

/-- The 16 words of a command slot (Table 10.4). -/
def Dev.slotWords (d : Dev) (x k : Nat) (run : Bool) : List (BitVec 16) :=
  if run then
    (List.range 4).flatMap (fun c =>
      let (w, v) := Store.get (fun _ => ((0, 0) : BitVec 16 × BitVec 32)) (d.ring x).cmds (4 * k + c)
      [w, BitVec.ofNat 16 v.toNat, BitVec.ofNat 16 (v.toNat / 65536)])
      ++ (List.range 4).map (fun i => if k < (d.ring x).nnodeI then (d.ring x).qWords.getD (4 * k + i) 0 else 0)
  else List.replicate 16 0

/-- The master frame of the cycle in progress (Table 10.3). -/
def Dev.masterFrame (d : Dev) (x : Nat) : MasterFrame :=
  let n := d.get (R.RING_CFG_NNODE x)
  let run := d.ringRuns x
  let q := (d.ring x).req
  { cyc := BitVec.ofNat 16 (d.rCyc x), rtime := (d.ring x).t, ctc := d.get (R.RING_CFG_CTC x), nslot := n, run := run
    heal := d.flag (R.RING_STAT_HEALED x), page := d.rPage x
    svcNode := (q.map (·.node)).getD 0xFF, svcOp := (q.map (·.op)).getD 0, svcTag := (q.map (·.tag)).getD 0
    svcIndex := (q.map (·.index)).getD 0, svcData := (q.map (·.data)).getD 0
    slots := (List.range n).map (fun k => d.slotWords x k run) }

/-- How long after t_n the reference point of the master frame leaves: D_s + LAT_s on a member that has taken over (R290). -/
def Dev.masterDelay (d : Dev) (x : Nat) : Nat := if (d.ring x).tko then (d.ring x).standbyDs + 200 else (d.ring x).inDisp

/-- The master sends its frame: from OUT, and from IN too in a healed ring (R284); after a takeover from OUT alone (R290). -/
def Dev.sendMaster (x : Nat) (d : Dev) : Dev :=
  let s := d.ring x
  let d := d.emit (.master x s.linkOut (d.flag (R.RING_STAT_HEALED x) && s.linkIn && !s.tko)
    (s.t + BitVec.ofNat 64 (d.masterDelay x)) ((d.masterFrame x).octets x))
  d.updRing x (fun s => { s with req := s.req.map (fun q => { q with cycles := q.cycles + 1 }) })

/-! ## The cycle start -/

/-- What the ring concludes from the cycle that ends at `t`. -/
def Dev.cycleEnd (x t : Nat) (d : Dev) : Dev :=
  let s := d.ring x
  let st := d.rState x
  let d := d.updRing x (fun r => { r with
    mfMiss := if s.mfGone then r.mfMiss else 0
    dead := if st == 5 && !s.anyNode then r.dead + 1 else 0 })
  let ls := d.lateSlots x t
  let good := !s.syncBad && s.stepAt.toNat ≤ s.t.toNat
    && (d.scheduled x).all (fun e => s.accepted.contains e.1 || ls.any (fun l => l.1 == e.1))
  let d := d.updRing x (fun r => { r with
    late := ls, lateBad := !good, lateSlip := s.slip, prevT := s.t, prevDelta := s.delta, prevOpen := s.outOpen
    syncGood := if st != 4 || !ls.isEmpty then r.syncGood else if good then r.syncGood + 1 else 0 })
  if d.flag (R.RING_STAT_HEALED x) then d.healCycle x else d

/-- The cycle that starts at `t`: its page is read with its check bits (R19). -/
def Dev.cycleBegin (x t : Nat) (d : Dev) : Dev :=
  let cpt := (List.range 8).map (fun p => d.rd (R.RING_CPT x p).addr)
  let d := d.updRing x (fun r => { r with
    t := BitVec.ofNat 64 t, cpt := cpt, accepted := [], accOut := [], closed := [], slip := false, syncBad := false
    mfBack := false, mfGone := false, nOut := none, outSeen := false, healNow := false, points := [], qPicked := false
    anyNode := false })
  let d := d.scanArr (ringUnit x) (.sched (Fin.ofNat 4 x)) (32 * d.rPage x) (32 * d.rPage x + 32)
  let d := d.put (R.RING_CYC x) (d.rCyc x)
  let w := BitVec.ofNat 16 (d.rCyc x)
  let d := d.liveW x 0 [w, BitVec.ofNat 16 (d.rCyc x / 65536), BitVec.ofNat 16 (d.rState x)]
  d.ringI x 0 (if (d.scheduled x).isEmpty then [w, w] else [w])

/-- RING_CYCLE_START: t_n of ring `x`, a whole multiple of its cycle time (R248). -/
def Dev.ringCycleStart (x : Nat) (d : Dev) : Dev :=
  let t := d.time.toNat
  let st := d.rState x
  if t % d.ringT x != 0 || d.rT x == t || !(1 ≤ st && st ≤ 6) || d.sys.fatal || d.sys.ringsOff
      || t < (d.ring x).startAt.toNat then d
  else if (d.ring x).stopAsked then d.ringEnd x 0
  else if st ≤ 2 || (st == 6 && (d.ring x).stopLeft == 0) then d
  else
    let d := if d.allClosed x || !(d.lateSlots x t).isEmpty then d else d.muleRecSend x (d.rT x)
    let d := d.cycleEnd x t
    let d := if st == 4 && (d.ring x).toRun then d.runEntry x t else d
    let d := (d.muleBoundary t).muleWrSend
    let d := d.cycleBegin x t
    if d.sys.fatal then d
    else
      let d := (d.cfgNext x).sendMaster x
      let d := if (d.scheduled x).isEmpty then d.muleRecSend x t else d
      d.updRing x (fun s => { s with stopLeft := s.stopLeft - 1 })

/-- RING_Q_PICKUP: at t_(n+1) − 1,000 ns (R268). -/
def Dev.ringQPickup (x : Nat) (d : Dev) : Dev :=
  if (d.ringRuns x || (d.ring x).toRun) && !(d.ring x).qPicked && d.rT x + d.ringT x - 1000 ≤ d.time.toNat then
    let (ws, d) := d.portQ (1 + x) (ringUnit x) (4 * (d.ring x).nnodeI)
    let ws := ws.getD []
    d.updRing x (fun s => { s with qPicked := true, qWords := ws })
  else d

/-! ## Received frames (Table 11.3) -/

/-- ε of a frame in NODE[k].AERR (R291). -/
def Dev.noteAerr (x k : Nat) (e : Int) (d : Dev) : Dev :=
  let d := d.putS (R.RING_NODE_AERR_LAST x k) (clampI (-32767) 32767 e)
  let p := min 0xFFFF e.natAbs
  if d.get (R.RING_NODE_AERR_PEAK x k) < p then d.put (R.RING_NODE_AERR_PEAK x k) p else d

/-- The slot of node `k` in this cycle accepts a frame. -/
def Dev.markSlot (x : Nat) (outp : Bool) (f : NodeFrame) (d : Dev) : Dev :=
  d.updRing x (fun s => { s with
    accepted := insNat f.node s.accepted, accOut := if outp then insNat f.node s.accOut else s.accOut, anyNode := true
    syncBad := s.syncBad || !tst f.nstat.toNat 1 })

/-- The slot that node `k` has open in the cycle before accepts a frame. -/
def Dev.markLate (x : Nat) (f : NodeFrame) (d : Dev) : Dev :=
  d.updRing x (fun s => { s with
    late := s.late.map (fun e => if e.1 == f.node then (e.1, true) else e), anyNode := true
    lateBad := s.lateBad || !tst f.nstat.toNat 1 })

/-- A node frame of the cycle that began at `t` is accepted (R267, R274): the node group is written in its order, the reply is
taken, the axes are computed. -/
def Dev.acceptFrame (x t : Nat) (f : NodeFrame) (d : Dev) : Dev :=
  let k := f.node
  let d := d.liveW x (nodeOff k + 3) [f.cyc]
  let d := d.liveW x (nodeOff k + 4) f.payload
  let d := d.liveW x (nodeOff k + 2) [f.nstat]
  let d := d.liveW x (nodeOff k + 1) [f.cyc]
  let d := d.liveW x (nodeOff k) [0]
  let d := d.svcReply x k f.rspTag f.rspResult f.rspData
  if d.ringRuns x then (d.nodeSamples x k t).flushMev else d

/-- A well-formed node frame that has a window at the port: `e`, its arrival error; `got`, its slot has accepted a frame;
`take`, its slot accepts this one. In another state than CONFIG a frame of a node that is not activated is not accepted
(R258). -/
def Dev.windowFrame (x : Nat) (f : NodeFrame) (e : Int) (got : Bool) (take : Dev → Dev) (d : Dev) : Dev :=
  let d := d.noteAerr x f.node e
  let W : Int := (d.rWin x : Int)
  if e < -W then d.satAdd (R.RING_EARLY x) 1
  else if W < e then d.satAdd (R.RING_LATE x) 1
  else if got then d.satAdd (R.RING_STRAY x) 1
  else if !tst f.nstat.toNat 0 && d.rState x != 3 then d
  else take d

/-- A frame in the window of this cycle. -/
def Dev.slotFrame (x : Nat) (outp : Bool) (f : NodeFrame) (e : Int) (d : Dev) : Dev :=
  d.windowFrame x f e ((d.ring x).accepted.contains f.node) (fun d => (d.markSlot x outp f).acceptFrame x (d.rT x) f)

/-- A frame at OUT of the cycle before, whose window there reaches into this one. -/
def Dev.lateFrame (x : Nat) (f : NodeFrame) (o : Nat) (d : Dev) : Dev :=
  let s := d.ring x
  let e : Int := (d.time.toNat : Int) - s.prevT.toNat - o - s.prevDelta
  d.windowFrame x f e (!s.late.contains (f.node, false)) (fun d => (d.markLate x f).acceptFrame x s.prevT.toNat f)

/-- The frame answers a request of CONFIG from a node that is not activated (R258). -/
def Dev.cfgFrame (d : Dev) (x : Nat) (f : NodeFrame) : Bool :=
  d.rState x == 3 && !tst f.nstat.toNat 0 &&
    (match (d.ring x).req with
     | some q => q.node == f.node && q.cycles != 0
     | none => false)

/-- OFS of a frame at OUT that carries the CYC of the cycle before and may still arrive there: in survey, or where the window
at OUT of its slot reaches past t_n (R274, R284, R288; DEDUCED, log entry 80). -/
def Dev.lateOfs (d : Dev) (x : Nat) (f : NodeFrame) : Option Nat :=
  let s := d.ring x
  if s.prevT.toNat + d.ringT x == d.rT x && f.cyc.toNat == d.rPrevCyc x % 65536 then
    match d.prevOfs x f.node with
    | some o =>
      if !s.prevOpen || (d.rT x : Int) ≤ (s.prevT.toNat : Int) + o + s.prevDelta + d.rWin x then some o else none
    | none => none
  else none

/-- A well-formed node frame at OUT (R283 to R285). `o`: OFS of its slot in this cycle, or, where `late`, in the one before. -/
def Dev.outFrame (x : Nat) (f : NodeFrame) (o : Option Nat) (late : Bool) (d : Dev) : Dev :=
  if !d.flag (R.RING_STAT_HEALED x) then d.breakDetect x
  else
    let d := d.noteOut x f.node
    let s := d.ring x
    match o with
    | none => d
    | some o =>
      if late then (if s.prevOpen then d.lateFrame x f o else d)
      else if s.outOpen then d.slotFrame x true f ((d.time.toNat : Int) - d.rT x - o - s.delta)
      else d

/-- A well-formed node frame at IN. -/
def Dev.inFrame (x : Nat) (f : NodeFrame) (o : Option Nat) (d : Dev) : Dev :=
  let e (o : Nat) : Int := (d.time.toNat : Int) - d.rT x - o - (d.ring x).inDisp
  if (d.ring x).tko then d
  else if d.cfgFrame x f then
    let d := match o with
      | some o => d.noteAerr x f.node (e o)
      | none => d
    (d.markSlot x false f).acceptFrame x (d.rT x) f
  else
    match o with
    | some o => d.slotFrame x false f (e o)
    | none => d

/-- A node frame with a good FCS arrives (R253). -/
def Dev.nodeFrame (x : Nat) (outp : Bool) (f : NodeFrame) (d : Dev) : Dev :=
  let d := if outp then d.updRing x (fun s => { s with outSeen := true }) else d
  let cur := f.cyc.toNat == d.rCyc x % 65536
  let o := if cur then d.ofsOf x f.node else none
  let old := if outp && !cur then d.lateOfs x f else none
  if f.len == 80 && (o.isSome || (cur && d.cfgFrame x f)) then
    if outp then d.outFrame x f o false else d.inFrame x f o
  else if f.len == 80 && old.isSome then d.outFrame x f old true
  else d.satAdd (R.RING_STRAY x) 1

/-- A master frame that the ring may expect: its own, back at IN with the CYC of the cycle; in a healed ring any is ignored
otherwise. -/
def Dev.masterBack (x : Nat) (outp : Bool) (f : RxFrame) (d : Dev) : Dev :=
  if !outp && f.cyc.toNat == d.rCyc x % 65536 then
    if (d.ring x).mfGone then d else d.updRing x (fun s => { s with mfBack := true })
  else if d.flag (R.RING_STAT_HEALED x) then d
  else d.satAdd (R.RING_STRAY x) 1

/-- NODE_FRAME_RECEIVE: a frame arrives at a port of the master of ring `x` (Table 11.3). A passive standby is no master. -/
def Dev.ringFrame (x : Nat) (outp : Bool) (f : RxFrame) (d : Dev) : Dev :=
  if d.get R.PAIR_STAT_ROLE == 2 then d
  else if !f.fcsOk then d.satAdd (R.RING_FCS_ERR x) 1
  else if f.isType 2 && d.rSending x then d.nodeFrame x outp f.node
  else if f.isType 1 && d.rSending x then d.masterBack x outp f
  else if f.isType 4 && outp then d
  else d.satAdd (R.RING_STRAY x) 1

/-- MF_LOST: the master frame has not returned by t_n + LOOP + F + 500 ns in a closed ring. -/
def Dev.mfLost (x : Nat) (d : Dev) : Dev :=
  let s := d.ring x
  if d.rSending x && !d.flag (R.RING_STAT_HEALED x) && !s.mfBack && !s.mfGone
      && 10 * (d.rT x + d.get (R.RING_LOOP x) + 500) + d.rF10 x ≤ 10 * d.time.toNat then
    let d := d.satAdd (R.RING_MF_LOST x) 1
    let d := d.updRing x (fun s => { s with mfGone := true, mfMiss := s.mfMiss + 1 })
    if 2 ≤ (d.ring x).mfMiss then d.breakDetect x else d
  else d

/-! ## Links, start-up steps, stop -/

/-- HEAL_STAT.OUT_UP and IN_UP follow the ports. -/
def Dev.setLink (x : Nat) (outp up : Bool) (d : Dev) : Dev :=
  if outp then (d.updRing x (fun s => { s with linkOut := up })).put (R.RING_HEAL_STAT_OUT_UP x) (b2n up)
  else (d.updRing x (fun s => { s with linkIn := up })).put (R.RING_HEAL_STAT_IN_UP x) (b2n up)

/-- A port that regains synchronization forwards again 10 ms later (Table 11.2). -/
def PassSt.regain (p : PassSt) (outp : Bool) (now : BitVec 64) : PassSt :=
  if outp then (if p.lostOut then { p with lostOut := false, fwdOut := now + 10000000 } else p)
  else if p.lostIn then { p with lostIn := false, fwdIn := now + 10000000 } else p

/-- A passive standby asks for the delay of the link to the master, at least once per second (R255). It asks when something
happens at one of its ports and the last request left 1 s ago (DESIGN CHOICE, log entry 79). -/
def Dev.linkAsk (x : Nat) (d : Dev) : Dev :=
  let due := match (d.ring x).pass.reqAt with
    | none => true
    | some t => decide (t.toNat + 1000000000 ≤ d.time.toNat)
  if d.get R.PAIR_STAT_ROLE == 2 && (d.ring x).linkIn && due then
    let n := ((d.ring x).pass.lseq + 1) % 65536
    (d.updRing x (fun s => { s with pass := { s.pass with lseq := n, reqAt := some d.time } })).emit
      (.linkFrame x .inp (linkOctets 4 x n 0))
  else d

/-- PCS synchronization is reached at a port; with both ports it ends LINK (Table 10.10). -/
def Dev.linkUp (x : Nat) (outp : Bool) (d : Dev) : Dev :=
  let d := (d.setLink x outp true).updRing x (fun s => { s with pass := s.pass.regain outp d.time })
  let d := d.linkAsk x
  if d.rState x == 1 && (d.ring x).linkOut && (d.ring x).linkIn then d.enterEnum x else d

/-- PCS synchronization is lost at a port (R283). -/
def Dev.linkLost (x : Nat) (outp : Bool) (d : Dev) : Dev :=
  ((d.setLink x outp false).updRing x (fun s => { s with
    pass := if outp then { s.pass with lostOut := true } else { s.pass with lostIn := true } })).breakDetect x

/-- START_STEP_TIMEOUT: a start-up step passes its bound (Table 10.10). -/
def Dev.stepTimeout (x : Nat) (d : Dev) : Dev :=
  let s := d.ring x
  let gone := d.time.toNat - s.stepAt.toNat
  match d.rState x with
  | 1 => if 10000000 ≤ gone then d.ringErr x (if s.linkOut then 2 else 1) else d
  | 2 => if 20000000 ≤ gone then d.ringErr x 3 else d
  | 4 => if 100000000 ≤ gone && !s.toRun then d.ringErr x 0x0A else d
  | _ => d

/-- ENUM_FRAME_SEND (R254). -/
def Dev.enumSend (x : Nat) (d : Dev) : Dev :=
  let due := match (d.ring x).enumAt with
    | none => true
    | some t => decide (t.toNat + 100000 ≤ d.time.toNat)
  if d.rState x == 2 && due then
    let d := d.updRing x (fun s => { s with eseq := (s.eseq + 1) % 65536, enumAt := some d.time })
    d.emit (.enumFrame x (enumOctets x (d.ring x).eseq))
  else d

/-- CONFIG begins: LOOP is known, AUTO and the checks of R261 are applied. -/
def Dev.enterConfig (x : Nat) (d : Dev) : Dev :=
  let d := d.put (R.RING_TAPPLY x) (d.tapply x)
  let d := if d.flag (R.RING_CFG_AUTO x) then d.autoSchedule x else d
  if d.scheduleOk x then
    (d.setRing x 3).updRing x (fun s => { s with stepAt := d.time, cfgNode := 0, cfgStep := 0, lat := [], req := none })
  else (d.setRing x 3).ringErr x 9

/-- ENUM_FRAME_RETURN: consecutive frames have consecutive ESEQ. An enumeration frame returns at IN with COUNT and DLY (R256, Table 10.10). -/
def Dev.enumReturn (x count dly eseq : Nat) (d : Dev) : Dev :=
  match (d.ring x).enumAt with
  | none => d
  | some at_ =>
    if d.rState x != 2 || eseq != (d.ring x).eseq || (d.ring x).enumN == eseq + 1 then d
    else
      let loop := d.time.toNat - at_.toNat
      let d := d.put (R.RING_LOOP x) loop
      let s := d.ring x
      let near (l : Nat) : Bool := l ≤ loop + 8 && loop ≤ l + 8
      let loops := if s.enumCount == count && s.enumN % 65536 == eseq then loop :: (s.enumLoops.takeWhile near).take 2 else [loop]
      let d := d.updRing x (fun s => { s with
        enumCount := count, enumLoops := loops, enumN := eseq + 1, dly := dly })
      if loops.length < 3 then d
      else
        let d := d.put (R.RING_STAT_FOUND x) (min 255 count)
        if 32 < count then d.ringErr x 5
        else if count != d.get (R.RING_CFG_NNODE x) then d.ringErr x 4
        else if loop < dly || 1000 < loop - dly then d.ringErr x 6
        else d.enterConfig x

/-- RING_SYNC_DONE: 16 good cycles in a row, or 15 and a complete good cycle in progress: RUN begins at the next t_n. -/
def Dev.syncDone (x : Nat) (d : Dev) : Dev :=
  let s := d.ring x
  let now := !s.syncBad && s.stepAt.toNat ≤ s.t.toNat && (d.scheduled x).all (fun e => s.accepted.contains e.1)
  if d.rState x == 4 && (16 ≤ s.syncGood || (15 ≤ s.syncGood && now)) then
    d.updRing x (fun s => { s with toRun := true })
  else d

/-- RING_STOP_DONE: the 8 master frames of STOPPING have been sent (R264). -/
def Dev.stopDone (x : Nat) (d : Dev) : Dev :=
  if d.rState x == 6 && (d.ring x).stopLeft == 0 then d.ringEnd x 0 else d

/-- RING_DEAD_TIMEOUT (R287). -/
def Dev.ringDead (x : Nat) (d : Dev) : Dev :=
  if d.ringRuns x && 64 ≤ (d.ring x).dead then (d.ringErr x 0x0C).raise 6 else d

/-- LINK_DELAY_REQUEST: the OUT port answers within 10 µs (R255); `turn` is the time it takes. -/
def Dev.linkDelay (x : Nat) (outp : Bool) (lseq turn : Nat) (d : Dev) : Dev :=
  if !outp then (if d.rSending x then d.satAdd (R.RING_STRAY x) 1 else d)
  else if (d.ring x).linkOut && turn ≤ 10000 then d.emit (.linkFrame x .outp (linkOctets 5 x lseq turn))
  else d

/-! ## The passive standby (R256, R281, R282, R290) -/

/-- A good master frame at a port of a standby: the first of its cycle sets the ring time, and one from the upstream port counts
as first (R281). -/
def Dev.useMaster (x : Nat) (up : Bool) (f : RxFrame) (d : Dev) : Dev :=
  let s := d.ring x
  let p := s.pass
  let now : Int := d.time.toNat
  let rt : Int := f.rtime
  let d := d.updRing x (fun s => { s with mfAt := d.time })
  let set (p : PassSt) (d : Dev) : Dev := d.updRing x (fun s => { s with pass := p })
  if up then
    if p.used == some (true, f.cyc) then d
    else set { p with off := rt + s.standbyDs - now, sync := true, used := some (true, f.cyc) } d
  else if p.used == some (true, f.cyc) || p.used == some (false, f.cyc) then d
  else
    match (if p.dPrime.isNone && p.sync then some (now + p.off - rt) else p.dPrime) with
    | some dp => set { p with dPrime := some dp, off := rt + dp - now, used := some (false, f.cyc) } d
    | none => set { p with used := some (false, f.cyc) } d

/-- A link-delay response to the last request: L is half the round trip less TURN (R255). -/
def Dev.linkAnswer (x : Nat) (f : RxFrame) (d : Dev) : Dev :=
  match (d.ring x).pass.reqAt with
  | some t =>
    if f.lseq == (d.ring x).pass.lseq then
      d.updRing x (fun s => { s with pass := { s.pass with link := some ((d.time.toNat - t.toNat - f.dly) / 2) } })
    else d
  | none => d

/-- The delay L of the link to the master. -/
def Dev.linkL (d : Dev) (x : Nat) : Nat := (d.ring x).pass.link.getD (Config.linkDelay x d.time.toNat)

/-- A standby may send out of a port (R282, Table 11.2). -/
def Dev.passOpen (d : Dev) (x : Nat) (outp : Bool) : Bool :=
  let s := d.ring x
  if outp then s.linkOut && s.pass.fwdOut.toNat ≤ d.time.toNat else s.linkIn && s.pass.fwdIn.toNat ≤ d.time.toNat

/-- An enumeration frame with a good FCS on the upstream port: D_s is DLY + L, and DLY grows by L and LAT_s (R256, R290). -/
def Dev.passEnum (x : Nat) (f : RxFrame) (d : Dev) : RxFrame × Dev :=
  let ds := f.dly + d.linkL x
  ({ f with octets := enumForward f.octets ((ds + 200) % 2 ^ 32) }, d.updRing x (fun s => { s with standbyDs := ds }))

/-- STANDBY_RING_FRAME: a passive standby forwards a frame (R256, R282, R290). Its upstream port is IN, its downstream
port OUT. -/
def Dev.passFrame (x : Nat) (port : RingPort) (f : RxFrame) (d : Dev) : Dev :=
  if d.get R.PAIR_STAT_ROLE != 2 then d
  else
    let up := port == .inp
    let d := d.linkAsk x
    if f.isType 4 || f.isType 5 then (if up && f.fcsOk && f.isType 5 then d.linkAnswer x f else d)
    else
      let d := if f.fcsOk && f.isType 1 then d.useMaster x up f else d
      let (f, d) := if up && f.fcsOk && f.isType 3 then d.passEnum x f else (f, d)
      if up && d.passOpen x true then d.emit (.passFrame x true f)
      else if up && (f.isType 1 || f.isType 3) then d
      else if d.passOpen x false then d.emit (.passFrame x false f)
      else d

end Sys2Proof.Machine
end

