-- ==== Sys2Proof/Machine/Can.lean ====
section
/-! DEFINITION. The CAN FD channels (12_can_fd.md): the message RAM and its window (R296 to R298), reception (R299 to
R301), transmission (R302 to R305), error counters and states (R306, R307), images (R309 to R312) and events (R313). -/

namespace Sys2Proof.Machine

/-! ## State -/

def Dev.canSt (d : Dev) (c : Nat) : CanSt := Store.get (fun _ => default) d.can c
def Dev.updCan (d : Dev) (c : Nat) (f : CanSt → CanSt) : Dev :=
  { d with can := Store.set (fun _ => default) d.can c (f (d.canSt c)) }

/-- STAT.STATE (Table 12.7): 0 OFF, 1 SYNC, 2 ACTIVE, 3 PASSIVE, 4 BUSOFF, 5 RECOVER. -/
def Dev.canState (d : Dev) (c : Nat) : Nat := d.get (R.CAN_STAT_STATE c)

/-- The message RAM of channel `c`. -/
def canRam (c : Nat) : Arr := .can (Fin.ofNat 8 c)

/-- Event source 48 + 4c + k (R313). -/
def Dev.canEvent (c k : Nat) (d : Dev) : Dev := d.raise (48 + 4 * c + k)

/-- A refused write or request. -/
def Dev.canDeny (c : Nat) (d : Dev) : Dev := d.setF (R.CAN_STAT_DENY c)

/-! ## Live area and I region -/

/-- Words of the live area from `o` upward, and the same words of the I region: header words 0 to 3, and the slots below
INUM (R309, R311). -/
def Dev.canShow (c o : Nat) (ws : List (BitVec 16)) (d : Dev) : Dev :=
  let d := d.unitStore canUnit (wholeWords .live (canLive c + o) ws)
  if o < 4 then d.portI (5 + c) canUnit o ws
  else if 0x10 ≤ o && (o - 0x10) / 8 < d.get (R.CAN_IMG_INUM c) then d.portI (5 + c) canUnit (4 + (o - 0x10)) ws
  else d

/-- The header words +0 to +2 as the registers give them (Table 12.8). -/
def Dev.canHeader (d : Dev) (c : Nat) : List (BitVec 16) :=
  [BitVec.ofNat 16 (d.canState c + 8 * d.get (R.CAN_STAT_LOMF c) + 16 * d.get (R.CAN_STAT_EWARN c)),
   BitVec.ofNat 16 (256 * d.get (R.CAN_ECNT_REC c) + d.get (R.CAN_ECNT_TEC c)),
   BitVec.ofNat 16 (256 * d.get (R.CAN_RXQS_COUNT c 1) + d.get (R.CAN_RXQS_COUNT c 0))]

/-- Header words change as their values change. -/
def Dev.canRefresh (c : Nat) (d : Dev) : Dev :=
  upTo 3 (fun i d =>
    let w := (d.canHeader c).getD i 0
    if d.mw .live (canLive c + i) == w then d else d.canShow c i [w]) d

/-! ## Message RAM -/

/-- A dword of the message RAM. -/
def Dev.ramD (d : Dev) (c a : Nat) : Nat := d.md (canRam c) a

/-- The words of TX buffer `b`. -/
def txBuf (b : Nat) : Nat := 0x400 + 40 * b

/-- The buffer is pending. -/
def Dev.txPending (d : Dev) (c b : Nat) : Bool := tst (d.rd (R.CAN_TXREQ c).addr).toNat b

/-- The buffer is bound to the Q region (R312). -/
def Dev.txBound (d : Dev) (c b : Nat) : Bool := tst (d.pmapOf (5 + c)).toNat 31 && b < d.get (R.CAN_IMG_QNUM c)

/-- Set or clear bit `b` of a bit-per-buffer register. -/
def Dev.txBit (f : Fld) (b : Nat) (v : Bool) (d : Dev) : Dev := d.put ⟨f.addr, b, b⟩ (b2n v)

/-- The length of a frame's data (Table 12.5). -/
def canLen (fdf : Bool) (dlc : Nat) : Nat :=
  if dlc ≤ 8 then dlc else if fdf then [12, 16, 20, 24, 32, 48, 64].getD (dlc - 9) 64 else 8

/-- The frame in the 40 words of a TX buffer, as it is sent: BRS as CFG.BRSE allows, ESI from the channel's error state. -/
def Dev.txFrameOf (d : Dev) (c : Nat) (bs : List (BitVec 16)) : CanFrame :=
  let w (i : Nat) : Nat := (bs.getD i 0).toNat
  let w0 := w 0 + 65536 * w 1
  let w1 := w 2 + 65536 * w 3
  let fdf := tst w1 23
  let dlc := w1 / 65536 % 16
  let ws := bs.drop 8
  { esi := fdf && d.canState c == 3, xtd := tst w0 30, rtr := tst w0 29, id := BitVec.ofNat 29 w0, fdf := fdf
    brs := fdf && tst w1 22 && d.flag (R.CAN_CFG_BRSE c), dlc := Fin.ofNat 16 dlc
    data := if tst w0 29 then [] else (wordBytes ws).take (canLen fdf dlc), sof := (d.canSt c).sof }

/-- The frame in TX buffer `b`. -/
def Dev.txFrame (d : Dev) (c b : Nat) : CanFrame := d.txFrameOf c (d.mws (canRam c) (txBuf b) 40)

/-- A flag of a TX buffer: bit `i` of words +2 and +3. -/
def Dev.txFlag (d : Dev) (c b i : Nat) : Bool := tst (d.ramD c (txBuf b + 2)) i

/-- TIME of a TX buffer. -/
def Dev.txTime (d : Dev) (c b : Nat) : Nat := d.ramD c (txBuf b + 4) + 2 ^ 32 * d.ramD c (txBuf b + 6)

/-- A write of two words at MRA (R296, R297): refused whole when a word refuses it; MRA advances in every case. -/
def Dev.wrMrw (c : Nat) (w : Wr) (d : Dev) : Dev :=
  if w.wo && w.covers 31 0 then
    let a := d.get (R.CAN_MRA_ADDR c)
    let as := [a, (a + 1) % 0x2000]
    let filt := as.any (fun x => decide (x < 0x400))
    let locked := filt && d.flag R.SETUP_LOCK_LOCK
    let deny := locked || (filt && d.canState c != 0)
      || as.any (fun x => decide (0x400 ≤ x) && decide (x < 0x900) && d.txPending c ((x - 0x400) / 40))
      || as.any (fun x => decide (0x900 ≤ x) && decide (x < 0x1D00))
    let d := if locked then d.satAdd R.AE_STATUS_LOCK_COUNT 1 else d
    let vs := [BitVec.ofNat 16 w.val.toNat, BitVec.ofNat 16 (w.val.toNat / 65536)]
    let d :=
      if deny then d.canDeny c
      else d.unitStore canUnit (((as.zip vs).filter (fun e => decide (e.1 < 0x1D00))).map (fun e => (canRam c, e.1, 0xFFFF, e.2)))
    d.put (R.CAN_MRA_ADDR c) (a + 2)
  else d

/-- A read of the two words at MRA. -/
def Dev.rdMrr (c : Nat) (d : Dev) : (BitVec 32 × List (Arr × Nat)) × Dev :=
  let a := d.get (R.CAN_MRA_ADDR c)
  let at_ (x : Nat) : List (Arr × Nat) := if 0x1D00 ≤ x then [] else [(canRam c, x)]
  let (lo, bad, d) := d.readWords (at_ a)
  let (hi, bad2, d) := d.readWords (at_ ((a + 1) % 0x2000))
  let bad := bad ++ bad2.filter (fun g => !bad.contains g)
  ((if bad.isEmpty then BitVec.ofNat 32 ((lo.headD 0).toNat + 65536 * (hi.headD 0).toNat) else 0, bad),
    d.put (R.CAN_MRA_ADDR c) (a + 2))

/-! ## Error counters and states (R306) -/

/-- EWARN follows the counters; its rise is due as event 3. -/
def Dev.canWarn (c : Nat) (d : Dev) : Dev :=
  let w := 96 ≤ d.get (R.CAN_ECNT_TEC c) || 96 ≤ d.get (R.CAN_ECNT_REC c)
  let rose := w && !d.flag (R.CAN_STAT_EWARN c)
  let d := d.put (R.CAN_STAT_EWARN c) (b2n w)
  if rose then d.canEvent c 3 else d

/-- A new state among ACTIVE, PASSIVE, BUSOFF and RECOVER. -/
def Dev.canMove (c n : Nat) (d : Dev) : Dev :=
  if d.canState c == n then d else (d.put (R.CAN_STAT_STATE c) n).canEvent c 3

/-- ACTIVE or PASSIVE by the counters. -/
def Dev.canGrade (c : Nat) (d : Dev) : Dev :=
  if d.canState c == 2 || d.canState c == 3 then
    d.canMove c (if 128 ≤ d.get (R.CAN_ECNT_TEC c) || 128 ≤ d.get (R.CAN_ECNT_REC c) then 3 else 2)
  else d

/-- The counters have changed. -/
def Dev.canCounted (c : Nat) (d : Dev) : Dev := ((d.canWarn c).canGrade c).canRefresh c

/-! ## The end of a buffer (R305, Table 12.6) -/

/-- Buffer `b` stops being pending with a result. -/
def Dev.txDone (c b res : Nat) (d : Dev) : Dev :=
  let a := txBuf b + 2
  let w := (d.mw (canRam c) a).toNat
  let d := d.unitStore canUnit [(canRam c, a, 0xFFFF, BitVec.ofNat 16 (w / 8192 * 8192 + res % 8 * 1024 + w % 1024))]
  let d := (d.txBit (R.CAN_TXREQ c) b false).txBit (R.CAN_TXCAN c) b false
  if res == 0 then
    let d := d.txBit (R.CAN_TXOK c) b true
    if d.txFlag c b 13 then d.canEvent c 1 else d
  else (d.txBit (R.CAN_TXFAIL c) b true).canEvent c 2

/-- The buffer makes one attempt. -/
def Dev.oneShot (d : Dev) (c b : Nat) : Bool := d.txFlag c b 15 || d.flag (R.CAN_CFG_OSM c)

/-- Data of the Q region for a bound buffer. -/
def Dev.txData (c b : Nat) (ws : List (BitVec 16)) (d : Dev) : Dev :=
  d.unitStore canUnit (wholeWords (canRam c) (txBuf b + 8) ws)

/-- What was held for a bound buffer while its frame was in progress takes effect (R312). -/
def Dev.txHeld (c b : Nat) (d : Dev) : Dev :=
  match Store.look b (d.canSt c).held with
  | none => d
  | some ws =>
    let d := (d.updCan c (fun s => { s with held := Store.erase b s.held })).txData c b ws
    d.txBit (R.CAN_TXREQ c) b true

/-- Entry into BUSOFF. -/
def Dev.busOff (c : Nat) (d : Dev) : Dev :=
  let d := (d.put (R.CAN_ECNT_TEC c) 255).satAdd (R.CAN_ECNT_BOFF_CNT c) 1
  let d := match (d.canSt c).onBus with
    | some b => if d.oneShot c b then d.txDone c b 5 else if tst (d.rd (R.CAN_TXCAN c).addr).toNat b then d.txDone c b 4 else d
    | none => d
  let held := (d.canSt c).onBus
  let d := d.updCan c (fun s => { s with onBus := none })
  let d := match held with
    | some b => d.txHeld c b
    | none => d
  ((d.canMove c 4).canWarn c).canRefresh c

/-- TEC rises by 8. -/
def Dev.tecUp (c : Nat) (d : Dev) : Dev :=
  let t := d.get (R.CAN_ECNT_TEC c) + 8
  if 255 < t then d.busOff c else (d.put (R.CAN_ECNT_TEC c) t).canCounted c

/-- A member that has become standby enters listen-only once no own frame is on the bus (R307, R407 step 7). -/
def Dev.lomEnter (c : Nat) (d : Dev) : Dev :=
  if d.get R.PAIR_STAT_ROLE == 2 && !d.flag (R.CAN_STAT_LOMF c) && (d.canSt c).onBus.isNone then
    (d.setF (R.CAN_STAT_LOMF c)).canRefresh c
  else d

/-- CAN_BUS_ERROR: a protocol error moves a counter under ISO 11898-1. In listen-only the counters do not change (R307). -/
def Dev.canError (c : Nat) (e : CanErr) (d : Dev) : Dev :=
  if !(d.canState c == 2 || d.canState c == 3) || d.flag (R.CAN_STAT_LOMF c) then d
  else
    match e with
    | .rec1 => (d.satAdd (R.CAN_ECNT_REC c) 1).canCounted c
    | .rec8 => (d.satAdd (R.CAN_ECNT_REC c) 8).canCounted c
    | .tec8 => (d.tecUp c).lomEnter c

/-! ## Commands (Table 12.7) -/

/-- Entry into OFF: every pending buffer ends with result 0x4. -/
def Dev.canOff (c : Nat) (d : Dev) : Dev :=
  let d := d.updCan c (fun s => { s with onBus := none, stopping := false, held := [] })
  let d := d.put (R.CAN_STAT_STATE c) 0
  let d := upTo 32 (fun b d => if d.txPending c b then d.txDone c b 4 else d) d
  d.canRefresh c

/-- A bit time of a timing register in ns. -/
def bitNs (v : BitVec 32) : Nat := (v.toNat / 2 ^ 24 + 1) * (v.toNat / 65536 % 256 + 1)

/-- A timing register fails the checks of code 0x03. -/
def timingBad (v : BitVec 32) : Bool :=
  let nq := v.toNat / 65536 % 256
  let spq := v.toNat / 256 % 256
  let sjw := v.toNat % 128
  spq == 0 || decide (nq ≤ spq) || decide (nq - spq < sjw + 1) || decide (spq < sjw + 1)

/-- The code of Table 12.2 for a start; 0: it passes. -/
def Dev.canCheck (d : Dev) (c : Nat) : Nat :=
  let arb := d.rd (R.CAN_ARBT c).addr
  let dat := d.rd (R.CAN_DATT c).addr
  let fd := d.flag (R.CAN_CFG_FDOE c)
  let q := d.get (R.CAN_IMG_QNUM c)
  if bitNs arb < 1000 then 1
  else if fd && (bitNs dat < 125 || bitNs arb < bitNs dat) then 2
  else if timingBad arb || (fd && timingBad dat) then 3
  else if 16 < d.get (R.CAN_IMG_INUM c) || 32 < q || (q != 0 && d.get (R.CAN_IMG_PICK c) == 0) then 4
  else 0

/-- CMD.START (R294). -/
def Dev.canStart (c : Nat) (d : Dev) : Dev :=
  if d.canState c != 0 then d
  else
    let e := d.canCheck c
    let d := d.put (R.CAN_STAT_ERR c) e
    if e != 0 then d
    else
      let d := ((d.put (R.CAN_ECNT_TEC c) 0).put (R.CAN_ECNT_REC c) 0).put (R.CAN_LDC_LOK c) 0
      let d := (d.put (R.CAN_RXQ_DROP c 0) 0).put (R.CAN_RXQ_DROP c 1) 0
      let d := d.put (R.CAN_STAT_LOMF c) (b2n (d.flag (R.CAN_CFG_LOM c) || d.get R.PAIR_STAT_ROLE == 2))
      let d := d.updCan c (fun s => { s with onBus := none, stopping := false, ldcDue := d.flag (R.CAN_LDC_EN c), held := [] })
      ((d.put (R.CAN_STAT_STATE c) 1).canWarn c).canRefresh c

/-- CMD.STOP: at once, or at the next bus idle. -/
def Dev.canStop (c : Nat) (d : Dev) : Dev :=
  let s := d.canState c
  if s == 2 || s == 3 then d.updCan c (fun s => { s with stopping := true })
  else if s == 0 then d
  else d.canOff c

/-- CMD.RECOVER. -/
def Dev.canRecover (c : Nat) (d : Dev) : Dev :=
  if d.canState c == 4 then ((d.updCan c (fun s => { s with recAt := d.time })).canMove c 5).canRefresh c else d

/-- CAN[c].CMD. -/
def Dev.wrCanCmd (c : Nat) (w : Wr) (d : Dev) : Dev :=
  let go := w.does (R.CAN_CMD_START c)
  let off := w.does (R.CAN_CMD_STOP c)
  let d := if go && off then d.canDeny c else if go then d.canStart c else if off then d.canStop c else d
  if w.does (R.CAN_CMD_RECOVER c) then d.canRecover c else d

/-- ARBT, DATT, LDC, CFG and IMG are writable in OFF alone. -/
def Dev.wrCanCfg (c a : Nat) (w : Wr) (d : Dev) : Dev := if d.canState c == 0 then d.writePlain a w else d.canDeny c

/-- CAN_SYNC_DONE: 11 recessive bits end SYNC. -/
def Dev.canSynced (c : Nat) (d : Dev) : Dev :=
  if d.canState c == 1 then (d.put (R.CAN_STAT_STATE c) 2).canRefresh c else d

/-- CAN_STOP_DONE: the bus is idle and a stopping channel enters OFF. -/
def Dev.canStopped (c : Nat) (d : Dev) : Dev :=
  if (d.canSt c).stopping && (d.canSt c).onBus.isNone then d.canOff c else d

/-- RECOVER_DONE: 128 occurrences of 11 recessive bits. The measured loop delay is kept no longer (R295). -/
def Dev.canRecovered (c : Nat) (d : Dev) : Dev :=
  if d.canState c == 5 && (d.canSt c).recAt.toNat + 128 * 11 * bitNs (d.rd (R.CAN_ARBT c).addr) ≤ d.time.toNat then
    let d := ((d.put (R.CAN_ECNT_TEC c) 0).put (R.CAN_ECNT_REC c) 0).put (R.CAN_LDC_LOK c) 0
    let d := d.updCan c (fun s => { s with ldcDue := d.flag (R.CAN_LDC_EN c) })
    ((d.canMove c 2).canWarn c).canRefresh c
  else d

/-- LOM_EXIT: 11 recessive bits after the device has become active (R307). -/
def Dev.lomExit (c : Nat) (d : Dev) : Dev :=
  if d.get R.PAIR_STAT_ROLE != 2 && !d.flag (R.CAN_CFG_LOM c) then (d.clrF (R.CAN_STAT_LOMF c)).canRefresh c else d

/-! ## Transmit requests (R302) -/

/-- A request for buffer `b`. -/
def Dev.txRequest (c b : Nat) (d : Dev) : Dev :=
  if d.txPending c b || d.txBound c b || d.flag (R.CAN_STAT_LOMF c) then d.canDeny c
  else d.txBit (R.CAN_TXREQ c) b true

/-- A cancel of buffer `b`: at once, or when its frame in progress fails. -/
def Dev.txCancel (c b : Nat) (d : Dev) : Dev :=
  if !d.txPending c b then d
  else if (d.canSt c).onBus == some b then d.txBit (R.CAN_TXCAN c) b true
  else d.txDone c b 4

/-- Every bit that a write sets. -/
def Dev.eachBit (w : Wr) (f : Nat → Dev → Dev) (d : Dev) : Dev :=
  upTo 32 (fun b d => if tst (w.val &&& w.mask).toNat b then f b d else d) d

/-- RXQA[q] (R301). -/
def Dev.wrRxqa (c q : Nat) (w : Wr) (d : Dev) : Dev :=
  let n := min (w.act (R.CAN_RXQA_N c q)) (d.get (R.CAN_RXQS_COUNT c q))
  let d := d.put (R.CAN_RXQS_GET c q) ((d.get (R.CAN_RXQS_GET c q) + n) % 64)
  (d.put (R.CAN_RXQS_COUNT c q) (d.get (R.CAN_RXQS_COUNT c q) - n)).canRefresh c

/-! ## Reception (R299, R300) -/

/-- The filter elements of channel `c` as dwords, read once. -/
def Dev.filterAt (d : Dev) (c i : Nat) : Nat × Nat × Nat := (d.ramD c (8 * i), d.ramD c (8 * i + 2), d.ramD c (8 * i + 4))

/-- A filter element matches a frame. -/
def filterMatches (e : Nat × Nat × Nat) (f : CanFrame) : Bool :=
  let (m, k, g) := e
  let mask := BitVec.ofNat 29 k
  let kind := g % 4
  m / 2 ^ 30 != 0 && tst m 29 == f.xtd && (f.id &&& mask) == (BitVec.ofNat 29 m &&& mask)
    && (kind == 0 || (kind == 1 && !f.fdf) || (kind == 2 && f.fdf))

/-- The first matching element. -/
def Dev.filterFind (d : Dev) (c : Nat) (f : CanFrame) : Option Nat :=
  (List.range 128).find? (fun i => filterMatches (d.filterAt c i) f)

/-- A byte of the frame's data, 0 beyond its length. -/
def canByte (f : CanFrame) (i : Nat) : Nat :=
  if !f.rtr && i < canLen f.fdf f.dlc.val then (f.data.getD i 0).toNat else 0

/-- Data words 0 to `n − 1` of a frame. -/
def canWords (f : CanFrame) (n : Nat) : List (BitVec 16) :=
  (List.range n).map (fun w => BitVec.ofNat 16 (canByte f (2 * w) + 256 * canByte f (2 * w + 1)))

/-- A 64-bit value as four words, low word first. -/
def words4 (v : BitVec 64) : List (BitVec 16) := (List.range 4).map (fun i => BitVec.ofNat 16 (v.toNat / 65536 ^ i))

/-- A received frame as a queue entry (Table 12.5). `fidx`: the matching filter, or 0x7F. -/
def canEntry (f : CanFrame) (fidx : Nat) : List (BitVec 16) :=
  let w0 := b2n f.esi * 2 ^ 31 + b2n f.xtd * 2 ^ 30 + b2n f.rtr * 2 ^ 29 + f.id.toNat
  let w1 := fidx * 2 ^ 24 + b2n f.fdf * 2 ^ 23 + b2n f.brs * 2 ^ 22 + f.dlc.val * 65536
  [BitVec.ofNat 16 w0, BitVec.ofNat 16 (w0 / 65536), BitVec.ofNat 16 w1, BitVec.ofNat 16 (w1 / 65536)]
    ++ words4 f.sof ++ canWords f 32

/-- Store a frame in queue `q` (R300). -/
def Dev.rxQueue (c q fidx : Nat) (f : CanFrame) (d : Dev) : Dev :=
  let n := d.get (R.CAN_RXQS_COUNT c q)
  if 64 ≤ n then
    let before := d.get (R.CAN_RXQ_DROP c q)
    let d := d.satAdd (R.CAN_RXQ_DROP c q) 1
    if d.get (R.CAN_RXQ_DROP c q) == before then d else d.canEvent c 3
  else
    let put := d.get (R.CAN_RXQS_PUT c q)
    let d := d.unitStore canUnit (wholeWords (canRam c) ((if q = 0 then 0x900 else 0x1300) + 40 * put) (canEntry f fidx))
    let d := (d.put (R.CAN_RXQS_PUT c q) ((put + 1) % 64)).put (R.CAN_RXQS_COUNT c q) (n + 1)
    let wm := d.get (if q = 0 then R.CAN_RXQ_WM_WM_A c else R.CAN_RXQ_WM_WM_B c)
    if max 1 (min 64 wm) ≤ n + 1 then d.canEvent c 0 else d

/-- The same for a standby, which releases the frame at once (R386). -/
def Dev.rxStore (c q fidx : Nat) (f : CanFrame) (d : Dev) : Dev :=
  let d := d.rxQueue c q fidx f
  if d.get R.PAIR_STAT_ROLE == 2 && d.get (R.CAN_RXQS_COUNT c q) != 0 then
    let d := d.put (R.CAN_RXQS_GET c q) ((d.get (R.CAN_RXQS_GET c q) + 1) % 64)
    d.put (R.CAN_RXQS_COUNT c q) (d.get (R.CAN_RXQS_COUNT c q) - 1)
  else d

/-- A matched frame updates its image slot (R310). -/
def Dev.rxImage (c s : Nat) (f : CanFrame) (d : Dev) : Dev :=
  let o := 0x10 + 8 * s
  let seq := BitVec.ofNat 16 ((d.mw .live (canLive c + o)).toNat + 1)
  let d := d.canShow c o [seq]
  let d := d.canShow c (o + 1) [BitVec.ofNat 16 (b2n f.fdf * 2 ^ 15 + b2n f.rtr * 2 ^ 14 + f.dlc.val)]
  let d := if f.rtr then d else d.canShow c (o + 2) (canWords f 4)
  d.canShow c (o + 7) [seq]

/-- A valid frame is filtered and stored (R299, R300, R309, R310). -/
def Dev.canReceive (c : Nat) (f : CanFrame) (d : Dev) : Dev :=
  let d :=
    match d.filterFind c f with
    | some i =>
      let (m, _, g) := d.filterAt c i
      let route := m / 2 ^ 30
      let img := g / 65536 % 32
      let d := (d.canShow c 3 [BitVec.ofNat 16 ((d.mw .live (canLive c + 3)).toNat + 1)]).canShow c 4 (words4 f.sof)
      let d := if route == 1 then d.rxStore c 0 i f else if route == 2 then d.rxStore c 1 i f else d
      if 1 ≤ img && img ≤ 16 then d.rxImage c (img - 1) f else d
    | none =>
      let r := d.get (R.CAN_CFG_NOMATCH c)
      if r == 1 then d.rxStore c 0 0x7F f else if r == 2 then d.rxStore c 1 0x7F f else d
  d.canRefresh c

/-- REC after a successful reception under ISO 11898-1: 1 lower, or a value from 119 to 127 when it was above 127. The
value is not stated: a free value, log entry 14. -/
def Dev.recDown (c : Nat) (d : Dev) : Dev :=
  let r := d.get (R.CAN_ECNT_REC c)
  let n := if r = 0 then 0 else if r ≤ 127 then r - 1 else 119 + (Config.freeValue (16 + c)).toNat % 9
  if d.flag (R.CAN_STAT_LOMF c) then d else (d.put (R.CAN_ECNT_REC c) n).canCounted c

/-- CAN_FRAME_RECEIVE: a valid frame has arrived on the bus. With FDOE = 0 no FD frame is valid. -/
def Dev.canFrame (c : Nat) (f : CanFrame) (d : Dev) : Dev :=
  if !(d.canState c == 2 || d.canState c == 3) || (f.fdf && !d.flag (R.CAN_CFG_FDOE c)) then d
  else (d.canReceive c f).recDown c

/-! ## Transmission (R303 to R305) -/

/-- The arbitration field as it is sent: the lower value wins. -/
def arbKey (f : CanFrame) : Nat :=
  let hi := f.id.toNat / 2 ^ 18
  let lo := f.id.toNat % 2 ^ 18
  if f.xtd then hi * 2 ^ 21 + 2 ^ 20 + 2 ^ 19 + lo * 2 + b2n f.rtr else hi * 2 ^ 21 + b2n f.rtr * 2 ^ 20

/-- The element can never be sent (result 0x6). -/
def Dev.txFormatBad (d : Dev) (c b : Nat) : Bool :=
  let f := d.txFrame c b
  f.fdf && (!d.flag (R.CAN_CFG_FDOE c) || f.rtr)

/-- A pending buffer is eligible: TAT holds it until TIME, except for a buffer bound to the Q region (R304). -/
def Dev.txEligible (d : Dev) (c b : Nat) : Bool :=
  d.txPending c b && (!d.txFlag c b 14 || d.txBound c b || decide (d.txTime c b ≤ d.time.toNat))

/-- The buffer that would win arbitration. -/
def Dev.txWinner (d : Dev) (c : Nat) : Option Nat :=
  (List.range 32).foldl (fun w b =>
    if d.txEligible c b then
      match w with
      | none => some b
      | some a => if arbKey (d.txFrame c b) < arbKey (d.txFrame c a) then some b else some a
    else w) none

/-- CAN_TX_CHOICE: at the end of an intermission or on an idle bus the next frame begins. Its
buffer is read with its check bits (R22). -/
def Dev.canChoice (c : Nat) (d : Dev) : Dev :=
  let s := d.canSt c
  if !(d.canState c == 2 || d.canState c == 3) || s.stopping || s.onBus.isSome || d.flag (R.CAN_STAT_LOMF c)
      || d.sys.fatal || d.sys.outsOff then d
  else
    let d := upTo 32 (fun b d => if d.txEligible c b && d.txFormatBad c b then d.txDone c b 6 else d) d
    match d.txWinner c with
    | none => d
    | some b =>
      let d := d.updCan c (fun s => { s with onBus := some b, sof := d.time })
      let (bs, _, d) := d.unitReads canUnit (canRam c) (txBuf b) 40
      if d.flag (R.CAN_CFG_LBK c) then d else d.emit (.can c (d.txFrameOf c bs))

/-- The timebase has reached TIME of pending buffer `b`, which TAT held (R304). -/
def Dev.tatReached (c b : Nat) (idle : Bool) (d : Dev) : Dev :=
  if idle && d.txFlag c b 14 && !d.txBound c b && d.txEligible c b then d.canChoice c else d

/-- The loop delay is measured in the frame of buffer `b` (R295). -/
def Dev.measureDelay (c b : Nat) (ldly : Option Nat) (d : Dev) : Dev :=
  match ldly with
  | none => d
  | some v =>
    let f := d.txFrame c b
    if (d.canSt c).ldcDue && f.brs then
      let d := (d.put (R.CAN_LDC_LDLY c) (min v 511)).setF (R.CAN_LDC_LOK c)
      let d := d.updCan c (fun s => { s with ldcDue := false })
      if 511 < v && !d.flag (R.CAN_STAT_LDE c) then (d.setF (R.CAN_STAT_LDE c)).canEvent c 3 else d
    else d

/-- A failed frame of buffer `b`: one-shot ends with `res`, a cancel takes effect, else the buffer stays pending. -/
def Dev.txFailed (c b res : Nat) (d : Dev) : Dev :=
  if d.oneShot c b then d.txDone c b res
  else if tst (d.rd (R.CAN_TXCAN c).addr).toNat b then d.txDone c b 4
  else d

/-- CAN_TX_END: the frame in progress ends. -/
def Dev.canTxEnded (c : Nat) (o : CanTx) (ldly : Option Nat) (d : Dev) : Dev :=
  match (d.canSt c).onBus with
  | none => d
  | some b =>
    let d := d.measureDelay c b ldly
    match o with
    | .ok =>
      let f := d.txFrame c b
      let d := d.unitStore canUnit (wholeWords (canRam c) (txBuf b + 4) (words4 (d.canSt c).sof))
      let d := (d.updCan c (fun s => { s with onBus := none })).txDone c b 0
      let d := (d.put (R.CAN_ECNT_TEC c) (d.get (R.CAN_ECNT_TEC c) - 1)).txHeld c b
      let d := d.canCounted c
      if d.flag (R.CAN_CFG_LBK c) then d.canReceive c f else d
    | .lost => ((d.updCan c (fun s => { s with onBus := none })).txFailed c b 1).txHeld c b
    | .err count =>
      if count && 255 < d.get (R.CAN_ECNT_TEC c) + 8 then d.busOff c
      else
        let d := ((d.updCan c (fun s => { s with onBus := none })).txFailed c b 2).txHeld c b
        if count then d.tecUp c else d

/-- CAN_TX_END: the frame ends; a member that has become standby enters listen-only (R407 step 7). -/
def Dev.canTxEnd (c : Nat) (o : CanTx) (ldly : Option Nat) (d : Dev) : Dev :=
  (d.canTxEnded c o ldly).lomEnter c

/-- TAT_DEADLINE: SOF has not begun by TIME + TAT_WIN µs (R304). -/
def Dev.tatDeadline (c b : Nat) (d : Dev) : Dev :=
  let w := d.get (R.CAN_TAT_WIN_WIN c)
  if d.txPending c b && d.txFlag c b 14 && !d.txBound c b && (d.canSt c).onBus != some b && w != 0
      && d.txTime c b + 1000 * w ≤ d.time.toNat then
    d.txDone c b 3
  else d

/-- CAN_Q_PICKUP: the channel picks up its Q region (R312). In listen-only DATA takes the words and no frame is requested
(R307). -/
def Dev.canQPickup (c : Nat) (d : Dev) : Dev :=
  let p := d.get (R.CAN_IMG_PICK c) * 1000
  if p = 0 || d.time.toNat % p != 0 || (d.canSt c).pickAt == d.time || d.canState c == 0 then d
  else
    let n := d.get (R.CAN_IMG_QNUM c)
    match d.portQ (5 + c) canUnit (4 * n) with
    | (none, d) => d
    | (some ws, d) =>
      let d := d.updCan c (fun s => { s with pickAt := d.time })
      upTo n (fun b d =>
        let data := (ws.drop (4 * b)).take 4
        if (d.canSt c).onBus == some b then
          d.updCan c (fun s => { s with held := Store.ins b data (Store.erase b s.held) })
        else if d.txPending c b then (d.txData c b data).satAdd (R.CAN_TAT_WIN_QOVR c) 1
        else if d.flag (R.CAN_STAT_LOMF c) then d.txData c b data
        else (d.txData c b data).txBit (R.CAN_TXREQ c) b true) d

end Sys2Proof.Machine
end

