-- ==== Sys2Proof/Machine/ErrorRegs.lean ====
section
/-! DEFINITION. The registers of the machine-check log and of the access-error log (R30, R22, R24, R53). -/

namespace Sys2Proof.Machine

/-- MC_STATUS: W1C; when RECOV and FATAL are both 0 after the write, the log is clear (R30). -/
def Dev.wrMcStatus (w : Wr) (d : Dev) : Dev :=
  let d := d.writePlain R.MC_STATUS.addr w
  if d.flag R.MC_STATUS_RECOV || d.flag R.MC_STATUS_FATAL then d
  else
    let d := { d with sys := { d.sys with fatalLog := false } }
    let d := d.put R.MC_STATUS_KIND 0
    let d := d.put R.MC_ADDR 0
    (d.clrF R.MC_STATUS_ESC).clrF R.MC_STATUS_MULTI

/-- MC_CTRL: ESC_LIM, CE_CLR, and INJ, which arms injection when an Ox tile writes it (R24). -/
def Dev.wrMcCtrl (r : Req) (w : Wr) (d : Dev) : Dev :=
  let d := d.writeField R.MC_CTRL.addr w ⟨3, 0, .rw⟩
  let d := if w.does R.MC_CTRL_CE_CLR then d.put R.MC_STATUS_CE_COUNT 0 else d
  match r with
  | .core c => if w.does R.MC_CTRL_INJ && c.val < 16 then d.updCore c (fun s => { s with inj := true }) else d
  | .host => d

/-- AE_STATUS: CLR zeroes the counts; a 1 to VALID clears the whole log (R53). -/
def Dev.wrAeStatus (w : Wr) (d : Dev) : Dev :=
  let d := if w.does R.AE_STATUS_CLR then (d.put R.AE_STATUS_LOCK_COUNT 0).put R.AE_STATUS_ERR_COUNT 0 else d
  let d := if w.ones R.AE_STATUS_MULTI == 1 then d.clrF R.AE_STATUS_MULTI else d
  if w.ones R.AE_STATUS_VALID == 1 then
    (((d.clrF R.AE_STATUS_VALID).clrF R.AE_STATUS_MULTI).put R.AE_STATUS_KIND 0).put R.AE_ADDR 0
  else d

end Sys2Proof.Machine
end

