-- ==== Sys2Proof/Machine/Field.lean ====
section
/-! DEFINITION. The 24 V field channels (13_field_channels.md): the tick with direction changes and the pickup of the
commands (R315, R319, R321), joined sets (R322, R323), sampling and filtering (R316, R317), the image (R320), latches and
lockout (R324, R325), the fault bit (R326) and events (R327). -/

namespace Sys2Proof.Machine

def Dev.updFio (d : Dev) (f : FioSt → FioSt) : Dev := { d with fio := f d.fio }

/-- Bit `i` of a 32-bit value set to `b`. -/
def withBit (v : BitVec 32) (i : Nat) (b : Bool) : BitVec 32 :=
  BitVec.ofNat 32 (if b then setBit v.toNat i else clrBit v.toNat i)

/-- The unit number of the field interface (Table 1.2). -/
def fioUnit : Nat := 0xFE

/-- The channels of the set that channel `i` belongs to (R322). -/
def Dev.fioSet (d : Dev) (i : Nat) : List Nat :=
  match d.get (R.FIO_GCFG_PAR (i / 4)) with
  | 1 => [i / 2 * 2, i / 2 * 2 + 1]
  | 2 => (List.range 4).map (fun j => i / 4 * 4 + j)
  | _ => [i]

/-- Some channel of the set of `i` is latched. -/
def Dev.fioLatched (d : Dev) (i : Nat) : Bool := (d.fioSet i).any (fun j => d.fio.latched.contains j)

/-- FIO_FAULT is set: a transition counts and raises event 80 (R326). -/
def Dev.fioFault (d : Dev) : Dev :=
  if d.flag R.FIO_STAT_FIO_FAULT then d
  else ((d.setF R.FIO_STAT_FIO_FAULT).satAdd R.FIO_STAT_FAULT_CNT 1).raise 80

/-- A condition that sets FIO_FAULT still holds. -/
def Dev.fioHolds (d : Dev) : Bool := !d.fio.limit.isEmpty || d.fio.hot || d.fio.loss

/-- VFLD_OK takes a value; a change raises event 81. -/
def Dev.vfldOk (v : Bool) (d : Dev) : Dev :=
  if d.flag R.FIO_STAT_VFLD_OK == v then d else (d.put R.FIO_STAT_VFLD_OK (b2n v)).raise 81

/-- Channels switch off: their current limit ends. -/
def Dev.fioOff (is : List Nat) (d : Dev) : Dev :=
  d.updFio (fun s => { s with
    on := is.foldl (fun v i => withBit v i false) s.on
    limit := s.limit.filter (fun e => !is.contains e.1) })

/-! ## The tick -/

/-- Direction changes take effect: a channel that changes starts off (R315). The channels that became outputs. -/
def Dev.fioDirs (d : Dev) : BitVec 32 × Dev :=
  let new := d.rd R.FIO_DIR.addr
  let ch := (List.range 32).filter (fun i => tst (new ^^^ d.fio.dir).toNat i)
  let d := d.fioOff ch
  (new &&& ~~~d.fio.dir, d.updFio (fun s => { s with dir := new }))

/-- The commands of a pickup (R321): of output channels alone, of a joined set the bit of its lowest channel; `fresh`:
channels that became outputs at this tick and take their command at the next. -/
def Dev.fioCommands (fresh : BitVec 32) (d : Dev) : BitVec 32 × Dev :=
  let (ws, d) := d.portQ 0 fioUnit 2
  let q := match ws with
    | some ws => (ws.headD 0).toNat + 65536 * ((ws.drop 1).headD 0).toNat
    | none => 0
  ((List.range 32).foldl (fun v i =>
    withBit v i (tst d.fio.dir.toNat i && !tst fresh.toNat i && tst q ((d.fioSet i).headD i))) 0, d)

/-- The outputs take their commands: a latch ends when its command is 0, and wins over a command of 1 (R324). -/
def Dev.fioTake (cmd : BitVec 32) (d : Dev) : Dev :=
  let d := d.put R.FIO_OUT cmd.toNat
  let d := d.updFio (fun s => { s with latched := s.latched.filter (fun i => tst cmd.toNat i) })
  let on := (List.range 32).foldl (fun v i => withBit v i (tst cmd.toNat i && !d.fioLatched i && !d.fio.lockout)) 0
  d.updFio (fun s => { s with on := on, limit := s.limit.filter (fun e => tst on.toNat e.1) })

/-- The member holds every output off (R328), or the device does (Table 1.6, R500). -/
def Dev.fioHeldOff (d : Dev) : Bool := d.flag R.FIO_STAT_SBY || d.sys.outsOff || d.sys.fatal || d.flag R.NV_STAT_PFDONE

/-- The old active member of a planned switchover holds its outputs for one tick and sets SBY at the next (R407). -/
def Dev.switchTick (d : Dev) : Dev :=
  let d := if d.pair.sbyTicks == 1 then d.setF R.FIO_STAT_SBY else d
  { d with pair := { d.pair with sbyTicks := d.pair.sbyTicks - 1 } }

/-- FIELD_TICK: a timebase value that is a whole multiple of 8,000 ns (R319). -/
def Dev.fieldTick (d : Dev) : Dev :=
  if d.time.toNat % 8000 != 0 || d.fio.tickAt == some d.time then d
  else
    let d := d.updFio (fun s => { s with tickAt := some d.time, written := false })
    let (fresh, d) := d.fioDirs
    let d := d.switchTick
    if d.pair.sbyTicks != 0 then d
    else
      let (cmd, d) := d.fioCommands fresh
      d.fioTake (if d.fioHeldOff then 0 else cmd)

/-- FIELD_IMAGE_WRITE: the live area and the I region 500 ns after the tick (R320); then the change events of the samples
whose data it makes visible (R132, R327). -/
def Dev.fieldImage (d : Dev) : Dev :=
  match d.fio.tickAt with
  | none => d
  | some t =>
    if d.fio.written || d.time.toNat < t.toNat + 500 then d
    else
      let n := (d.fio.ticks + 1) % 65536
      let inp := d.fio.filt &&& ~~~d.fio.dir
      let d := (d.put R.FIO_IN inp.toNat).put R.FIO_RB d.fio.rb.toNat
      let w (v : BitVec 32) : List (BitVec 16) := [BitVec.ofNat 16 v.toNat, BitVec.ofNat 16 (v.toNat / 65536)]
      let seq := BitVec.ofNat 16 n
      let st := BitVec.ofNat 16 (d.get R.FIO_STAT_FIO_FAULT + 2 * d.get R.FIO_STAT_VFLD_OK + 4 * d.get R.FIO_STAT_SBY)
      let ws := [seq] ++ w inp ++ w d.fio.rb ++ [st, 0, seq]
      let d := d.unitStore fioUnit (wholeWords .live 0x2800
        (ws ++ (List.range 4).map (fun i => BitVec.ofNat 16 (t.toNat / 65536 ^ i))))
      let d := d.portI 0 fioUnit 0 ws
      let d := d.fio.chg.foldl (fun d g => d.raise (82 + g)) d
      d.updFio (fun s => { s with written := true, ticks := n, chg := [] })

/-! ## Samples -/

/-- One raw sample of channel `i` (R317). -/
def Dev.fioSample (i : Nat) (raw : Bool) (d : Dev) : Dev :=
  let raw := raw || (tst d.fio.on.toNat i && (Store.look i d.fio.limit).isNone)
  let run := if tst d.fio.rb.toNat i == raw then min 16 (Store.get (fun _ => 0) d.fio.runs i + 1) else 1
  let d := d.updFio (fun s => { s with rb := withBit s.rb i raw, runs := Store.set (fun _ => 0) s.runs i run })
  if d.get (R.FIO_CCFG_FILT i) + 1 ≤ run && tst d.fio.filt.toNat i != raw && !tst d.fio.dir.toNat i then
    let d := d.updFio (fun s => { s with filt := withBit s.filt i raw })
    if d.flag (R.FIO_CCFG_CHG_EV i) then d.updFio (fun s => { s with chg := insNat (i / 4) s.chg }) else d
  else d

/-- The sample period of group `g` in ns (R316, FIO_GCFG). -/
def Dev.fioPeriod (d : Dev) (g : Nat) : Nat := max 1 (min 125 (d.get (R.FIO_GCFG_SPER g))) * 8000

/-- Sampling has begun: 1 ms since the reset was released (R329). -/
def Dev.fioSampling (d : Dev) : Bool := 1000000 ≤ (d.time - d.fio.relAt).toNat && !d.sys.held

/-- The current sink of channel `i` conducts (R314, R316, R329): of an input in continuous mode always, of one in pulsed mode
for 1,000 ns from each pulse start of its group; none in reset. -/
def Dev.sinkOn (d : Dev) (i : Nat) : Bool :=
  let g := i / 4
  let t := d.time.toNat
  !tst d.fio.dir.toNat i && !d.sys.held
    && (d.flag (R.FIO_CCFG_CONT i)
      || (d.fioSampling && 1000 * g ≤ t && decide ((t - 1000 * g) % d.fioPeriod g < 1000)))

/-- FIELD_GROUP_SAMPLE: the sample instant of group `g`, 900 ns after its pulse start (R316). `raw`: the comparators. -/
def Dev.fieldSample (g : Nat) (raw : BitVec 4) (d : Dev) : Dev :=
  let t := d.time.toNat
  let ofs := g * 1000 + 900
  if t < ofs || (t - ofs) % d.fioPeriod g != 0 || !d.fioSampling || Store.get (fun _ => 0) d.fio.sampled g == t + 1 then d
  else
    let d := d.updFio (fun s => { s with sampled := Store.set (fun _ => 0) s.sampled g (t + 1) })
    upTo 4 (fun j d => d.fioSample (4 * g + j) (tst raw.toNat j)) d

/-! ## Outputs -/

/-- CURRENT_LIMIT_ENTRY. -/
def Dev.limitEntry (i : Nat) (d : Dev) : Dev :=
  if tst d.fio.on.toNat i && (Store.look i d.fio.limit).isNone then
    (d.updFio (fun s => { s with limit := Store.ins i (d.time.toNat + 1) s.limit })).fioFault
  else d

/-- CURRENT_LIMIT_EXIT. -/
def Dev.limitExit (i : Nat) (d : Dev) : Dev := d.updFio (fun s => { s with limit := Store.erase i s.limit })

/-- The set of channel `i` switches off and latches (R324). -/
def Dev.fioLatch (i : Nat) (d : Dev) : Dev :=
  let set := d.fioSet i
  let d := d.updFio (fun s => { s with latched := set.foldl (fun l j => insNat j l) s.latched })
  (d.fioOff set).fioFault

/-- OUTPUT_LATCH: 200 µs in current limit without a break. -/
def Dev.outputLatch (i : Nat) (d : Dev) : Dev :=
  match Store.look i d.fio.limit with
  | some t => if 200000 ≤ (d.time - BitVec.ofNat 64 (t - 1)).toNat then d.fioLatch i else d
  | none => d

/-- THERMAL_SHUTDOWN: a switch is above 170 °C. -/
def Dev.thermalShutdown (i : Nat) (d : Dev) : Dev := if tst d.fio.dir.toNat i then d.fioLatch i else d

/-- FIELD_TEMP_WARNING: the field die reaches 140 °C, or has fallen below it. -/
def Dev.tempWarning (above : Bool) (d : Dev) : Dev :=
  let d := d.updFio (fun s => { s with hot := above })
  if above then d.fioFault else d

/-- VFLD_LOCKOUT (R325). -/
def Dev.vfldLockout (d : Dev) : Dev := d.fioAllOff.updFio (fun s => { s with lockout := true })

/-- VFLD_RECOVER (R325): outputs take their commands at the next pickup. -/
def Dev.vfldRecover (d : Dev) : Dev := d.updFio (fun s => { s with lockout := false })

/-- SUPPLY_LOSS: VFLD below 18.0 V for 10 µs (R326). -/
def Dev.supplyLoss (d : Dev) : Dev := ((d.updFio (fun s => { s with loss := true })).vfldOk false).fioFault

/-- VFLD_OK_RESTORE: VFLD above 19.0 V for 1 ms. -/
def Dev.vfldRestore (d : Dev) : Dev := (d.updFio (fun s => { s with loss := false })).vfldOk true

/-! ## Registers -/

/-- FIO_RETRY (R324). -/
def Dev.wrFioRetry (w : Wr) (d : Dev) : Dev :=
  if w.wo then
    upTo 32 (fun i d =>
      if tst (w.val &&& w.mask).toNat i then
        let set := d.fioSet i
        d.updFio (fun s => { s with latched := s.latched.filter (fun j => !set.contains j) })
      else d) d
  else d

/-- FIO_STAT: while a fault condition holds, FIO_FAULT ends set (R7, R326). -/
def Dev.wrFioStat (w : Wr) (d : Dev) : Dev :=
  d.writePlain R.FIO_STAT.addr (if d.fioHolds then { w with mask := w.mask &&& 0xFFFFFFFE } else w)

/-- FIO_DIR: a write that would turn a joined channel into an input is discarded (R323). -/
def Dev.wrFioDir (w : Wr) (d : Dev) : Dev :=
  let new := (w.over (d.rd R.FIO_DIR.addr)).toNat
  if (List.range 32).any (fun i => d.get (R.FIO_GCFG_PAR (i / 4)) != 0 && !tst new i) then d.setF R.FIO_STAT_DENY
  else d.writePlain R.FIO_DIR.addr w

/-- FIO_GCFG[g]: a PAR value that forms no set of outputs is discarded (R323). -/
def Dev.wrFioGcfg (g : Nat) (w : Wr) (d : Dev) : Dev :=
  let f : Fld := R.FIO_GCFG_PAR g
  let new := f.of (w.over (d.rd f.addr))
  let inputs := (List.range 4).any (fun j => !tst (d.rd R.FIO_DIR.addr).toNat (4 * g + j))
  if w.meets f.hi f.lo && (new == 3 || (new != 0 && inputs)) then
    (d.setF R.FIO_STAT_DENY).writePlain f.addr { w with mask := w.mask &&& ~~~rangeMask f.hi f.lo }
  else d.writePlain f.addr w

end Sys2Proof.Machine
end

