-- ==== Sys2Proof/Machine/Nv.lean ====
section
/-! DEFINITION. The NV controller (19_nonvolatile.md): draining the posted write buffer on the direct and the verified
path (R448 to R454), the record engine (R457 to R460) and the wear rings (R461 to R463). -/

namespace Sys2Proof.Machine

/-- Change what the NV controller holds. -/
def Dev.updNv (d : Dev) (f : NvSt → NvSt) : Dev := { d with nv := f d.nv }

/-- W words as a store: the words of a range whose addresses reach memory. -/
def Dev.wStore (d : Dev) (w : Nat) : List (BitVec 16) → List StoreWord
  | [] => []
  | v :: vs =>
    match d.sharedLoc w with
    | .mem a off => (a, off, 0xFFFF, v) :: d.wStore (w + 1) vs
    | _ => d.wStore (w + 1) vs

/-- Memory words of a W range as a unit reads them, one access per word; a word elsewhere reads as 0. -/
def Dev.wRead (unit w : Nat) : Nat → Dev → List (BitVec 16) × Dev
  | 0, d => ([], d)
  | n + 1, d =>
    let (v, d) := match d.sharedLoc w with
      | .mem a off => let (v, _, d) := d.unitRead unit a off; (v, d)
      | _ => (0, d)
    let (vs, d) := d.wRead unit (w + 1) n
    (v :: vs, d)

/-! ## Draining (R448, R452, R453) -/

/-- Only the direct path is used: a power-fail, shutdown or fatal sequence runs (R441, R465, R500). -/
def Dev.directOnly (d : Dev) : Bool := d.nv.pfRun || d.sys.fatal || !d.sys.due.isEmpty

/-- An entry merges with the contents of the array. A partial entry of an uncorrectable granule is lost and logged. -/
def Dev.nvMerge (e : NvEnt) (d : Dev) : Dev :=
  let w := 4 * e.gran
  let write (d : Dev) : Dev := (upTo 4 (fun i d =>
    d.setNvArr (w + i) ((d.nvArr (w + i) &&& ~~~(granWord e.mask i)) ||| (granWord e.val i &&& granWord e.mask i))) d).setEcc
      .mram w .ok
  if e.mask == BitVec.allOnes 64 then write d
  else
    match d.eccAt .mram w with
    | .ok => write d
    | .corr => write ((d.satAdd R.MC_STATUS_CE_COUNT 1).countCorrection w)
    | .unc => d.unitMc 0xF9 .mram w

/-- A whole page is written again: its correctable granules become good. -/
def Dev.nvRewrite (page : Nat) (d : Dev) : Dev :=
  upTo 32 (fun g d =>
    let w := 128 * page + 4 * g
    match d.eccAt .mram w with
    | .corr => ((d.satAdd R.MC_STATUS_CE_COUNT 1).countCorrection w).setEcc .mram w .ok
    | _ => d) d

/-- The oldest entry drains. An entry of a verified page drains by writing its whole page, unless only the direct path is
used; the latter is counted (R465). -/
def Dev.nvDrain (d : Dev) : Dev :=
  match d.nv.buf with
  | [] => d
  | e :: rest =>
    let page := nvPage (4 * e.gran)
    let ver := d.pageVerified page
    let d := (d.updNv (fun n => { n with buf := rest })).nvMerge e
    if !ver then d
    else if d.directOnly then d.satAdd R.NV_PF_PF_DIRECT 1
    else ((d.nvRewrite page).setF R.NV_STAT_VBUSY).updNv (fun n => { n with vpage := some (page, 0) })

/-- BUFFER_DRAIN: the NV port is free while no verified pass runs. -/
def Dev.bufferDrain (d : Dev) : Dev := if d.flag R.NV_STAT_VBUSY then d else d.nvDrain

/-- Drain the oldest `n` entries on the direct path. -/
def Dev.drainDirect : Nat → Dev → Dev
  | 0, d => d
  | n + 1, d =>
    match d.nv.buf with
    | [] => d
    | e :: rest =>
      let ver := d.pageVerified (nvPage (4 * e.gran))
      let d := (d.updNv (fun s => { s with buf := rest })).nvMerge e
      Dev.drainDirect n (if ver then d.satAdd R.NV_PF_PF_DIRECT 1 else d)

/-- The granules of a page whose read-back failed keep their errors; VFAIL, its count and event 11 follow (R454). -/
def Dev.verifyFail (page : Nat) (bad : List (Fin 32 × Ecc)) (d : Dev) : Dev :=
  let d := bad.foldl (fun d b => d.setEcc .mram (128 * page + 4 * b.1.val) b.2) d
  ((d.setF R.NV_STAT_VFAIL).satAdd R.NV_ECNT_VFAIL_CNT 1).raise 11

/-- A verified pass ends; `bad`: the granules whose raw read-back does not match (R453, R454). -/
def Dev.verifyPassDone (bad : List (Fin 32 × Ecc)) (d : Dev) : Dev :=
  match d.nv.vpage with
  | none => d
  | some (page, n) =>
    let bad := bad.filter (fun b => b.2 != .ok)
    if !bad.isEmpty && n + 1 < 4 then d.updNv (fun s => { s with vpage := some (page, n + 1) })
    else
      let d := (d.clrF R.NV_STAT_VBUSY).updNv (fun s => { s with vpage := none })
      if bad.isEmpty then d else d.verifyFail page bad

/-- A write beside the buffer (R450) on a verified page ends with four failing passes: `bad` as in verifyPassDone. -/
def Dev.bypassVerify (off : Nat) (bad : List (Fin 32 × Ecc)) (d : Dev) : Dev :=
  let bad := bad.filter (fun b => b.2 != .ok)
  if d.pageVerified (nvPage off) && !d.directOnly && !bad.isEmpty then d.verifyFail (nvPage off) bad else d

/-! ## The record engine (R460) -/

/-- The command is refused with RESULT 0x5. -/
def nvrRefused (addr buf len : Nat) : Bool :=
  addr % 128 != 0 || addr < 0x600000 || len == 0 || 1018 < len || 0x680000 < copyB addr len + len + 6
    || !((0x30000 ≤ buf && buf + len ≤ 0xC0000) || (0x200000 ≤ buf && buf + len ≤ 0x300000))

/-- The end of an operation: RESULT, TIE and SEQ. -/
def Dev.nvrEnd (result : Nat) (tie : Bool) (d : Dev) : Dev :=
  ((d.clrF R.NV_STAT_BUSY).put R.NVR_RES_RESULT result).put R.NVR_RES_TIE (b2n tie)

/-- NVR_CMD. -/
def Dev.wrNvrCmd (w : Wr) (d : Dev) : Dev :=
  let op := w.act R.NVR_CMD_OP
  if op == 1 || op == 2 then
    let addr := d.get R.NVR_ADDR_OFS
    let buf := d.get R.NVR_BUF_ADDR
    let len := d.get R.NVR_LEN_LEN
    if d.flag R.NV_STAT_BUSY then d.setF R.NV_STAT_DENY
    else if d.nv.closed then (d.put R.NVR_RES_RESULT 6).put R.NVR_RES_TIE 0
    else if nvrRefused addr buf len then (d.put R.NVR_RES_RESULT 5).put R.NVR_RES_TIE 0
    else (d.setF R.NV_STAT_BUSY).updNv (fun n => { n with op := some { write := op == 2, addr := addr, buf := buf, len := len } })
  else d

/-- A record read ends (R459). -/
def Dev.nvrReadEnd (o : NvOp) (d : Dev) : Dev :=
  let d := d.recTouch o.addr o.len
  let give (off : Nat) (d : Dev) : Dev :=
    (d.unitStore 0xF9 (d.wStore o.buf (d.recPayload off o.len))).put R.NVR_SEQ (d.recSeq off)
  match d.recSelect o.addr o.len with
  | .none => d.nvrEnd 3 false
  | .copyA => (give o.addr d).nvrEnd 1 false
  | .copyB => (give (copyB o.addr o.len) d).nvrEnd 2 false
  | .tie => (((give o.addr d).nvrEnd 1 true).setF R.NV_STAT_TIE).raise 11

/-- A record write ends (R458). -/
def Dev.nvrWriteEnd (o : NvOp) (bad : List (Fin 32 × Ecc)) (d : Dev) : Dev :=
  let (payload, d) := d.wRead 0xF9 o.buf o.len
  let d := d.recTouch o.addr o.len
  let t := d.recTarget o.addr o.len
  (((d.writeNvArr t.1 (recordWords t.2 payload)).bypassVerify t.1 bad).put R.NVR_SEQ t.2).nvrEnd 4 false

/-- NVR_DONE. -/
def Dev.nvrDone (bad : List (Fin 32 × Ecc)) (d : Dev) : Dev :=
  match d.nv.op with
  | none => d
  | some o =>
    let d := d.updNv (fun n => { n with op := none })
    if o.write then d.nvrWriteEnd o bad else d.nvrReadEnd o

/-! ## Wear rings (R461 to R463) -/

/-- What wear ring `k` holds. -/
def Dev.wr (d : Dev) (k : Nat) : WringSt := Store.get (fun _ => default) d.nv.wr k

/-- Change it. -/
def Dev.updWr (d : Dev) (k : Nat) (f : WringSt → WringSt) : Dev :=
  d.updNv (fun n => { n with wr := Store.set (fun _ => default) n.wr k (f (d.wr k)) })

/-- The words of a slot with `p` payload words. -/
def wringSlotWords (p : Nat) : Nat := 4 * ((p + 9) / 4)

/-- The number of slots that a CFG.N gives. -/
def slotCount (n : Nat) : Nat := if n = 0 then 4096 else if n = 1 then 2 else n

/-- The first word after ring `k`. -/
def Dev.wringEnd (d : Dev) (k : Nat) : Nat :=
  d.get (R.WRING_BASE_OFS k) + slotCount (d.get (R.WRING_CFG_N k)) * wringSlotWords (d.get (R.WRING_CFG_P k))

/-- The enable that a CFG register of ring `k` in `d` asks for is refused (R462). -/
def Dev.wringRefused (k : Nat) (d : Dev) : Bool :=
  let base := d.get (R.WRING_BASE_OFS k)
  let p := d.get (R.WRING_CFG_P k)
  let src := d.get (R.WRING_SRC_ADDR k)
  base % 4 != 0 || base < 0x600000 || 0x680000 < d.wringEnd k || p == 0 || 12 < p || src < 0x30000
    || 0xC0000 < src + p
    || (List.range 16).any (fun j => j != k && d.flag (R.WRING_CFG_EN j)
        && base < d.wringEnd j && d.get (R.WRING_BASE_OFS j) < d.wringEnd k)

/-- A write of WRING[k].CFG. -/
def Dev.wrWringCfg (k a : Nat) (w : Wr) (d : Dev) : Dev :=
  let d' := d.writePlain a w
  if !d'.flag (R.WRING_CFG_EN k) then d'.updWr k (fun _ => default)
  else if w.meets 31 31 then
    if d'.wringRefused k then d.setF R.NV_STAT_DENY
    else d'.updWr k (fun s => { (default : WringSt) with loading := true, trigs := s.trigs })
  else d'

/-- The offset of slot `i` of ring `k`. -/
def Dev.slotOff (d : Dev) (k i : Nat) : Nat := d.get (R.WRING_BASE_OFS k) + i * wringSlotWords (d.get (R.WRING_CFG_P k))

/-- The current slot: the valid slot whose SEQ is newest (R461). -/
def Dev.currentSlot (d : Dev) (k : Nat) : Option Nat :=
  (List.range (slotCount (d.get (R.WRING_CFG_N k)))).foldl (fun best i =>
    if d.recValid (d.slotOff k i) (d.get (R.WRING_CFG_P k)) then
      match best with
      | none => some i
      | some b => if seqNewer (d.recSeq (d.slotOff k i)) (d.recSeq (d.slotOff k b)) then some i else best
    else best) none

/-- SEQ and DATA of ring `k`. -/
def Dev.setWring (k seq : Nat) (data : List (BitVec 16)) (d : Dev) : Dev :=
  upTo 6 (fun j d => d.put (R.WRING_DATA k j) (ofWords ((data.drop (2 * j)).take 2))) (d.put (R.WRING_SEQ k) seq)

/-- An update starts: it copies the words of SRC (R463). -/
def Dev.wringStart (k : Nat) (d : Dev) : Dev :=
  let (ws, d) := d.wRead 0xF9 (d.get (R.WRING_SRC_ADDR k)) (d.get (R.WRING_CFG_P k))
  d.updWr k (fun s => { s with busy := true, data := ws })

/-- A pending update starts. -/
def Dev.wringNext (k : Nat) (d : Dev) : Dev :=
  if (d.wr k).pend then (d.updWr k (fun s => { s with pend := false })).wringStart k else d

/-- The load of ring `k` ends (R462). -/
def Dev.wringLoadDone (k : Nat) (d : Dev) : Dev :=
  if (d.wr k).loading then
    let p := d.get (R.WRING_CFG_P k)
    let d := d.nvTouch (d.slotOff k 0) (slotCount (d.get (R.WRING_CFG_N k)) * wringSlotWords p)
    let cur := d.currentSlot k
    let d := match cur with
      | some i => d.setWring k (d.recSeq (d.slotOff k i)) (d.recPayload (d.slotOff k i) p)
      | none => d.setWring k 0 []
    (d.updWr k (fun s => { s with loading := false, loaded := true, slot := cur })).wringNext k
  else d

/-- One occurrence of TRIG is taken (R463). -/
def Dev.wringTrigger (k : Nat) (d : Dev) : Dev :=
  let s := d.wr k
  if s.trigs == 0 then d
  else
    let d := d.updWr k (fun s => { s with trigs := s.trigs - 1 })
    if d.nv.closed then d
    else if s.busy || !s.loaded then
      if s.pend then d.setF R.NV_STAT_WSKIP else d.updWr k (fun s => { s with pend := true })
    else d.wringStart k

/-- The running update of ring `k` is written: the slot after the current one, with SEQ + 1 (R463). -/
def Dev.wringWrite (k : Nat) (bad : List (Fin 32 × Ecc)) (d : Dev) : Dev :=
  let s := d.wr k
  let i := match s.slot with
    | none => 0
    | some i => (i + 1) % slotCount (d.get (R.WRING_CFG_N k))
  let seq := (d.get (R.WRING_SEQ k) + 1) % 2 ^ 32
  let off := d.slotOff k i
  let d := (d.writeNvArr off (recordWords seq s.data)).bypassVerify off bad
  (d.setWring k seq s.data).updWr k (fun s => { s with busy := false, slot := some i })

/-- WRING_UPDATE_DONE. -/
def Dev.wringUpdateDone (k : Nat) (bad : List (Fin 32 × Ecc)) (d : Dev) : Dev :=
  if (d.wr k).busy then (d.wringWrite k bad).wringNext k else d

/-- The final update of ring `k` (R464). -/
def Dev.wringFinal (k : Nat) (d : Dev) : Dev :=
  if d.flag (R.WRING_CFG_EN k) && d.flag (R.WRING_CFG_FINAL k) && (d.wr k).loaded then (d.wringStart k).wringWrite k [] else d

end Sys2Proof.Machine
end

