-- ==== Sys2Proof/Machine/Hen.lean ====
section
/-! DEFINITION. The Hen event recorder (18_hen_recorder.md): records and their tags (R433, R434), the buffer and the slots
(R436 to R438), flushes (R439 to R441), verification (R435), erasure (R445) and the read window (R444). -/

namespace Sys2Proof.Machine

/-- Change what the Hen holds. -/
def Dev.updHen (d : Dev) (f : HenSt → HenSt) : Dev := { d with hen := f d.hen }

/-- The MRAM offset of slot `i` (R436). -/
def slotMram (i : Nat) : Nat := if i < 512 then 0x680000 + 64 * i else 0x688000 + 64 * (i - 512)

/-- The slot of the record with SEQ `s` (R437). -/
def seqSlot (s : Nat) : Nat := if s ≤ 512 then s - 1 else 512 + (s - 513) % 2048

/-- The Hen record key (Table 21.4). -/
def Dev.henKey (d : Dev) : Option (BitVec 256) := d.key.root.value.map (fun k => kdf k "T9648 HEN" d.uidBytes)

/-- The 8 bytes of TAG for a record's words (R434). -/
def Dev.henTag (d : Dev) (key : BitVec 256) (ws : List (BitVec 16)) : List (BitVec 8) :=
  (bytesBE 32 (Config.hmacSha256 (bytesBE 32 key.toNat)
    (d.uidBytes ++ wordBytes (ws.take 56) ++ wordBytes ((ws.drop 60).take 2))).toNat).take 8

/-- Bytes as words, low byte first. -/
def bytesWords : List (BitVec 8) → List (BitVec 16)
  | lo :: hi :: rest => BitVec.ofNat 16 (lo.toNat + 256 * hi.toNat) :: bytesWords rest
  | _ => []

/-- The 64 words of a record (Table 18.1). `flags`: the byte CLASS; `cap`: the byte CAP. -/
def Dev.henRecord (d : Dev) (seq : Nat) (o : HenOcc) (flags cap : Nat) (snap : List (BitVec 16)) (lost : Nat) :
    List (BitVec 16) :=
  let head := wordsLE 2 seq ++ wordsLE 4 o.ts.toNat ++ [BitVec.ofNat 16 (o.src + 256 * flags),
    BitVec.ofNat 16 (snap.length + 256 * cap)] ++ snap ++ List.replicate (48 - snap.length) 0
  let tail := wordsLE 1 (satU 16 lost) ++ [0] ++ wordsLE 2 seq
  let tag := match d.henKey with
    | some k => bytesWords (d.henTag k (head ++ [0, 0, 0, 0] ++ tail))
    | none => [0, 0, 0, 0]
  head ++ tag ++ tail

/-! ## Flushes -/

/-- The number of unflushed records. -/
def Dev.henUnflushed (d : Dev) : Nat := d.get R.HEN_SEQ - d.hen.floor

/-- A flush starts (R439), or is due once the flush or erasure in progress ends. While writes are closed after a
power-fail sequence, it waits. -/
def Dev.henFlush (direct : Bool) (d : Dev) : Dev :=
  if d.flag R.HEN_STAT_FLUSHING || d.flag R.HEN_STAT_ERASING || (d.nv.closed && !d.nv.pfRun) then
    d.updHen (fun h => { h with due := true })
  else (d.setF R.HEN_STAT_FLUSHING).updHen (fun h => { h with flushTo := d.get R.HEN_SEQ, flushDirect := direct })

/-- A flush that is due starts. -/
def Dev.henDue (d : Dev) : Dev :=
  if d.hen.due then (d.updHen (fun h => { h with due := false })).henFlush false else d

/-- Post a word, draining the oldest entry directly while none is free (R448). -/
def Dev.nvPostWait (off : Nat) (v : BitVec 16) (d : Dev) : Dev :=
  (if d.nvRoom (off / 4) then d else d.drainDirect 1).nvPost (off / 4) (wordGran 0xFFFF off) (wordGran v off)

/-- A record's words reach their slot: bytes 124 to 127, then 4 to 123, then 0 to 3 (R440). -/
def Dev.henWrite (direct : Bool) (off : Nat) (ws : List (BitVec 16)) (d : Dev) : Dev :=
  if direct then d.writeNvArr off ws
  else ([62, 63] ++ (List.range 60).map (· + 2) ++ [0, 1]).foldl (fun d i => d.nvPostWait (off + i) (ws.getD i 0)) d

/-- The record with SEQ `s` is flushed: written to its slot, or lost when its page is on the verified path and only the
direct path is used (R441). A record that a later one has overwritten in the buffer was counted then, and one with an
uncorrectable granule is discarded (Table 1.4). -/
def Dev.henFlushOne (direct : Bool) (s : Nat) (d : Dev) : Dev :=
  if s + 512 ≤ d.get R.HEN_SEQ then d
  else
    let off := slotMram (seqSlot s)
    if direct && d.pageVerified (nvPage off) then d.satAdd R.HEN_STAT_LOST_CNT 1
    else
      let (ws, bad, d) := d.unitReads 0xF8 .henBuf (64 * (s % 512)) 64
      let d' := (d.henWrite direct off ws).put R.HEN_FSEQ s
      if bad then d
      else if s == 512 then (d'.setF R.HEN_STAT_BFULL).raise 12 else d'

/-- The flush in progress ends (R439): every record that was unflushed at its start is written in ascending order. -/
def Dev.henFlushEnd (d : Dev) : Dev :=
  if d.flag R.HEN_STAT_FLUSHING then
    let direct := d.hen.flushDirect || d.directOnly
    let lo := d.hen.floor
    let d := (List.range (d.hen.flushTo - lo)).foldl (fun d i => d.henFlushOne direct (lo + 1 + i)) d
    ((d.clrF R.HEN_STAT_FLUSHING).updHen (fun h => { h with floor := max h.floor h.flushTo })).henDue
  else d

/-- A record enters the buffer. One whose entry still holds an unflushed record overwrites it (R438). -/
def Dev.henStore (seq : Nat) (ws : List (BitVec 16)) (d : Dev) : Dev :=
  let d := ((d.setMws .henBuf (64 * (seq % 512)) ws).put R.HEN_SEQ seq)
  let d := upTo 16 (fun g d => d.setEcc .henBuf (64 * (seq % 512) + 4 * g) .ok) d
  if 512 < seq - d.hen.floor then
    ((d.updHen (fun h => { h with floor := if d.flag R.HEN_STAT_FLUSHING then h.floor else seq - 512 })).satAdd
      R.HEN_STAT_LOST_CNT 1).raise 12
  else d

/-! ## Verification (R435) -/

/-- The words of the record that a VERIFY names, as the Hen reads them; zeros outside the range (R444). -/
def Dev.henSelected (buf : Bool) (idx : Nat) (d : Dev) : List (BitVec 16) × Bool × Dev :=
  if buf && idx < 512 then d.unitReads 0xF8 .henBuf (64 * idx) 64
  else if !buf && idx < 2560 then d.unitReads 0xF8 .mram (slotMram idx) 64
  else (List.replicate 64 0, false, d)

/-- VRES for a record. -/
def Dev.henVres (d : Dev) (ws : List (BitVec 16)) : Nat :=
  let cls := (ws.getD 6 0).toNat / 256
  let seq := ofWords (ws.take 2)
  match d.henKey with
  | none => 3
  | some k =>
    if tst cls 6 || (seq ≤ d.hen.oldSeq && !tst cls 5) then 3
    else if bytesWords (d.henTag k ws) == (ws.drop 56).take 4 then 1 else 2

/-- HEN_CMD.VERIFY. -/
def Dev.henVerify (d : Dev) : Dev :=
  if d.flag R.HEN_STAT_VBUSY then d.setF R.HEN_STAT_DENY
  else (d.setF R.HEN_STAT_VBUSY).updHen (fun h => { h with verIdx := some (d.flag R.HEN_RSEL_BUF, d.get R.HEN_RSEL_IDX) })

/-- The result is written. -/
def Dev.henVerifyDone (d : Dev) : Dev :=
  match d.hen.verIdx with
  | none => d
  | some (b, i) =>
    let (ws, _, d) := d.henSelected b i
    ((d.put R.HEN_STAT_VRES (d.henVres ws)).clrF R.HEN_STAT_VBUSY).updHen (fun h => { h with verIdx := none })

/-! ## Erasure (R445) -/

/-- Write 0 to the MRAM words from `lo` up to `hi`, which lie in an area stored in clear. -/
def Dev.nvZero (lo hi : Nat) (d : Dev) : Dev :=
  { d with
    mem := d.mem.filter (fun e => !(e.1 % 64 == arrCode .mram && lo ≤ e.1 / 64 && e.1 / 64 < hi))
    ecc := d.ecc.filter (fun e => !(e.1 % 64 == arrCode .mram && lo ≤ 4 * (e.1 / 64) && 4 * (e.1 / 64) < hi))
    nv := { d.nv with buf := d.nv.buf.filter (fun e => !(lo ≤ 4 * e.gran && 4 * e.gran < hi)) } }

/-- HEN_CMD.ERASE_ALL. -/
def Dev.henEraseAll (d : Dev) : Dev :=
  if d.get R.LC_STAT_STATE != 0 || d.flag R.HEN_STAT_ERASING || d.flag R.HEN_STAT_FLUSHING then d.setF R.HEN_STAT_DENY
  else
    let d := ((d.nvZero 0x680000 0x688000).nvZero 0x688000 0x6A8000).clearArr .henBuf
    (((d.put R.HEN_SEQ 0).put R.HEN_FSEQ 0).clrF R.HEN_STAT_BFULL).updHen (fun h => { h with floor := 0, oldSeq := 0 })

/-- The run erasure ends; a flush that is due starts. -/
def Dev.henEraseRunDone (d : Dev) : Dev :=
  if d.flag R.HEN_STAT_ERASING then ((d.nvZero 0x688000 0x6A8000).clrF R.HEN_STAT_ERASING).henDue else d

/-! ## Registers -/

/-- HEN_CMD. -/
def Dev.wrHenCmd (w : Wr) (d : Dev) : Dev :=
  let d := if w.does R.HEN_CMD_CNT_CLR then (d.put R.HEN_STAT_LOST_CNT 0).put R.HEN_SUPP 0 else d
  let d := if w.does R.HEN_CMD_ERASE_ALL then d.henEraseAll else d
  let d := if w.does R.HEN_CMD_ERASE_RUN then d.setF R.HEN_STAT_ERASING else d
  let d := if w.does R.HEN_CMD_FLUSH then d.henFlush false else d
  if w.does R.HEN_CMD_VERIFY then d.henVerify else d

/-- A range that R431 discards. -/
def rangeBad (addr cnt : Nat) : Bool :=
  48 < cnt || (cnt != 0 && !((0x20000 ≤ addr && addr + cnt ≤ 0xF0000) || (0x200000 ≤ addr && addr + cnt ≤ 0x500000)))

/-- HEN_RANGE[c][r]. -/
def Dev.wrHenRange (c k a : Nat) (w : Wr) (d : Dev) : Dev :=
  let d' := d.writePlain a w
  if w.mask != 0 && rangeBad (d'.get (R.HEN_RANGE_ADDR c k)) (d'.get (R.HEN_RANGE_CNT c k)) then d.setF R.HEN_STAT_CFGERR
  else d'

/-- Dword `n` of the read window (R444). -/
def Dev.rdHenWin (n : Nat) (d : Dev) : (BitVec 32 × List (Arr × Nat)) × Dev :=
  let b := d.flag R.HEN_RSEL_BUF
  let i := d.get R.HEN_RSEL_IDX
  if (b && i < 512) || (!b && i < 2560) then
    let o := (if b then 64 * i else slotMram i) + 2 * n
    let (ws, bad, d) := d.readWords ((List.range 2).map (fun i => (if b then Arr.henBuf else .mram, o + i)))
    ((BitVec.ofNat 32 (ofWords ws), bad), d)
  else ((0, []), d)

end Sys2Proof.Machine
end

