-- ==== Sys2Proof/Machine/Host.lean ====
section
/-! DEFINITION. The host interface (14_host_interface.md): page flags and the transfer pool (R350 to R356), the set-up of
the queues (R338, R340), doorbells (R339, R342, R349), MSI-X (R357, R358), configuration space (R330, R331, R363) and the
link events (R364). -/

namespace Sys2Proof.Machine

/-! ## Page flags (R350, R351) -/

/-- Table 14.9: the change is permitted for a requester. -/
def pageMay (r : Req) (old new : Nat) : Bool :=
  match r, old, new with
  | .host, 0, 1 | .host, 1, 0 | .host, 1, 2 => true
  | .core _, 0, 2 | .core _, 2, 0 | .core _, 2, 1 => true
  | _, _, _ => false

/-- A PG_CMD write (R351). -/
def Dev.pageCmd (r : Req) (page old new : Nat) (d : Dev) : Dev :=
  if d.get (pageFlagFld page) == old && pageMay r old new then
    let d := d.put (pageFlagFld page) new
    if old == 1 && new == 2 then d.raise 113 else d
  else d.satAdd R.WIN_STAT_TRAN_FAIL 1

/-- PG_CMD: its three fields written whole. -/
def Dev.wrPgCmd (r : Req) (w : Wr) (d : Dev) : Dev :=
  if w.wo && w.covers 31 28 && w.covers 8 0 then
    d.pageCmd r (R.PG_CMD_PAGE.of w.val) (R.PG_CMD_FROM.of w.val) (R.PG_CMD_TO.of w.val)
  else d

/-- The page is in the transfer pool (R355). -/
def Dev.inPool (d : Dev) (p : Nat) : Bool := tst (d.rd (R.WIN_POOL (p / 32)).addr).toNat (p % 32)

/-- The pool holds a page. -/
def Dev.poolAny (d : Dev) : Bool := (List.range 512).any d.inPool

/-- The lowest-numbered free page of the pool (R356). -/
def Dev.freePage (d : Dev) : Option Nat := (List.range 512).find? (fun p => d.inPool p && d.get (pageFlagFld p) == 0)

/-- Lock a page for the command of queue `q`, when one is free. -/
def Dev.lockPage (q : Nat) (d : Dev) : Dev :=
  match d.freePage with
  | none => d
  | some p => (d.put (pageFlagFld p) 3).updHif (fun h =>
      { h with running := h.running.map (fun r => if r.q == q then { r with page := some p } else r) })

/-- Free the page of a running command. -/
def Dev.unlockPage (r : HostRun) (d : Dev) : Dev :=
  match r.page with
  | none => d
  | some p => d.put (pageFlagFld p) 0

/-! ## Set-up of the queues -/

/-- HIF_STAT.DENY. -/
def Dev.hifDeny (d : Dev) : Dev := d.setF R.HIF_STAT_DENY

/-- The fetched commands of a queue that have not started. -/
def Dev.fetchedOf (d : Dev) (q : Nat) : List HostCmd := Store.get (fun _ => []) d.hif.fetched q

/-- Set them. -/
def Dev.setFetched (q : Nat) (cs : List HostCmd) (d : Dev) : Dev :=
  d.updHif (fun h => { h with fetched := Store.set (fun _ => []) h.fetched q cs })

/-- A command queue is enabled (R338). -/
def Dev.cmdqEnable (q : Nat) (d : Dev) : Dev :=
  let d := ((d.setF (R.CMDQ_STAT_EN q)).clrF (R.CMDQ_STAT_ERR q)).put (R.CMDQ_STAT_HEAD q) 0
  let d := (d.put R.HIF_STAT_QERR (clrBit (d.get R.HIF_STAT_QERR) q)).setFetched q []
  d.updHif (fun h => { h with tailDb := setNat h.tailDb q 0, fetchIx := setNat h.fetchIx q 0 })

/-- A command queue is disabled: fetched commands that have not started complete with ABORTED (R340), after the one that
runs (R341). -/
def Dev.cmdqDisable (q : Nat) (d : Dev) : Dev :=
  let cs := d.fetchedOf q
  let d := (d.clrF (R.CMDQ_STAT_EN q)).setFetched q []
  let d := d.updHif (fun h =>
    { h with running := h.running.map (fun r => if r.q == q then { r with counts := false } else r) })
  cs.foldl (fun d c => d.oweCompletion q c.cid 8) d

/-- CMDQ[q].CFG. While the queue is enabled, a write that would change CPLQ or SZ is discarded and sets DENY. -/
def Dev.wrCmdqCfg (q a : Nat) (w : Wr) (d : Dev) : Dev :=
  let en := d.flag (R.CMDQ_STAT_EN q)
  let d :=
    if !en then d.writePlain a w
    else if (w.over (d.rd a) ^^^ d.rd a) &&& 0x000F000F != 0 then d.hifDeny else d
  let d :=
    if w.does (R.CMDQ_CFG_ENA q) then
      let sz := d.get (R.CMDQ_CFG_SZ q)
      if en || (d.rd (R.CMDQ_BASE_LO q).addr).toNat % 64 != 0 || sz < 4 || 12 < sz
          || !d.flag (R.CPLQ_STAT_EN (d.get (R.CMDQ_CFG_CPLQ q))) then d.hifDeny
      else d.cmdqEnable q
    else d
  if w.does (R.CMDQ_CFG_DIS q) && d.flag (R.CMDQ_STAT_EN q) then d.cmdqDisable q else d

/-- CPLQ[p].CFG. While the queue is enabled, a write that would change IV or SZ is discarded as far as these go and sets
DENY. -/
def Dev.wrCplqCfg (p a : Nat) (w : Wr) (d : Dev) : Dev :=
  let en := d.flag (R.CPLQ_STAT_EN p)
  let d :=
    if !en then d.writePlain a w
    else
      let d' := d.writePlain a { w with mask := w.mask &&& ~~~(0x00001F0F : BitVec 32) }
      if (w.over (d.rd a) ^^^ d.rd a) &&& 0x00001F0F != 0 then d'.hifDeny else d'
  let d :=
    if w.does (R.CPLQ_CFG_ENA p) then
      let sz := d.get (R.CPLQ_CFG_SZ p)
      if en || (d.rd (R.CPLQ_BASE_LO p).addr).toNat % 64 != 0 || sz < 4 || 12 < sz then d.hifDeny
      else
        (((d.setF (R.CPLQ_STAT_EN p)).put (R.CPLQ_STAT_TAIL p) 0).put (R.CPLQ_STAT_P p) 1).updHif (fun h =>
          { h with cplHead := setNat h.cplHead p 0, cplUsed := setNat h.cplUsed p 0, vecHeld := clrBit h.vecHeld p })
    else d
  if w.does (R.CPLQ_CFG_DIS p) && d.flag (R.CPLQ_STAT_EN p) then
    if (List.range 16).any (fun q => d.flag (R.CMDQ_STAT_EN q) && d.get (R.CMDQ_CFG_CPLQ q) == p) then d.hifDeny
    else d.clrF (R.CPLQ_STAT_EN p)
  else d

/-- A BASE register: discarded with DENY while its queue is enabled (R338). -/
def Dev.wrQueueBase (en : Bool) (a : Nat) (w : Wr) (d : Dev) : Dev :=
  if en then (if w.mask == 0 then d else d.hifDeny) else d.writePlain a w

/-- A command queue enters ERROR (R339): one completion with CID 0xFFFF and status QUEUE, QERR, event 116. -/
def Dev.queueError (q code : Nat) (d : Dev) : Dev :=
  let d := (d.setF (R.CMDQ_STAT_ERR q)).put (R.CMDQ_STAT_ECODE q) code
  let d := d.put R.HIF_STAT_QERR (setBit (d.get R.HIF_STAT_QERR) q)
  (d.oweCompletion q 0xFFFF 0xA).raise 116

/-! ## Doorbells (Table 14.2) -/

/-- HIF_STAT.DBERR. -/
def Dev.dbErr (d : Dev) : Dev := d.setF R.HIF_STAT_DBERR

/-- A command-queue tail doorbell (R339, R342, R360). -/
def Dev.tailDoorbell (q : Nat) (v : BitVec 32) (d : Dev) : Dev :=
  if !d.flag (R.CMDQ_STAT_EN q) then d.dbErr
  else if d.flag (R.CMDQ_STAT_ERR q) then d
  else if d.cmdqSize q ≤ v.toNat then d.queueError q 1
  else d.updHif (fun h => { h with tailDb := setNat h.tailDb q v.toNat })

/-- A completion-queue head doorbell (R342, R357). -/
def Dev.headDoorbell (p : Nat) (v : BitVec 32) (d : Dev) : Dev :=
  let size := d.cplqSize p
  let used := natAt d.hif.cplUsed p
  let rel := (v.toNat + size - natAt d.hif.cplHead p) % size
  if !d.flag (R.CPLQ_STAT_EN p) || size ≤ v.toNat || used < rel then d.dbErr
  else
    let d := d.updHif (fun h =>
      { h with cplHead := setNat h.cplHead p v.toNat, cplUsed := setNat h.cplUsed p (used - rel), vecHeld := clrBit h.vecHeld p })
    let d := d.payOwed
    if natAt d.hif.cplUsed p == 0 then d else d.cplVector p

/-- The ring bound to a group. -/
def Dev.segOf (d : Dev) (g : Nat) : Option SegRing := Store.get (fun _ => none) d.hif.segs g

/-- Bind or unbind. -/
def Dev.setSeg (g : Nat) (r : Option SegRing) (d : Dev) : Dev :=
  d.updHif (fun h => { h with segs := Store.set (fun _ => none) h.segs g r })

/-- An entry whose words this model does not know: host memory holds them. Free values. -/
def freeEntry : List (BitVec 16) := (List.range 16).map (fun j => BitVec.ofNat 16 (Config.freeValue (1000 + j)).toNat)

/-- A segment-ring producer index (R349). `ents`: the entries as the host published them. -/
def Dev.segDoorbell (g : Nat) (v : BitVec 16) (ents : List (List (BitVec 16))) (d : Dev) : Dev :=
  match d.segOf g with
  | none => d.dbErr
  | some r =>
    let n := (v.toNat + 65536 - r.cIdx) % 65536
    if r.size < n then d.dbErr
    else d.setSeg g (some { r with pIdx := v.toNat, ents := ((r.ents ++ ents) ++ List.replicate n freeEntry).take n })

/-- A doorbell write at an offset of Table 14.2 takes effect. `ents`: the entries that a SEGR doorbell publishes. -/
def Dev.ringBell (off : Nat) (v : BitVec 32) (ents : List (List (BitVec 16))) (d : Dev) : Dev :=
  if off < 0x80 then (if off % 8 == 0 then d.tailDoorbell (off / 8) v else d.headDoorbell (off / 8) v)
  else if 0x100 ≤ off && off < 0x140 then d.segDoorbell ((off - 0x100) / 4) (BitVec.ofNat 16 v.toNat) ents
  else d.dbErr

/-- A doorbell write: kept while RDY is 0 (R360). -/
def Dev.doorbell (off : Nat) (v : BitVec 32) (ents : List (List (BitVec 16))) (d : Dev) : Dev :=
  if d.flag R.HIF_STAT_RDY then d.ringBell off v ents
  else d.updHif (fun h => { h with kept := h.kept ++ [(off, v, ents)] })

/-- RDY becomes 1: the kept doorbells are served in order (R360). -/
def Dev.hostServe (d : Dev) : Dev :=
  d.hif.kept.foldl (fun d k => d.ringBell k.1 k.2.1 k.2.2)
    ((d.setF R.HIF_STAT_RDY).updHif (fun h => { h with kept := [] }))

/-! ## MSI-X (R357) -/

/-- Send the pending vectors that are not masked. -/
def Dev.msixFlush (d : Dev) : Dev :=
  upTo 32 (fun v d =>
    if tst d.hif.pba.toNat v && d.hif.msixEn && !d.msixMasked v then
      (d.updHif (fun h => { h with pba := BitVec.ofNat 32 (clrBit h.pba.toNat v) })).emit (.msix v)
    else d) d

/-- A write of dword `i` of the MSI-X table. The reserved bits of an entry stay 0, as the PCIe specification has it. -/
def Dev.msixWrite (i : Nat) (v : BitVec 32) (d : Dev) : Dev :=
  let m : BitVec 32 := if i % 4 = 3 then 1 else if i % 4 = 0 then 0xFFFFFFFC else 0xFFFFFFFF
  (d.updHif (fun h => { h with tbl := Store.set msixZero h.tbl i (v &&& m) })).msixFlush

/-- HOST_IRQ (R358). -/
def Dev.wrHostIrq (w : Wr) (d : Dev) : Dev :=
  if w.wo && w.covers 4 0 then d.sendMsix (R.HOST_IRQ_VEC.of w.val) else d

/-! ## Configuration space (R330, R331, R363). Its layout is the PCIe specification's: PRESUMED, log entry 15. -/

/-- A configuration dword after reset (Table 14.1). -/
def cfgReset (i : Nat) : BitVec 32 :=
  match i with
  | 0 => 0x96481F9B
  | 1 => 0x00100000
  | 2 => 0x11800000 ||| BitVec.ofNat 32 ((Config.freeValue 2).toNat % 256)
  | 4 => 0x00000004
  | 6 => 0x0000000C
  | 13 => 0x00000040
  | 16 => 0x00035001
  | 20 => 0x001F6011
  | 21 => 0x00050000
  | 22 => 0x00051000
  | 24 => 0x00020010
  | 25 => 0x10008022
  | 26 => 0x00002100
  | 27 => 0x00000044
  | 33 => 0x00000006
  | 35 => 0x0000001E
  | 36 => 0x00000004
  | 64 => 0x00010001
  | _ => 0

/-- Its writable bits. -/
def cfgRw (i : Nat) : BitVec 32 :=
  match i with
  | 1 => 0x00000546
  | 3 => 0x000000FF
  | 4 => 0xFFC00000
  | 5 => 0xFFFFFFFF
  | 6 => 0xFFE00000
  | 7 => 0xFFFFFFFF
  | 15 => 0x000000FF
  | 17 => 0x00000003
  | 20 => 0xC0000000
  | 26 => 0x000071EF
  | 28 => 0x000000C3
  | 34 => 0x0000001F
  | 36 => 0x0000000F
  | 66 => 0x01FFF010
  | 67 => 0x01FFF010
  | 69 => 0x0000F1C1
  | _ => 0

/-- Its bits that a written 1 clears. -/
def cfgW1c (i : Nat) : BitVec 32 :=
  match i with
  | 1 => 0xF9000000
  | 26 => 0x000F0000
  | 65 => 0x01FFF010
  | 68 => 0x0000F1C1
  | _ => 0

/-- A configuration dword. -/
def Dev.cfgRd (d : Dev) (i : Nat) : BitVec 32 := Store.get cfgReset d.hif.cfg i

/-- Set it. -/
def Dev.setCfg (i : Nat) (v : BitVec 32) (d : Dev) : Dev := d.updHif (fun h => { h with cfg := Store.set cfgReset h.cfg i v })

/-- Report an error through AER: its bit of the Uncorrectable Error Status register (R361 to R363). -/
def Dev.aer (bit : Nat) (d : Dev) : Dev := d.setCfg 65 (d.cfgRd 65 ||| BitVec.ofNat 32 (2 ^ bit))

/-- A host memory request that the function does not take (R331, R362). -/
def Dev.unsupported (d : Dev) : Dev := d.aer 20

/-- The bits under byte enables. -/
def beMask (be : BitVec 4) : BitVec 32 :=
  BitVec.ofNat 32 ((List.range 4).foldl (fun m i => if tst be.toNat i then m + 255 * 256 ^ i else m) 0)

/-! ## Link events (R364) -/

/-- What a Function Level Reset, a hot reset and a link-down do. The AER dwords are sticky, as the PCIe specification has
it. -/
def Dev.linkReset (d : Dev) : Dev :=
  let d := upTo 512 (fun p d =>
    if d.get (pageFlagFld p) == 1 || d.get (pageFlagFld p) == 3 then d.put (pageFlagFld p) 0 else d) d
  let d := upTo 16 (fun q d =>
    ((d.put (R.CMDQ_STAT_HEAD q) 0).put (R.CPLQ_STAT_TAIL q) 0).put (R.CPLQ_STAT_P q) 1) d
  let d := d.updHif (fun h => { h with
    cfg := h.cfg.filter (fun e => 64 ≤ e.1), msixEn := false, fmask := false, tbl := [], pba := 0, snapPend := false,
    tailDb := [], fetchIx := [], fetched := [], cplHead := [], cplUsed := [], owed := [], kept := [], vecHeld := 0, running := [],
    segs := h.segs.map (fun e => (e.1, e.2.map (fun r => { r with pIdx := 0, cIdx := 0, ents := [] }))) })
  d.raise 114

/-- A write of a configuration dword: MSI-X Enable and Function Mask act at once, Initiate Function Level Reset resets the
function, and a power state other than D0 and D3hot is not taken. -/
def Dev.cfgWrite (i : Nat) (be : BitVec 4) (v : BitVec 32) (d : Dev) : Dev :=
  let old := d.cfgRd i
  let m := beMask be
  let new := (old &&& ~~~(cfgRw i &&& m)) ||| (v &&& cfgRw i &&& m)
  let new := if i == 17 && (new.toNat % 4 == 1 || new.toNat % 4 == 2) then old else new
  let d := d.setCfg i (new &&& ~~~(v &&& cfgW1c i &&& m))
  if i == 20 then
    (d.updHif (fun h => { h with msixEn := tst new.toNat 31, fmask := tst new.toNat 30 })).msixFlush
  else if i == 17 then d.msixFlush
  else if i == 26 && tst (v &&& m).toNat 15 then d.linkReset
  else d

end Sys2Proof.Machine
end

