-- ==== Sys2Proof/Machine/TimeBase.lean ====
section
/-! DEFINITION. The timebase (17_time_events_goose.md, R409 to R414) and the Goose watchdog (R420 to R425). -/

namespace Sys2Proof.Machine

/-! ## The timebase -/

/-- The pair link is up: a lane has block lock (R391). -/
def Dev.pairUp (d : Dev) : Bool := d.flag R.PAIR_STAT_LANE0 || d.flag R.PAIR_STAT_LANE1

/-- The source the timebase follows (Table 17.1). -/
def Dev.tbSrc (d : Dev) : Nat :=
  if d.get R.FAB_STAT_STATE == 3 && !d.flag R.FAB_STAT_ROOT && d.get R.PAIR_STAT_ROLE != 2 then 1
  else if d.get R.PAIR_STAT_ROLE == 2 && d.pairUp then 2
  else 0

/-- TB_STAT.LOCK under a source (R413). -/
def Dev.tbLock (d : Dev) (src : Nat) : Bool := (src == 1 && d.flag R.FAB_STAT_TLOCK) || (src == 2 && 16 ≤ d.tm.good)

/-- SRC and LOCK follow what they are made of; without a source PPB is 0 (R413); a lost LOCK raises event 14. -/
def Dev.tbUpdate (d : Dev) : Dev :=
  let src := d.tbSrc
  let was := d.flag R.TB_STAT_LOCK
  let lock := d.tbLock src
  let d := (d.put R.TB_STAT_SRC src).put R.TB_STAT_LOCK (b2n lock)
  let d := if src == 0 then d.put R.TB_ADJ 0 else d
  if was && !lock then d.raise 14 else d

/-- An instant from which a duration runs, as the step moves it: the time already passed stays. -/
def movedBy (shift at_ : BitVec 64) : BitVec 64 := at_ + shift

/-- A step of the timebase (R414). Ticks and samples next fall at the first multiple at or after the new value; a duration
in progress, which Table 17.2 does not name, goes on: the time since the reset was released (R329), the time in current
limit (R324). -/
def Dev.stepTime (v : BitVec 64) (d : Dev) : Dev :=
  let by_ := v - d.time
  let d := { d with
    time := v
    fio := { d.fio with
      tickAt := none, sampled := [], relAt := movedBy by_ d.fio.relAt
      limit := d.fio.limit.map (fun (e : Nat × Nat) => (e.1, (movedBy by_ (BitVec.ofNat 64 (e.2 - 1))).toNat + 1)) } }
  (d.satAdd R.TB_STAT_STEP_CNT 1).raiseRouted 14 v false

/-- TB_CTRL (R414). -/
def Dev.wrTbCtrl (w : Wr) (d : Dev) : Dev :=
  if w.does R.TB_CTRL_STEP then
    if (List.range 4).all (fun x => d.get (R.RING_STAT_STATE x) == 0 || d.get (R.RING_STAT_STATE x) == 7)
        && d.get R.SCAN_STAT_STATE == 0 && d.get R.PAIR_STAT_ROLE != 2 && d.tbSrc == 0 then
      d.stepTime (BitVec.ofNat 64 (d.get64 R.TB_SET_LO R.TB_SET_HI))
    else d.setF R.TB_STAT_DENY
  else d

/-- One clock: the timebase advances by 1, and by 2 or 0 where the rate correction has gathered a whole ns (R412). -/
def Dev.advance (d : Dev) : Dev :=
  let acc := d.tm.ppbAcc + d.getS R.TB_ADJ
  let (n, acc) := if 1000000000 ≤ acc then (2, acc - 1000000000) else if acc ≤ -1000000000 then (0, acc + 1000000000) else (1, acc)
  ({ d with time := d.time + BitVec.ofNat 64 n }).updTm (fun t => { t with ppbAcc := acc })

/-! ## The Goose watchdog -/

/-- One ns of the Goose: COUNT advances each µs up to PERIOD (R420). -/
def Dev.gooseNs (d : Dev) : Dev :=
  if d.tm.gooseNs + 1 < 1000 then d.updTm (fun t => { t with gooseNs := t.gooseNs + 1 })
  else
    let d := d.updTm (fun t => { t with gooseNs := 0 })
    if d.get R.GOOSE_COUNT_COUNT < d.tm.gPeriod then d.put R.GOOSE_COUNT_COUNT (d.get R.GOOSE_COUNT_COUNT + 1) else d

/-- A check-in by ID `id` with the right key (Table 17.4). -/
def Dev.checkIn (id : Nat) (d : Dev) : Dev :=
  let c := d.get R.GOOSE_COUNT_COUNT
  if !tst d.tm.gReg id then d.setF R.GOOSE_STAT_UNREG
  else if c < d.tm.gOpen then (d.setF R.GOOSE_STAT_EARLY).updTm (fun t => { t with gFail := true })
  else if c < d.tm.gPeriod then
    if tst (d.get R.GOOSE_SEEN) id then d.put R.GOOSE_DUP (setBit (d.get R.GOOSE_DUP) id)
    else d.put R.GOOSE_SEEN (setBit (d.get R.GOOSE_SEEN) id)
  else d.setF R.GOOSE_STAT_LATE

/-- GOOSE_CHK (R422). -/
def Dev.wrGooseChk (w : Wr) (d : Dev) : Dev :=
  if w.wo && w.covers 31 16 && w.covers 3 0 then
    if R.GOOSE_CHK_KEY.of w.val != 0x4E57 then (d.setF R.GOOSE_STAT_BADKEY).updTm (fun t => { t with gFail := true })
    else d.checkIn (R.GOOSE_CHK_ID.of w.val)
  else d

/-- GOOSE_REG: bit 0 reads 1 (R421). -/
def Dev.wrGooseReg (a : Nat) (w : Wr) (d : Dev) : Dev :=
  let d := d.writePlain a w
  d.put R.GOOSE_REG_IDS (setBit (d.get R.GOOSE_REG_IDS) 0)

/-- The next period starts with the PERIOD, OPEN and REG written by then (R421). -/
def Dev.goosePeriod (d : Dev) : Dev :=
  let p := min 1000000 (max 1000 (d.get R.GOOSE_PERIOD_PERIOD))
  let o := d.get R.GOOSE_OPEN_OPEN
  ((d.put R.GOOSE_COUNT_COUNT 0).put R.GOOSE_SEEN 0).updTm (fun t =>
    { t with gooseNs := 0, gFail := false, gPeriod := p, gOpen := if p ≤ o then 0 else o, gReg := d.get R.GOOSE_REG_IDS })

/-- A reset sequence starts, or the source joins the one in progress (R502). -/
def Dev.addDue (c : Cause) (d : Dev) : Dev :=
  if d.sys.due.contains c then d else { d with sys := { d.sys with due := d.sys.due ++ [c] } }

/-- The Goose resets the device (R424): outputs off, CAN recessive, NOTICE; the internal reset ends the sequence. -/
def Dev.gooseReset (d : Dev) : Dev :=
  (({ d with sys := { d.sys with outsOff := true } }).fioAllOff.pairNotice).addDue .goose

/-- COUNT has reached PERIOD and the period closes (R423, R424). -/
def Dev.gooseClose (d : Dev) : Dev :=
  if d.get R.GOOSE_COUNT_COUNT == d.tm.gPeriod then
    let seen := d.get R.GOOSE_SEEN
    let served := (d.tm.gReg &&& seen) == d.tm.gReg && !d.tm.gFail
    let stage := d.get R.GOOSE_STAT_STAGE
    let d := if served then d else d.put R.GOOSE_MISSING (d.tm.gReg - (d.tm.gReg &&& seen))
    let d :=
      if served then d.clrF R.GOOSE_STAT_STAGE
      else if stage == 0 then ((d.setF R.GOOSE_STAT_STAGE).setF R.GOOSE_STAT_WARN).raise 0
      else d.gooseReset
    d.goosePeriod
  else d

end Sys2Proof.Machine
end

