-- ==== Sys2Proof/Machine/Fab.lean ====
section
/-! DEFINITION. The unit fabric (15_unit_fabric.md): links and their authentication (R368, R369, R494), election (R372),
numbering (R373), link states and routes (R374), groups (R375) and published variables (R376 to R380). -/

namespace Sys2Proof.Machine

/-- Change what the fabric holds. -/
def Dev.updFab (d : Dev) (f : FabSt → FabSt) : Dev := { d with fab := f d.fab }

/-- A fabric link. -/
def Dev.link (d : Dev) (l : Nat) : LinkSt := Store.get (fun _ => default) d.fab.links l

/-- Change it. -/
def Dev.updLink (d : Dev) (l : Nat) (f : LinkSt → LinkSt) : Dev :=
  d.updFab (fun b => { b with links := Store.set (fun _ => default) b.links l (f (d.link l)) })

/-- The device's UID. -/
def Dev.uid (d : Dev) : Nat := d.get64 R.UID_LO R.UID_HI

/-- Its own device number where it has one. -/
def Dev.ownNum (d : Dev) : Option Nat := if d.flag R.FAB_STAT_VALID then some (d.get R.FAB_STAT_DEVNUM) else none

/-- A link is UP. -/
def Dev.fabLinkUp (d : Dev) (l : Nat) : Bool := d.get (R.LINK_STAT_STATE l) == 2

/-- The links that are UP. -/
def Dev.upLinks (d : Dev) : List Nat := (List.range 4).filter d.fabLinkUp

/-- Own capability word (Table 15.2). -/
def ownCap : BitVec 32 := 0x10000007

/-- Bytes `i` to `i + n - 1` of a payload as a little-endian number; bytes beyond its end are 0. -/
def leAt (p : List (BitVec 8)) (i n : Nat) : Nat :=
  (List.range n).foldl (fun a k => a + (p.getD (i + k) 0).toNat * 256 ^ k) 0

/-- A frame dropped and counted. -/
def Dev.fabDrop (d : Dev) : Dev := d.satAdd R.FAB_DROP 1

/-- Own source address (Table 15.3). -/
def Dev.ownAddr (d : Dev) : Nat := match d.ownNum with
  | some n => n * 256
  | none => 0xFFFFFF00

/-- Send a frame on a link. -/
def Dev.sendFab (l kind dst ttl : Nat) (payload : List (BitVec 8)) (d : Dev) : Dev :=
  let f : FabFrame := { kind := BitVec.ofNat 8 kind, ver := 0x10, dst := BitVec.ofNat 32 dst, src := BitVec.ofNat 32 d.ownAddr,
                        ttl := BitVec.ofNat 8 ttl, seq := BitVec.ofNat 16 d.fab.seq, payload := payload, crcOk := true }
  (d.emit (.fabric l f)).updFab (fun b => { b with seq := (b.seq + 1) % 65536 })

/-- Serial numbers of 16 bits: `a` is newer than `b`. -/
def newer16 (a b : Nat) : Bool :=
  let x := (a + 65536 - b) % 65536
  1 ≤ x && x ≤ 0x7FFF

/-! ## Authentication (R494) -/

/-- The fuse set requires authentication of the fabric links. -/
def Dev.fabAuth (d : Dev) : Bool := tst (d.rd R.PS_POL.addr).toNat 5

/-- The fabric key and the pair key. -/
def Dev.fabKey (d : Dev) : Option (BitVec 256) := d.key.fab.value.map (fun k => kdf k "T9648 FAB" [])
def Dev.pairKey (d : Dev) : Option (BitVec 256) := d.key.pair.value.map (fun k => kdf k "T9648 PAIR" [])

/-- A proof over the receiver's nonce, as 16 bytes. -/
def authProof (key : BitVec 256) (sender receiver : Nat) (nonce : BitVec 128) : List (BitVec 8) :=
  (bytesBE 32 (Config.hmacSha256 (bytesBE 32 key.toNat)
    (labelBytes "T9648 AUTH" ++ bytesLE 8 sender ++ bytesLE 8 receiver ++ bytesBE 16 nonce.toNat)).toNat).take 16

/-- A fresh nonce from the TRNG. -/
def Dev.drawNonce (d : Dev) : BitVec 128 × Dev :=
  (BitVec.ofNat 128 (Config.trng d.key.draws).toNat, { d with key := { d.key with draws := d.key.draws + 1 } })

/-! ## Routes (R374) -/

/-- Two device numbers are joined: each one's LSA shows the other UP. -/
def Dev.joined (d : Dev) (a b : Nat) : Bool :=
  d.fab.lsdb.any (fun x => x.num == a && x.nbrs.contains (some b))
    && d.fab.lsdb.any (fun x => x.num == b && x.nbrs.contains (some a))

/-- Breadth-first search: the device numbers with their distance, for at most `fuel` further hops. -/
def Dev.spread (d : Dev) : Nat → Nat → List Nat → List (Nat × Nat) → List (Nat × Nat)
  | 0, _, _, seen => seen
  | fuel + 1, dist, front, seen =>
    let next := (d.fab.lsdb.map (·.num)).filter (fun m =>
      !seen.any (fun s => s.1 == m) && front.any (fun a => d.joined a m))
    let next := next.eraseDups
    if next.isEmpty then seen else d.spread fuel (dist + 1) next (seen ++ next.map (fun m => (m, dist + 1)))

/-- The distances through link `l`: its neighbour at 1 hop, and what lies beyond, up to 15 hops. -/
def Dev.throughLink (d : Dev) (l : Nat) : List (Nat × Nat) :=
  let n := d.get (R.LINK_STAT_NDEV l)
  match d.ownNum with
  | some own =>
    if d.fabLinkUp l && d.flag (R.LINK_STAT_NVALID l) && d.joined own n then d.spread 14 1 [n] [(n, 1)] else []
  | none => []

/-- The routing byte of device `m`: the shortest path, lower link first; 7 where unreachable (Table 15.6). -/
def routeByte (own : Option Nat) (tabs : List (Nat × List (Nat × Nat))) (m : Nat) : Nat :=
  if own == some m then 5 * 32
  else
    let best := tabs.foldl (fun (b : Option (Nat × Nat)) t =>
      match t.2.find? (fun e => e.1 == m) with
      | none => b
      | some e => match b with
        | none => some (t.1, e.2)
        | some (_, h) => if e.2 < h then some (t.1, e.2) else b) none
    match best with
    | some (l, h) => l * 32 + h
    | none => 0xFF

/-- Every route and NDEV anew. -/
def Dev.reroute (d : Dev) : Dev :=
  let own := d.ownNum
  let tabs := (List.range 4).map (fun l => (l, d.throughLink l))
  let bytes := (List.range 256).map (routeByte own tabs)
  let d := upTo 64 (fun m d => d.put (R.ROUTE m) ((List.range 4).foldl (fun a i => a + bytes.getD (4 * m + i) 0 * 256 ^ i) 0)) d
  d.put R.FAB_STAT_NDEV ((bytes.filter (fun b => b / 32 < 4)).length)

/-- The routing byte in force. -/
def Dev.routeOf (d : Dev) (m : Nat) : Nat := d.get (R.ROUTE (m / 4)) / 256 ^ (m % 4) % 256

/-! ## LSAs (R374) -/

/-- The group memberships as an LSA carries them: G, and LEADC, PAIR, ACTIVE in bits 0 to 2. -/
def Dev.ownGroups (d : Dev) : List (Nat × Nat) :=
  (List.range 2).map (fun j =>
    if d.flag (R.GRP_EN j) then
      (d.get (R.GRP_G j), d.get (R.GRP_LEADC j) + 2 * d.get (R.GRP_PAIR j) + 4 * b2n (d.get R.PAIR_STAT_ROLE == 1))
    else (0, 0))

/-- The payload of an LSA. -/
def lsaBytes (a : Lsa) : List (BitVec 8) :=
  bytesLE 2 a.num ++ bytesLE 2 a.lseq ++ bytesLE 8 a.uid
    ++ a.nbrs.flatMap (fun n => match n with
      | some m => bytesLE 1 m ++ [1]
      | none => [0, 0])
    ++ a.grps.flatMap (fun g => bytesLE 1 g.1 ++ bytesLE 1 g.2)

/-- An LSA from its payload. -/
def lsaOfBytes (p : List (BitVec 8)) (t : BitVec 64) : Lsa :=
  { num := leAt p 0 1, lseq := leAt p 2 2, uid := leAt p 4 8,
    nbrs := (List.range 4).map (fun l => if leAt p (13 + 2 * l) 1 % 2 == 1 then some (leAt p (12 + 2 * l) 1) else none),
    grps := (List.range 2).map (fun j => (leAt p (20 + 2 * j) 1, leAt p (21 + 2 * j) 1 % 8)), at_ := t }

/-- Store an LSA in place of its origin's last one. -/
def Dev.holdLsa (a : Lsa) (d : Dev) : Dev :=
  d.updFab (fun b => { b with lsdb := b.lsdb.filter (fun x => x.uid != a.uid) ++ [a] })

/-- A device in RUN floods its LSA. -/
def Dev.floodLsa (d : Dev) : Dev :=
  if d.get R.FAB_STAT_STATE == 3 then
    let a : Lsa :=
      { num := d.get R.FAB_STAT_DEVNUM, lseq := (d.fab.lseq + 1) % 65536, uid := d.uid,
        nbrs := (List.range 4).map (fun l =>
          if d.fabLinkUp l && d.flag (R.LINK_STAT_NVALID l) then some (d.get (R.LINK_STAT_NDEV l)) else none),
        grps := d.ownGroups, at_ := d.time }
    let d := (d.updFab (fun b => { b with lseq := a.lseq })).holdLsa a
    (d.upLinks.foldl (fun d l => d.sendFab l 4 0 16 (lsaBytes a)) d).reroute
  else d

/-! ## Election (R372) -/

/-- Set FAB_STAT.STATE; a change raises event 7 (R383). -/
def Dev.setFab (n : Nat) (d : Dev) : Dev :=
  if d.get R.FAB_STAT_STATE == n then d else ((d.put R.FAB_STAT_STATE n).raise 7).tbUpdate

/-- The announcement of link `l` counts: the link is UP, its HOPS are below 15, and it does not name the root discarded last
with an EPOCH that has not increased. -/
def Dev.announces (d : Dev) (l : Nat) : Bool :=
  let k := d.link l
  d.fabLinkUp l && k.nHops < 15
    && (match d.fab.dead with
      | some (r, e) => k.nRoot != r || newer16 k.nEpoch e
      | none => true)

/-- The lowest UID that the device knows of. -/
def Dev.bestRoot (d : Dev) : Nat := (((List.range 4).filter d.announces).map (fun l => (d.link l).nRoot)).foldl min d.uid

/-- The parent link: the one with the lowest hop count to root `r`, lower link first. -/
def Dev.parentOf (d : Dev) (r : Nat) : Option Nat :=
  ((List.range 4).filter (fun l => d.announces l && (d.link l).nRoot == r)).foldl (fun b l =>
    match b with
    | none => some l
    | some p => if (d.link l).nHops < (d.link p).nHops then some l else b) none

/-- Root, parent and hop count from what the neighbours announce. A change of the root starts an election and raises
event 7 (R383). -/
def Dev.elect (d : Dev) : Dev :=
  if d.get R.FAB_STAT_STATE == 0 then d
  else
    let r := d.bestRoot
    let own := r == d.uid
    let p := if own then none else d.parentOf r
    let changed := r != d.fab.root
    let hops := match p with
      | some l => (d.link l).nHops + 1
      | none => 0
    let ep := match p with
      | some l => (d.link l).nEpoch
      | none => d.fab.epoch
    let fresh := changed || (!own && newer16 ep d.fab.epoch)
    let d := d.put R.TSYNC_STAT_PARENT (p.getD 0xFF)
    let d := d.updFab (fun b => { b with
      root := r, hops := hops, epoch := if fresh then ep else b.epoch, epochAt := if fresh then d.time else b.epochAt })
    if changed then
      let d := ((d.put R.ROOT_LO r).put R.ROOT_HI (r / 2 ^ 32)).put R.FAB_STAT_ROOT (b2n own)
      let d := d.updFab (fun b => { b with rootSince := d.time, joins := [], assigned := false })
      ((d.raise 7).setFab 1).tbUpdate
    else d

/-! ## Links (R369) -/

/-- Set the state of a link: a change raises event 7; one into or out of UP floods an LSA, and the election follows. -/
def Dev.fabSetLink (l n : Nat) (d : Dev) : Dev :=
  let old := d.get (R.LINK_STAT_STATE l)
  if old == n then d
  else
    let d := (d.put (R.LINK_STAT_STATE l) n).raise 7
    let d := if n == 2 then d.put (R.LINK_CAP l) ((d.link l).nCap &&& ownCap).toNat else d.put (R.LINK_CAP l) 0
    if old == 2 || n == 2 then (d.floodLsa).elect else d

/-- A link goes DOWN. -/
def Dev.linkDown (l : Nat) (d : Dev) : Dev :=
  let d := d.updLink l (fun k => { k with good := 0, auth := false, nNonce := none })
  ((d.put (R.LINK_STAT_NDEV l) 0).put (R.LINK_STAT_NVALID l) 0).fabSetLink l 0

/-- A link enters LOCK with a fresh nonce (R494). -/
def Dev.linkLock (l : Nat) (d : Dev) : Dev :=
  let (n, d) := d.drawNonce
  (d.updLink l (fun k => { k with lock := true, good := 0, nonce := n, nNonce := none, auth := false, lastHello := d.time })).fabSetLink l 1

/-- The payload of HELLO on link `l` (Table 15.4, R494). -/
def Dev.helloBytes (d : Dev) (l : Nat) : List (BitVec 8) :=
  let base := bytesLE 8 d.uid ++ bytesLE 8 d.fab.root ++ bytesLE 1 d.fab.hops ++ bytesLE 1 (d.get R.FAB_STAT_DEVNUM)
    ++ bytesLE 1 (d.get R.FAB_STAT_VALID + 2 * b2n (d.get R.PAIR_STAT_ROLE == 2)) ++ bytesLE 1 l
    ++ bytesLE 4 ownCap.toNat ++ bytesLE 2 d.fab.epoch ++ [0, 0, 0, 0, 0, 0]
  if d.fabAuth then
    let k := d.link l
    let proof := match d.fabKey, k.nNonce with
      | some key, some n => authProof key d.uid k.nUid n
      | _, _ => List.replicate 16 0
    base ++ bytesBE 16 k.nonce.toNat ++ proof
  else base

/-- Every enabled link sends HELLO. -/
def Dev.helloSend (d : Dev) : Dev :=
  if d.flag R.FAB_CFG_EN then
    (List.range 4).foldl (fun d l => if tst (d.get R.FAB_CFG_LINKEN) l then d.sendFab l 1 0 1 (d.helloBytes l) else d) d
  else d

/-- The authentication that a HELLO brings: whether the link is denied, and the link afterwards. -/
def Dev.helloAuth (l : Nat) (p : List (BitVec 8)) (d : Dev) : Bool × Dev :=
  if !d.fabAuth then (false, d)
  else
    match d.fabKey with
    | none => (true, d)
    | some key =>
      if p.length < 64 then (false, d)
      else
        let nonce := (p.drop 32).take 16
        let proof := (p.drop 48).take 16
        let d := d.updLink l (fun k => { k with nNonce := some (BitVec.ofNat 128 (leAt nonce.reverse 0 16)) })
        if proof.all (· == 0) then (false, d)
        else if proof == authProof key (leAt p 0 8) d.uid (d.link l).nonce then (false, d.updLink l (fun k => { k with auth := true }))
        else (true, d)

/-- A HELLO with a correct CRC arrives (R369, R372). -/
def Dev.helloGood (l : Nat) (p : List (BitVec 8)) (d : Dev) : Dev :=
  let cap := BitVec.ofNat 32 (leAt p 20 4)
  let d := d.updLink l (fun k => { k with
    good := min 3 (k.good + 1), lastHello := d.time, nUid := leAt p 0 8, nRoot := leAt p 8 8, nHops := leAt p 16 1,
    nEpoch := leAt p 24 2, nCap := cap })
  let num := leAt p 17 1
  let valid := leAt p 18 1 % 2
  let moved := d.fabLinkUp l && (d.get (R.LINK_STAT_NDEV l) != num || d.get (R.LINK_STAT_NVALID l) != valid)
  let d := (d.put (R.LINK_STAT_NDEV l) num).put (R.LINK_STAT_NVALID l) valid
  let (deny, d) := d.helloAuth l p
  if d.get (R.LINK_STAT_STATE l) == 4 then d
  else if deny then d.fabSetLink l 4
  else if cap.toNat / 2 ^ 28 != 1 then d.fabSetLink l 3
  else if (d.link l).good == 3 && (!d.fabAuth || (d.link l).auth) then
    let d := d.fabSetLink l 2
    (if moved then d.floodLsa else d).elect
  else if d.get (R.LINK_STAT_STATE l) == 3 then d.fabSetLink l 1
  else d

/-- Every frame that arrives: a bad CRC is counted for the link; a wrong major version or a reserved kind is dropped; a link
that is not UP carries HELLO only (R368 to R370). Frames come on an enabled link with block lock. -/
def Dev.fabRx (l : Nat) (f : FabFrame) (act : Dev → Dev) (d : Dev) : Dev :=
  if !d.flag R.FAB_CFG_EN || !tst (d.get R.FAB_CFG_LINKEN) l || !(d.link l).lock then d
  else if !f.crcOk then
    let d := d.satAdd (R.LINK_CRC l) 1
    if f.kind == 1 then d.updLink l (fun k => { k with good := 0 }) else d
  else if f.ver.toNat / 16 != 1 || !([1, 2, 3, 4, 5, 6, 0x10].contains f.kind.toNat) then d.fabDrop
  else if f.kind != 1 && !d.fabLinkUp l then d.fabDrop
  else act d

/-! ## Numbering (R373) -/

/-- A number is in use by another device than `uid`. -/
def numTaken (nums : List (Nat × Nat)) (uid n : Nat) : Bool := nums.any (fun e => e.1 == n && e.2 != uid)

/-- The lowest free number. -/
def lowestFree (nums : List (Nat × Nat)) (uid : Nat) : Option Nat := (List.range 256).find? (fun n => !numTaken nums uid n)

/-- The numbers in use: those the root has assigned, and those that LSAs show. -/
def Dev.numsInUse (d : Dev) : List (Nat × Nat) := d.fab.nums ++ d.fab.lsdb.map (fun a => (a.num, a.uid))

/-- The number a later JOIN gets. -/
def joinNumber (nums : List (Nat × Nat)) (j : JoinRec) : Option Nat :=
  match j.cur.filter (fun n => !numTaken nums j.uid n) with
  | some n => some n
  | none =>
    match j.req.filter (fun n => !numTaken nums j.uid n) with
    | some n => some n
    | none => lowestFree nums j.uid

/-- Insert a JOIN in ascending UID order, in place of an earlier one of the same UID. -/
def insJoin (j : JoinRec) : List JoinRec → List JoinRec
  | [] => [j]
  | k :: rest => if j.uid < k.uid then j :: k :: rest else if j.uid == k.uid then j :: rest else k :: insJoin j rest

/-- One pass over the JOINs in ascending UID order: whoever has no number yet and whose wish is free gets it. -/
def joinPass (wish : List (Nat × Nat) → JoinRec → Option Nat) (js : List JoinRec) (nums : List (Nat × Nat)) :
    List (Nat × Nat) :=
  js.foldl (fun nums j =>
    if nums.any (fun e => e.2 == j.uid) then nums
    else
      match (wish nums j).filter (fun n => !numTaken nums j.uid n) with
      | some n => nums ++ [(n, j.uid)]
      | none => nums) nums

/-- The three passes of R373. -/
def assignNumbers (js : List JoinRec) : List (Nat × Nat) :=
  joinPass (fun nums j => lowestFree nums j.uid) js (joinPass (fun _ j => j.req) js (joinPass (fun _ j => j.cur) js []))

/-- The payload of ASSIGN. -/
def assignBytes (uid : Nat) (n : Option Nat) : List (BitVec 8) :=
  bytesLE 8 uid ++ bytesLE 1 (n.getD 0) ++ [if n.isSome then 1 else 0, 0, 0]

/-- The payload of the device's own JOIN. -/
def Dev.joinBytes (d : Dev) : List (BitVec 8) :=
  bytesLE 8 d.uid ++ bytesLE 1 (d.get R.FAB_STAT_DEVNUM) ++ bytesLE 1 (d.get R.FAB_CFG_REQ)
    ++ bytesLE 1 (d.get R.FAB_STAT_VALID + 2 * d.get R.FAB_CFG_REQEN) ++ [0]

/-- A JOIN from its payload. -/
def joinOf (p : List (BitVec 8)) : JoinRec :=
  let fl := leAt p 10 1
  { uid := leAt p 0 8, cur := if tst fl 0 then some (leAt p 8 1) else none, req := if tst fl 1 then some (leAt p 9 1) else none }

/-- Levels 2 to 7 of the own address. -/
def Dev.setAddr (d : Dev) : Dev := d.put R.FAB_ADDR_LEVELS (match d.ownNum with
  | some n => n
  | none => 0xFFFFFF)

/-- The device takes its number and enters RUN, or stays in JOIN with FULL. -/
def Dev.takeNumber (n : Option Nat) (d : Dev) : Dev :=
  match n with
  | some n => ((((d.put R.FAB_STAT_DEVNUM n).setF R.FAB_STAT_VALID).clrF R.FAB_STAT_FULL).setAddr.setFab 3).floodLsa
  | none => d.setF R.FAB_STAT_FULL

/-- ASSIGN travels back on the link on which the JOIN arrived. -/
def Dev.sendAssign (uid : Nat) (n : Option Nat) (d : Dev) : Dev :=
  match d.fab.via.find? (fun e => e.1 == uid) with
  | some (_, l) => d.sendFab l 3 0 16 (assignBytes uid n)
  | none => d

/-- The root gathers JOINs for 1 ms after it settles and assigns in three passes. -/
def Dev.rootAssign (d : Dev) : Dev :=
  if d.flag R.FAB_STAT_ROOT && d.get R.FAB_STAT_STATE == 2 && 1000000 ≤ (d.time - d.fab.joinAt).toNat then
    let js := insJoin (joinOf d.joinBytes) d.fab.joins
    let nums := assignNumbers js
    let numOf (uid : Nat) : Option Nat := (nums.find? (fun e => e.2 == uid)).map (·.1)
    let d := d.updFab (fun b => { b with nums := nums, joins := [], assigned := true })
    let d := (js.filter (fun j => j.uid != d.uid)).foldl (fun d j => d.sendAssign j.uid (numOf j.uid)) d
    d.takeNumber (numOf d.uid)
  else d

/-- A JOIN arrives: the root answers it at once after its passes and gathers it before; any other device forwards it toward
its parent. -/
def Dev.joinArrive (l : Nat) (f : FabFrame) (d : Dev) : Dev :=
  let j := joinOf f.payload
  let d := d.updFab (fun b => { b with via := b.via.filter (fun e => e.1 != j.uid) ++ [(j.uid, l)] })
  if d.flag R.FAB_STAT_ROOT then
    if d.fab.assigned then
      let n := joinNumber (d.numsInUse) j
      let d := match n with
        | some m => d.updFab (fun b => { b with nums := b.nums.filter (fun (e : Nat × Nat) => e.2 != j.uid) ++ [(m, j.uid)] })
        | none => d
      d.sendAssign j.uid n
    else d.updFab (fun b => { b with joins := insJoin j b.joins })
  else
    let p := d.get R.TSYNC_STAT_PARENT
    let ttl := f.ttl.toNat - 1
    if p < 4 && ttl != 0 then d.emit (.fabric p { f with ttl := BitVec.ofNat 8 ttl }) else d.fabDrop

/-- An ASSIGN arrives. -/
def Dev.assignArrive (f : FabFrame) (d : Dev) : Dev :=
  let uid := leAt f.payload 0 8
  let n := if leAt f.payload 9 1 % 2 == 1 then some (leAt f.payload 8 1) else none
  if uid == d.uid then (if d.get R.FAB_STAT_STATE == 2 then d.takeNumber n else d)
  else
    match d.fab.via.find? (fun e => e.1 == uid) with
    | some (_, l) =>
      let ttl := f.ttl.toNat - 1
      if ttl != 0 then d.emit (.fabric l { f with ttl := BitVec.ofNat 8 ttl }) else d.fabDrop
    | none => d.fabDrop

/-- The device gives its number up and joins again without CUR. -/
def Dev.rejoin (d : Dev) : Dev :=
  if d.get R.FAB_STAT_STATE == 3 then
    let d := (((d.clrF R.FAB_STAT_VALID).put R.FAB_STAT_DEVNUM 0).setAddr.setFab 2).updFab (fun b => { b with joinAt := d.time })
    d.reroute
  else d

/-- Two devices with one number (R374): the higher UID gives it up. -/
def Dev.numberConflict (d : Dev) : Dev :=
  match d.ownNum with
  | some n =>
    if d.get R.FAB_STAT_STATE == 3 && d.fab.lsdb.any (fun a => a.num == n && a.uid < d.uid) then
      ((d.setF R.FAB_STAT_CONFL).raise 7).rejoin
    else d
  | none => d

/-- An LSA arrives: a newer one is stored, forwarded on all other links, and the routes are computed anew. -/
def Dev.lsaArrive (l : Nat) (f : FabFrame) (d : Dev) : Dev :=
  let a := lsaOfBytes f.payload d.time
  let isNew := a.uid != d.uid && (match d.fab.lsdb.find? (fun x => x.uid == a.uid) with
    | some x => newer16 a.lseq x.lseq
    | none => true)
  if isNew then
    let d := d.holdLsa a
    let ttl := f.ttl.toNat - 1
    let d := if ttl == 0 then d
      else (d.upLinks.filter (· != l)).foldl (fun d k => d.emit (.fabric k { f with ttl := BitVec.ofNat 8 ttl })) d
    d.reroute.numberConflict
  else d

/-- An origin that has not been refreshed for 30 ms is deleted. -/
def Dev.lsaExpire (uid : Nat) (d : Dev) : Dev :=
  if uid != d.uid && d.fab.lsdb.any (fun a => a.uid == uid && 30000000 ≤ (d.time - a.at_).toNat) then
    (d.updFab (fun b => { b with
      lsdb := b.lsdb.filter (fun a => a.uid != uid), nums := b.nums.filter (fun e => e.2 != uid) })).reroute.numberConflict
  else d

/-! ## Routed frames (R366, R367, R371, R375) -/

/-- The lead member of group `g` as a device number. -/
def Dev.groupLead (d : Dev) (g : Nat) : Option Nat :=
  let near (n : Nat) : Bool := d.ownNum == some n || d.routeOf n / 32 < 4
  let mem := d.fab.lsdb.filter (fun a => a.grps.any (fun (e : Nat × Nat) => e.1 == g) && near a.num)
  let pair := mem.any (fun a => a.grps.any (fun (e : Nat × Nat) => e.1 == g && tst e.2 1))
  let lead := mem.filter (fun a => a.grps.any (fun (e : Nat × Nat) => e.1 == g && tst e.2 (if pair then 2 else 0)))
  (lead.foldl (fun (b : Option Lsa) a => match b with
    | none => some a
    | some c => if a.uid < c.uid then some a else b) none).map (·.num)

/-- Where a destination address leads: this device (`none` inside), a device number, or nowhere. -/
inductive FabDst where
  | here | dev (n : Nat) | drop
deriving DecidableEq, Repr, Inhabited

/-- R366, R367. -/
def Dev.destOf (d : Dev) (dst : Nat) : FabDst :=
  if dst / 256 == 0xFFFFFF then .here
  else if dst / 2 ^ 24 != 0 then .drop
  else
    let g := dst / 65536 % 256
    let n := dst / 256 % 256
    let num := if g == 0 then some n else if n == 0 then d.groupLead g else none
    match num with
    | none => .drop
    | some n => if d.ownNum == some n then .here else .dev n

/-- Send a routed frame on its next hop. A PUBLISH needs the PUB feature of that link (R369). -/
def Dev.sendRouted (n : Nat) (f : FabFrame) (d : Dev) : Dev :=
  let r := d.routeOf n
  if r / 32 < 4 && d.fabLinkUp (r / 32) && tst (d.get (R.LINK_CAP (r / 32))) 0 then d.emit (.fabric (r / 32) f) else d.fabDrop

/-! ## Published variables -/

/-- A region of `n` words at `w` lies in M, and `len` is 1 to 124 (R380). -/
def regionOk (w n len : Nat) : Bool := 0x30000 ≤ w && w + n ≤ 0x40000 && 1 ≤ len && len ≤ 124

/-- A subscription's state. -/
def Dev.subSt (d : Dev) (k : Nat) : SubSt := Store.get (fun _ => default) d.fab.subs k

/-- Set it, and write STATUS. -/
def Dev.setSub (k : Nat) (s : SubSt) (d : Dev) : Dev :=
  let d := d.updFab (fun b => { b with subs := Store.set (fun _ => default) b.subs k s })
  d.unitStore 0xFF (d.wStore (d.get (R.SUB_DST_ADDR k)) [BitVec.ofNat 16 (b2n s.stale * 0x8000 + s.age)])

/-- Entry `k` may be used; else CFGERR is set. -/
def Dev.subUse (k : Nat) (f : Dev → Dev) (d : Dev) : Dev :=
  if d.flag (R.SUB_CTRL_EN k) then
    if regionOk (d.get (R.SUB_DST_ADDR k)) (d.get (R.SUB_DST_LEN k) + 4) (d.get (R.SUB_DST_LEN k)) then f d
    else d.setF R.FAB_STAT_CFGERR
  else d

/-- A PUBLISH reaches entry `k` (R377, R378). -/
def Dev.subTake (k : Nat) (p : List (BitVec 8)) (d : Dev) : Dev :=
  d.subUse k (fun d =>
    let w := d.get (R.SUB_DST_ADDR k)
    let len := d.get (R.SUB_DST_LEN k)
    let (hw, d) := d.wRead 0xFF (w + 2) 2
    let want := ofWords hw
    let s := d.subSt k
    if leAt p 4 4 == want && want != 0 && p.length == 8 + 2 * len then
      let data := (List.range len).map (fun i => BitVec.ofNat 16 (leAt p (8 + 2 * i) 2))
      let d := d.unitStore 0xFF (d.wStore (w + 4) data)
      let d := d.unitStore 0xFF (d.wStore (w + 1) [BitVec.ofNat 16 (leAt p 2 2)])
      d.setSub k { stale := false, age := 0, got := true }
    else if s.stale then d
    else (d.setSub k { s with stale := true }).raise 7)

/-- A PUBLISH arrives at this device. DST[7:0] names a unit (R366), and the spec does not say whether R16 refuses a PUBLISH
whose unit is an empty herd or takes no such request: DESIGN CHOICE, it is delivered whatever DST[7:0] is (log entry 59). -/
def Dev.publishHere (f : FabFrame) (d : Dev) : Dev :=
  upTo 32 (fun k d =>
    if d.get (R.SUB_CTRL_SRCDEV k) == f.src.toNat / 256 % 256 && d.get (R.SUB_CTRL_PUB_ID k) == leAt f.payload 0 1
    then d.subTake k f.payload else d) d

/-- A routed frame arrives: delivered here, forwarded with TTL one less, or dropped. -/
def Dev.routedArrive (f : FabFrame) (d : Dev) : Dev :=
  match d.destOf f.dst.toNat with
  | .here => d.publishHere f
  | .drop => d.fabDrop
  | .dev n =>
    let ttl := f.ttl.toNat - 1
    if ttl == 0 then d.fabDrop else d.sendRouted n { f with ttl := BitVec.ofNat 8 ttl }

/-- PER in ns. -/
def perNs (per : Nat) : Nat := max 1 per * 15625

/-- PUB entry `k` at a multiple of its period (R376). -/
def Dev.publishSend (k : Nat) (d : Dev) : Dev :=
  if d.flag (R.PUB_CTRL_EN k) && d.flag R.FAB_CFG_EN && d.time.toNat % perNs (d.get (R.PUB_CTRL_PER k)) == 0 then
    let w := d.get (R.PUB_SRC_ADDR k)
    let len := d.get (R.PUB_SRC_LEN k)
    if regionOk w (len + 2) len then
      let (ws, d) := d.wRead 0xFF w (len + 2)
      let ps := (Store.get (fun _ => 0) d.fab.pseq k + 1) % 65536
      let f : FabFrame := { kind := 0x10, ver := 0x10, dst := BitVec.ofNat 32 (d.get (R.PUB_DST k)), src := BitVec.ofNat 32 d.ownAddr,
                            ttl := 16, seq := BitVec.ofNat 16 d.fab.seq, crcOk := true,
                            payload := bytesLE 1 k ++ [0] ++ bytesLE 2 ps ++ wordBytes ws }
      let d := d.updFab (fun b => { b with pseq := Store.set (fun _ => 0) b.pseq k ps, seq := (b.seq + 1) % 65536 })
      match d.destOf f.dst.toNat with
      | .here => d.publishHere f
      | .drop => d.fabDrop
      | .dev n => d.sendRouted n f
    else d.setF R.FAB_STAT_CFGERR
  else d

/-- SUB entry `k` at a multiple of its period (R379). -/
def Dev.subAgeTick (k : Nat) (d : Dev) : Dev :=
  if d.time.toNat % perNs (d.get (R.SUB_CTRL_PER k)) == 0 then
    d.subUse k (fun d =>
      let s := d.subSt k
      let age := if s.got then 0 else if s.age == 0xFF then 0xFF else min 0xFE (s.age + 1)
      d.setSub k { s with age := age, got := false })
  else d

/-- SUB[k].CTRL: AGE is 0xFF from the enable of the entry. -/
def Dev.wrSubCtrl (k a : Nat) (w : Wr) (d : Dev) : Dev :=
  let was := d.flag (R.SUB_CTRL_EN k)
  let d := d.writePlain a w
  if !was && d.flag (R.SUB_CTRL_EN k) then d.subUse k (fun d => d.setSub k { stale := false, age := 0xFF, got := false }) else d

/-- GRP[j]: a change of the groups floods an LSA. -/
def Dev.wrGrp (a : Nat) (w : Wr) (d : Dev) : Dev :=
  let old := d.rd a
  let d := d.writePlain a w
  if d.rd a == old then d else d.floodLsa

/-! ## FAB_CFG and FAB_CMD -/

/-- Block lock: the link enters LOCK while it is enabled. -/
def Dev.fabBlockLock (l : Nat) (d : Dev) : Dev :=
  if d.flag R.FAB_CFG_EN && tst (d.get R.FAB_CFG_LINKEN) l && d.get (R.LINK_STAT_STATE l) == 0 then d.linkLock l else d

/-- The device leaves the fabric: FAB_CFG.EN is 0. -/
def Dev.fabLeave (d : Dev) : Dev :=
  let d := (List.range 4).foldl (fun d l => d.linkDown l) d
  let d := (((d.clrF R.FAB_STAT_VALID).put R.FAB_STAT_DEVNUM 0).clrF R.FAB_STAT_ROOT).setAddr
  let d := ((d.put R.ROOT_LO 0).put R.ROOT_HI 0).put R.TSYNC_STAT_PARENT 0xFF
  let d := d.clrF R.FAB_STAT_TLOCK
  ((d.updFab (fun b =>
    { (default : FabSt) with
      seq := b.seq, lseq := b.lseq, pseq := b.pseq, subs := b.subs, nPpb := b.nPpb, links := b.links })).setFab 0).reroute

/-- The device takes part in the fabric: it is its own root until it hears of a lower UID. -/
def Dev.fabEnter (d : Dev) : Dev :=
  let d := d.updFab (fun b => { b with root := d.uid, hops := 0, rootSince := d.time, epochAt := d.time, dead := none })
  let d := ((d.put R.ROOT_LO (d.uid)).put R.ROOT_HI (d.uid / 2 ^ 32)).setF R.FAB_STAT_ROOT
  (d.setFab 1).elect

/-- FAB_CFG. -/
def Dev.wrFabCfg (a : Nat) (w : Wr) (d : Dev) : Dev :=
  let was := d.flag R.FAB_CFG_EN
  let d := d.writePlain a w
  let now := d.flag R.FAB_CFG_EN
  let d := if was && !now then d.fabLeave else if !was && now then d.fabEnter else d
  (List.range 4).foldl (fun d l =>
    if tst (d.get R.FAB_CFG_LINKEN) l then (if (d.link l).lock then d.fabBlockLock l else d) else d.linkDown l) d

/-- FAB_CMD. -/
def Dev.wrFabCmd (w : Wr) (d : Dev) : Dev :=
  let d := if w.does R.FAB_CMD_CNT_CLR then
      (List.range 4).foldl (fun d l => d.put (R.LINK_CRC l) 0) (d.put R.FAB_DROP 0)
    else d
  if w.does R.FAB_CMD_REJOIN then d.rejoin else d

/-! ## Time synchronization (R381, R382) -/

/-- TSYNC_REQ on the parent link. -/
def Dev.tsyncRequest (d : Dev) : Dev :=
  let p := d.get R.TSYNC_STAT_PARENT
  if d.get R.FAB_STAT_STATE == 3 && !d.flag R.FAB_STAT_ROOT && d.get R.PAIR_STAT_ROLE != 2 && p < 4 && d.fabLinkUp p
      && tst (d.get (R.LINK_CAP p)) 1 then
    (d.sendFab p 5 0 1 (bytesLE 8 d.time.toNat)).updFab (fun b => { b with t1 := some d.time })
  else d

/-- A TSYNC_REQ is answered; t2 and t3 are the moments of receipt and of the answer. -/
def Dev.tsyncAnswer (l : Nat) (f : FabFrame) (d : Dev) : Dev :=
  if tst (d.get (R.LINK_CAP l)) 1 then
    d.sendFab l 6 0 1 (f.payload.take 8 ++ bytesLE 8 d.time.toNat ++ bytesLE 8 d.time.toNat)
  else d.fabDrop

/-- The rate correction that the n-th exchange chooses: the spec gives its limit and not its law (R381). A free value
within ±100,000. -/
def freePpb (n : Nat) : Int := clampI (-100000) 100000 (sx 32 (Config.freeValue (65536 + n)).toNat)

/-- The step conditions of R381. -/
def Dev.mayStep (d : Dev) : Bool :=
  d.flag R.FAB_CFG_STEPEN && d.get R.SCAN_STAT_STATE == 0
    && (List.range 4).all (fun x => d.get (R.RING_STAT_STATE x) == 0 || d.get (R.RING_STAT_STATE x) == 7)

/-- A TSYNC_RSP to the request in flight gives offset and delay. -/
def Dev.tsyncTake (f : FabFrame) (d : Dev) : Dev :=
  match d.fab.t1 with
  | none => d
  | some t =>
    if leAt f.payload 0 8 == t.toNat && d.get R.FAB_STAT_STATE == 3 && !d.flag R.FAB_STAT_ROOT then
      let t1 : Int := t.toNat
      let t2 : Int := leAt f.payload 8 8
      let t3 : Int := leAt f.payload 16 8
      let t4 : Int := d.time.toNat
      let ofs := ((t2 - t1) - (t4 - t3)).tdiv 2
      let small := ofs.natAbs ≤ 50
      let n := if small then min 16 (d.fab.exch + 1) else 0
      let d := (d.putS R.TSYNC_OFS (sat32 ofs)).updFab (fun b =>
        { b with t1 := none, exch := n, exchAt := d.time, delay := ((t4 - t1) - (t3 - t2)).tdiv 2, nPpb := b.nPpb + 1 })
      let d := d.put R.FAB_STAT_TLOCK (if small then (if n == 16 then 1 else d.get R.FAB_STAT_TLOCK) else 0)
      let d := d.tbUpdate
      if 10000 < ofs.natAbs && d.mayStep then d.stepTime (BitVec.ofInt 64 (t4 + ofs))
      else d.putS R.TB_ADJ (freePpb d.fab.nPpb)
    else d

/-- 10 ms pass without an exchange. -/
def Dev.tlockTimeout (d : Dev) : Dev :=
  if d.flag R.FAB_STAT_TLOCK && 10000000 ≤ (d.time - d.fab.exchAt).toNat then
    ((d.clrF R.FAB_STAT_TLOCK).updFab (fun b => { b with exch := 0 })).tbUpdate
  else d

/-! ## Timers of the election -/

/-- The root has been unchanged for 1 ms. -/
def Dev.electionSettled (d : Dev) : Dev :=
  if d.get R.FAB_STAT_STATE == 1 && 1000000 ≤ (d.time - d.fab.rootSince).toNat then
    (d.setFab 2).updFab (fun b => { b with joinAt := d.time })
  else d

/-- The root increments EPOCH every 1 ms. -/
def Dev.epochTick (d : Dev) : Dev :=
  if d.flag R.FAB_STAT_ROOT && d.get R.FAB_STAT_STATE != 0 then
    d.updFab (fun b => { b with epoch := (b.epoch + 1) % 65536, epochAt := d.time })
  else d

/-- No increase of the root's EPOCH for 3 ms. -/
def Dev.rootTimeout (d : Dev) : Dev :=
  if !d.flag R.FAB_STAT_ROOT && d.get R.FAB_STAT_STATE != 0 && 3000000 ≤ (d.time - d.fab.epochAt).toNat then
    (d.updFab (fun b => { b with dead := some (b.root, b.epoch) })).elect
  else d

/-- A device in JOIN that is not root sends JOIN to its parent. -/
def Dev.joinSend (d : Dev) : Dev :=
  let p := d.get R.TSYNC_STAT_PARENT
  if d.get R.FAB_STAT_STATE == 2 && !d.flag R.FAB_STAT_ROOT && p < 4 then d.sendFab p 2 0 16 d.joinBytes else d

/-- Three HELLO intervals without a good HELLO. -/
def Dev.helloTimeout (l : Nat) (d : Dev) : Dev :=
  if d.get (R.LINK_STAT_STATE l) != 0 && 300000 ≤ (d.time - (d.link l).lastHello).toNat then d.linkDown l else d

/-- Loss of block lock. -/
def Dev.fabLinkLoss (l : Nat) (d : Dev) : Dev := (d.updLink l (fun k => { k with lock := false })).linkDown l

/-- Every authenticated link repeats R494 (R495). -/
def Dev.fabReauth (d : Dev) : Dev :=
  (List.range 4).foldl (fun d l => if (d.link l).auth then d.linkLock l else d) d

end Sys2Proof.Machine
end

