-- ==== Sys2Proof/Machine/Pair.lean ====
section
/-! DEFINITION. The redundant pair (16_pair_redundancy.md): roles (R384 to R387), the link and its authentication (R391,
R494), failure and takeover (R400 to R404), the planned switchover (R407) and double faults (R408). -/

namespace Sys2Proof.Machine

/-- Change what the pair unit holds. -/
def Dev.updPair (d : Dev) (f : PairSt → PairSt) : Dev := { d with pair := f d.pair }

/-! ## Roles -/

/-- ROLE takes a value: 0 NONE, 1 ACTIVE, 2 STANDBY. A standby's CAN channels run in listen-only, at once where no own
frame is on the bus; the timebase source and the LSA follow. -/
def Dev.setRole (n : Nat) (d : Dev) : Dev :=
  let d := d.put R.PAIR_STAT_ROLE n
  let d := if n == 2 then
      upTo 8 (fun c d => if (d.canSt c).onBus.isNone then (d.setF (R.CAN_STAT_LOMF c)).canRefresh c else d) d
    else d
  d.tbUpdate.floodLsa

/-- SYNC becomes UNSYNCED with its CAUSE; no stream flows, no commit, check or swap waits for the partner, and a full load
from it has ended. -/
def Dev.unsync (cause : Nat) (d : Dev) : Dev :=
  if d.get R.PAIR_STAT_SYNC == 0 then d
  else
    let d := ((d.put R.PAIR_STAT_SYNC 0).put R.PAIR_STAT_CAUSE cause).updPair (fun p =>
      { p with unsent := false, late := none, lines := [], mwOut := [], mwIn := [], stage := [], copied := false })
    ({ d with prog := { d.prog with fullLoad := false } }).checkGoOn.markNow

/-- The scan is in STOP, without a commit: a standby runs none (R386). -/
def Dev.scanOff (d : Dev) : Dev :=
  let d := (List.finRange 16).foldl (fun d t => d.overrunTile t) d
  (d.setScan 0).updScan (fun s => { s with stopPend := false })

/-- The member becomes STANDBY and UNSYNCED out of its work (Table 16.5, R384): outputs off, CAN listen-only, no further
master frame, no scan. -/
def Dev.demote (d : Dev) : Dev :=
  let d := (d.setF R.FIO_STAT_SBY).fioAllOff.scanOff
  let d := upTo 4 (fun x d => if d.rIdle x then d else d.ringEnd x 0) d
  let d := (d.put R.PAIR_STAT_SYNC 0).updPair (fun p =>
    { p with unsent := false, late := none, lines := [], hold := false, switch := false, hand := none, mwOut := [] })
  (d.setRole 2).checkGoOn.markNow

/-- The member works alone (R384). -/
def Dev.leavePair (d : Dev) : Dev :=
  let d := ((d.clrF R.FIO_STAT_SBY).put R.PAIR_STAT_SYNC 0).updPair (fun p =>
    { PairSt.zero with nonce := p.nonce, pactAt := p.pactAt })
  d.setRole 0

/-- The pair record's LEN-2 payload (R385). -/
def Dev.storePairCfg (d : Dev) : Dev :=
  let v := d.rd R.PAIR_CFG.addr &&& 0xEFFFFFFF
  d.recUpdate 0x700300 [BitVec.ofNat 16 v.toNat, BitVec.ofNat 16 (v.toNat / 65536)]

/-- PAIR_CFG (R385). EN makes the member a standby, and its end lets it work alone (R384). -/
def Dev.wrPairCfg (a : Nat) (fs : List FieldRow) (w : Wr) (d : Dev) : Dev :=
  let was := d.flag R.PAIR_CFG_EN
  let d := d.writeFields a w fs
  let now := d.flag R.PAIR_CFG_EN
  let d := if now && !was then d.demote else if was && !now then d.leavePair else d
  if w.does R.PAIR_CFG_STORE then d.storePairCfg else d

/-- The pair configuration is loaded from its record in boot step 6; a loaded SIDE counts as written (R385). -/
def Dev.loadPairCfg (d : Dev) : Dev :=
  let rec_ := d.recRead 0x700300 2
  let d := d.recMark 0x700300 2
  match rec_ with
  | none => d
  | some ws =>
    let v := BitVec.ofNat 32 (ofWords ws) &&& 0xE000FF03
    let d := d.wrReg R.PAIR_CFG.addr v
    let d := d.updTm (fun t => { t with rw1 := insNat (32 * R.PAIR_CFG_SIDE.addr + R.PAIR_CFG_SIDE.lo) t.rw1 })
    if d.flag R.PAIR_CFG_EN then (d.setF R.FIO_STAT_SBY).setRole 2 else d

/-! ## The link -/

/-- The protection fuses require authentication of the pair link. -/
def Dev.pairAuth (d : Dev) : Bool := tst (d.rd R.PS_POL.addr).toNat 4

/-- Frames other than HEARTBEAT pass: a lane has block lock, and the link is authenticated where it must be (R391). -/
def Dev.streamOk (d : Dev) : Bool := d.get R.PAIR_STAT_ROLE != 0 && d.pairUp && (!d.pairAuth || d.pair.auth)

/-- Own mirror version (R406). -/
def mirrorVersion : Nat := 0x0100

/-- The partner's mirror version, 0 while unknown. -/
def Dev.partnerVer (d : Dev) : Nat := d.get R.MIR_VER_PARTNER

/-- The major versions are equal. -/
def Dev.verOk (d : Dev) : Bool := d.partnerVer / 256 == mirrorVersion / 256

/-- HEARTBEAT_SEND: a timebase value that is a whole multiple of 10,000 ns. -/
def Dev.heartbeatSend (d : Dev) : Dev :=
  if d.get R.PAIR_STAT_ROLE != 0 && d.pairUp && d.time.toNat % 10000 == 0 && !d.sys.fatal then
    let proof := if d.pairAuth then
        match d.pairKey, d.pair.pNonce with
        | some k, some n => authProof k d.uid d.pair.pUid n
        | _, _ => List.replicate 16 0
      else []
    d.emit (.pair 0x20 ([d.get R.PAIR_STAT_ROLE, d.get R.PAIR_STAT_SYNC, d.get R.PAIR_CFG_SIDE, mirrorVersion,
      d.get R.MIR_PT, d.get R.MIR_CYC] ++ (if d.pairAuth then [d.pair.nonce.toNat] else []) ++ proof.map (·.toNat)))
  else d

/-- PARTNER_ACT reads `v`. -/
def Dev.setPact (v : Bool) (d : Dev) : Dev :=
  if d.flag R.PAIR_STAT_PACT == v then d else (d.put R.PAIR_STAT_PACT (b2n v)).updPair (fun p => { p with pactAt := d.time })

/-- The nonce and proof of a heartbeat (R494). -/
def Dev.heartbeatAuth (h : Heartbeat) (d : Dev) : Dev :=
  if !d.pairAuth then d
  else
    let d := d.updPair (fun p => { p with pNonce := some h.nonce })
    if d.pair.auth || d.pair.denied then d
    else
      match d.pairKey with
      | none => (d.updPair (fun p => { p with denied := true })).raise 8
      | some k =>
        if h.proof == 0 then d
        else if bytesBE 16 h.proof.toNat == authProof k h.uid.toNat d.uid d.pair.nonce then d.updPair (fun p => { p with auth := true })
        else (d.updPair (fun p => { p with denied := true })).raise 8

/-- What the partner's ROLE and SYNC mean for own SYNC: another major version, a partner that was reset, a standby that
has lost its synchronization (R405, R406, Table 16.5). -/
def Dev.heartbeatSync (h : Heartbeat) (d : Dev) : Dev :=
  let role := d.get R.PAIR_STAT_ROLE
  let sync := d.get R.PAIR_STAT_SYNC
  if h.ver.toNat / 256 != mirrorVersion / 256 then (d.put R.PAIR_STAT_CAUSE 2).unsync 2
  else if d.pair.hand.isSome || d.pair.sbyTicks != 0 || sync == 0 then d
  else if role == 2 && h.role != 1 then d.unsync 5
  else if role == 1 && (h.role != 2 || (sync == 2 && h.sync == 0)) then d.unsync 5
  else d

/-- HEARTBEAT_RECEIVE. -/
def Dev.heartbeat (h : Heartbeat) (d : Dev) : Dev :=
  if d.get R.PAIR_STAT_ROLE != 0 && d.pairUp then
    let d := (d.setPact h.act).put R.MIR_VER_PARTNER h.ver.toNat
    let d := d.updPair (fun p => { p with
      pRole := h.role.val, pSync := h.sync.val, pUid := h.uid.toNat, hbAt := some d.time
      hbActAt := if h.role == 1 then some d.time else p.hbActAt })
    (d.heartbeatAuth h).heartbeatSync h
  else d

/-- PAIR_BLOCK_LOCK: a lane regains block lock and a fresh nonce is drawn. -/
def Dev.pairLock (lane : Nat) (d : Dev) : Dev :=
  let was := d.pairUp
  let (n, d) := d.drawNonce
  let d := if lane == 0 then d.setF R.PAIR_STAT_LANE0 else d.setF R.PAIR_STAT_LANE1
  let d := d.updPair (fun p => if was then { p with nonce := n } else { p with nonce := n, pNonce := none, auth := false, denied := false })
  d.tbUpdate

/-- PAIR_LANE_LOSS: event 8; with the last lane the link is down. -/
def Dev.pairLaneLoss (lane : Nat) (d : Dev) : Dev :=
  let f := if lane == 0 then R.PAIR_STAT_LANE0 else R.PAIR_STAT_LANE1
  if d.flag f then
    let d := (d.clrF f).raise 8
    if d.pairUp then d
    else
      let d := d.updPair (fun p => { p with pNonce := none, auth := false, denied := false, hbAt := none })
      ((d.unsync 1).updTm (fun t => { t with good := 0 })).tbUpdate
  else d

/-- An authenticated pair link repeats R494 (R495). -/
def Dev.pairReauth (d : Dev) : Dev :=
  if d.pair.auth then
    let (n, d) := d.drawNonce
    d.updPair (fun p => { p with nonce := n, auth := false, denied := false })
  else d

/-- PAIR_TIME_EXCHANGE: a TIME exchange of the standby (R391, computed as in R381), requested at `t1`. -/
def Dev.pairTime (t1 t2 t3 : BitVec 64) (d : Dev) : Dev :=
  if d.get R.PAIR_STAT_ROLE == 2 && d.streamOk then
    let t4 : Int := d.time.toNat
    let ofs := (((t2.toNat : Int) - t1.toNat) - (t4 - t3.toNat)).tdiv 2
    let small := ofs.natAbs ≤ 10
    let d := d.updTm (fun t => { t with good := if small then min 16 (t.good + 1) else 0 })
    let d := (d.updFab (fun b => { b with nPpb := b.nPpb + 1 })).tbUpdate
    if 10000 < ofs.natAbs && d.mayStep then d.stepTime (BitVec.ofInt 64 (t4 + ofs))
    else d.putS R.TB_ADJ (freePpb d.fab.nPpb)
  else d

/-! ## Failure (R400, R401) -/

/-- The partner has failed: a SYNCED standby fences it; any other standby raises event 8 alone; the active member
continues without it. -/
def Dev.partnerFailed (d : Dev) : Dev :=
  let sync := d.get R.PAIR_STAT_SYNC
  if d.get R.PAIR_STAT_ROLE == 2 then
    if sync == 2 then
      if d.pair.fencing then d
      else (d.updPair (fun p => { p with fenceAt := some d.time, fencing := true })).raise 8
    else (d.unsync 5).raise 8
  else if d.get R.PAIR_STAT_ROLE == 1 then d.unsync 5
  else d

/-- HEARTBEAT_MISS: three heartbeats in a row have not arrived 1 µs after their timebase values. -/
def Dev.heartbeatMiss (d : Dev) : Dev :=
  match d.pair.hbAt with
  | none => d
  | some t =>
    if d.pairUp && t.toNat / 10000 * 10000 + 31000 ≤ d.time.toNat then
      (d.updPair (fun p => { p with hbAt := none })).partnerFailed
    else d

/-- NOTICE_RECEIVE. -/
def Dev.noticeReceive (d : Dev) : Dev := if d.streamOk then d.partnerFailed else d

/-- PARTNER_ACT_LOW: low for 2 µs. -/
def Dev.partnerActLow (d : Dev) : Dev :=
  let d := d.setPact false
  if d.get R.PAIR_STAT_ROLE == 2 && d.pair.pRole == 1 && d.pair.hand.isNone then d.partnerFailed else d

/-- MASTER_FRAME_ABSENT: on a ring of the partner that passes the standby, no master frame by t_n + D_s + 1 µs, and no
heartbeat in the preceding 10 µs. -/
def Dev.masterAbsent (x : Nat) (d : Dev) : Dev :=
  let t := d.time.toNat / d.ringT x * d.ringT x
  let quiet := match d.pair.hbAt with
    | some h => decide (h.toNat + 10000 ≤ d.time.toNat)
    | none => true
  if d.get R.PAIR_STAT_ROLE == 2 && Store.get (fun _ => 0) d.pair.pRings x / 2 == 5 && quiet
      && t + (d.ring x).standbyDs + 1000 ≤ d.time.toNat && (d.ring x).mfAt.toNat < t then d.partnerFailed
  else d

/-- FENCE_TIMEOUT: PARTNER_ACT has not read low for 1 µs within 10 µs of the fence. -/
def Dev.fenceTimeout (d : Dev) : Dev :=
  match d.pair.fenceAt with
  | some t =>
    if d.pair.fencing && t.toNat + 10000 ≤ d.time.toNat then
      ((d.setF R.PAIR_STAT_FENCE_FAIL).unsync 4).updPair (fun p => { p with fencing := false })
    else d
  | none => d

/-- FENCE_RELEASE: PARTNER_RST_N is released 100 µs after it was driven low. -/
def Dev.fenceRelease (d : Dev) : Dev :=
  match d.pair.fenceAt with
  | some t => if t.toNat + 100000 ≤ d.time.toNat then d.updPair (fun p => { p with fenceAt := none }) else d
  | none => d

/-! ## Becoming active (R387, R402, R407) -/

/-- Ages of every node of ring `x` grow by one, as for a lost cycle. -/
def Dev.ageNodes (x : Nat) (d : Dev) : Dev :=
  upTo (d.get (R.RING_CFG_NNODE x)) (fun k d =>
    (d.ageNode x k).ringGroupI x k) d

/-- A cycle of ring `x` after the last complete record: its samples are hold samples (R402 step 4). -/
def Dev.lostCycle (x t : Nat) (d : Dev) : Dev :=
  let d := (d.muleBoundary t).ageNodes x
  (upTo (d.get (R.RING_CFG_NNODE x)) (fun k d => d.nodeSamples x k t) d).flushMev

/-- Ring `x`, which the partner ran in RUN, runs here: RUN at once, with cycle starts from `from_` on. -/
def Dev.adoptRing (x from_ : Nat) (d : Dev) : Dev :=
  let T := d.ringT x
  let last := Store.get (fun _ => 0) d.pair.recAt x - 1
  let d := (d.setRing x 5).updRing x (fun s => { s with
    t := BitVec.ofNat 64 last, startAt := BitVec.ofNat 64 from_, toRun := false, stopAsked := false, stopLeft := 0, mfMiss := 0
    dead := 0, req := none, nnodeI := d.get (R.RING_CFG_NNODE x), cpt := (List.range 8).map (fun p => d.rd (R.RING_CPT x p).addr)
    accepted := [], accOut := [], closed := (List.range 32), slip := false, points := List.range 8, mfGone := false, mfBack := true
    late := [], prevT := 0 })
  let d := d.put (R.RING_CYC x) (last / T)
  upTo ((d.time.toNat - last) / T) (fun i d => d.lostCycle x (last + (i + 1) * T)) d

/-- A takeover runs the ring healed with j = N − 1 (R290): PHASE 0b10 is entered, with event 6 (R291). -/
def Dev.healTakeover (x : Nat) (d : Dev) : Dev :=
  let d := (d.setF (R.RING_STAT_HEALED x)).put (R.RING_HEAL_STAT_PHASE x) 2
  let d := d.updRing x (fun s => { s with tko := true, linkIn := false, lower := 0, clean := 0, nOut := none, healNow := false })
  let d := (d.put (R.RING_HEAL_STAT_IN_UP x) 0).setJlast x (d.get (R.RING_CFG_NNODE x) - 1)
  (d.updRing x (fun s => { s with outOpen := true, delta := d.getS (R.RING_HEAL_DELTA x) })).raise 6

/-- The rings that the partner ran in RUN. -/
def Dev.partnerRings (d : Dev) : List Nat := (List.range 4).filter (fun x => Store.get (fun _ => 0) d.pair.pRings x / 2 == 5)

/-- The committed image of the last ended point, with the Q forces (R402 step 5). -/
def Dev.imageTakeover (d : Dev) : Dev :=
  let (fs, d) := d.readForces true
  let d := (fs.foldl (fun d f => d.forceQ f) d).updScan (fun s => { s with dirtyAll := true })
  (d.copyQ d.scan.qShadow (!d.scan.qShadow)).updScan (fun s => { s with dirty := [], dirtyAll := false })

/-- The scan enters SNAP on the mirrored state (R402 step 7). -/
def Dev.snapTakeover (d : Dev) : Dev :=
  let d := d.put R.SCAN_STAT_COLD (b2n d.pair.cold)
  let d := d.updScan (fun s => { s with
    pmap := (List.range 13).map (fun k => d.rd (R.PMAP k).addr), takeover := true, first := false, mustCold := false
    resetSince := false, stopPend := false })
  (upTo 8 (fun c d => d.canFill c) d).enterSnap

/-- TAKEOVER: PARTNER_ACT has read low for 1 µs within 10 µs of the fence (R401, R402). -/
def Dev.takeover (d : Dev) : Dev :=
  match d.pair.fenceAt with
  | some t =>
    if d.pair.fencing && d.get R.PAIR_STAT_ROLE == 2 && d.get R.PAIR_STAT_SYNC == 2 && d.time.toNat ≤ t.toNat + 10000 then
      let xs := d.partnerRings
      let d := (d.setPact false).updPair (fun p => { p with
        fencing := false, stage := [], mwIn := [], mwOut := [], hand := none, lines := [], unsent := false, sbyTicks := 0 })
      let d := ((d.put R.PAIR_STAT_SYNC 0).put R.PAIR_STAT_CAUSE 5).satAdd R.TKO_CNT_TAKE 1
      let d := (d.put R.PAIR_STAT_ROLE 1).tbUpdate
      let d := xs.foldl (fun d x => (d.adoptRing x (d.time.toNat + 2000)).healTakeover x) d
      ((d.imageTakeover.clrF R.FIO_STAT_SBY).snapTakeover).setRole 1
    else d
  | none => d

/-- GO_ACTIVE (R387): the first scan after it shows TAKEOVER (R145). -/
def Dev.goActive (d : Dev) : Dev :=
  let silent := match d.pair.hbActAt with
    | some t => decide (t.toNat + 1000000 ≤ d.time.toNat)
    | none => true
  if d.get R.PAIR_STAT_ROLE == 2 && !d.flag R.PAIR_STAT_PACT && d.pair.pactAt.toNat + 1000000 ≤ d.time.toNat && silent then
    ((d.clrF R.FIO_STAT_SBY).updScan (fun s => { s with takeover := true })).setRole 1
  else d.setF R.PAIR_STAT_DENY

/-- SWITCH (R407). -/
def Dev.switchGo (d : Dev) : Dev :=
  if d.get R.PAIR_STAT_ROLE == 1 && d.get R.PAIR_STAT_SYNC == 2 && !d.pair.switch then
    (d.updPair (fun p => { p with hold := true, switch := true, hand := none, handAck := false })).switchPoint
  else d.setF R.PAIR_STAT_DENY

/-- PAIR_CTRL. -/
def Dev.wrPairCtrl (w : Wr) (d : Dev) : Dev :=
  let d := if w.does R.PAIR_CTRL_SWITCH then d.switchGo else d
  if w.does R.PAIR_CTRL_GO_ACTIVE then d.goActive else d

/-- SWITCHOVER_ACK_TIMEOUT: no ACK before t_h − 5 µs (R407 step 3). -/
def Dev.switchTimeout (d : Dev) : Dev :=
  match d.pair.hand with
  | some (_, t) =>
    if d.pair.switch && !d.pair.handAck && t ≤ d.time.toNat + 5000 then
      (d.setF R.PAIR_STAT_DENY).updPair (fun p => { p with hold := false, switch := false, hand := none })
    else d
  | none => d

/-- The old active member becomes STANDBY and SYNCED: its Mule goes on in step, its ports stop (R407 steps 4, 6 to 8). -/
def Dev.handOver (d : Dev) : Dev :=
  let xs := (List.range 4).filter d.ringRuns
  let d := xs.foldl (fun d x =>
    let r := 10 + d.get (R.RING_STAT_HEALED x)
    ((d.svcEnd x).setRing x 0).updPair (fun p => { p with
      pRings := Store.set (fun _ => 0) p.pRings x r
      recAt := Store.set (fun _ => 0) p.recAt x ((d.ring x).t.toNat + 1) })) d
  let d := (d.satAdd R.TKO_CNT_PLAN 1).updPair (fun p => { p with
    hold := false, switch := false, hand := none, sbyTicks := 2, lines := [], unsent := false, mwOut := [], pRole := 1
    cold := d.flag R.SCAN_STAT_COLD })
  (d.setScan 0).setRole 2

/-- The new active member (R407 steps 4 to 6). -/
def Dev.takeOver (t : Nat) (d : Dev) : Dev :=
  let xs := d.partnerRings
  let d := (d.satAdd R.TKO_CNT_PLAN 1).updPair (fun p => { p with hand := none, stage := [], mwIn := [], pRole := 2, pSync := 2 })
  let d := (d.put R.PAIR_STAT_ROLE 1).tbUpdate
  let d := xs.foldl (fun d x =>
    let healed := Store.get (fun _ => 0) d.pair.pRings x % 2
    let d := (d.adoptRing x t).put (R.RING_STAT_HEALED x) healed
    d.updRing x (fun s => { s with inDisp := s.standbyDs + 200 })) d
  ((d.imageTakeover.clrF R.FIO_STAT_SBY).snapTakeover).setRole 1

/-- SWITCHOVER_HANDOFF: ACTIVE goes low at t_h − 3 µs on the old active member, and high at t_h − 1 µs on the new one. -/
def Dev.switchHandoff (d : Dev) : Dev :=
  match d.pair.hand with
  | some (_, t) =>
    if d.get R.PAIR_STAT_ROLE == 1 && d.pair.switch && d.pair.handAck && t ≤ d.time.toNat + 3000 then d.handOver
    else if d.get R.PAIR_STAT_ROLE == 2 && t ≤ d.time.toNat + 1000 then d.takeOver t
    else d
  | none => d

/-- DUAL_ACTIVE: PARTNER_ACT high for 5 µs while active, outside a switchover (Table 16.5). -/
def Dev.dualActive (d : Dev) : Dev :=
  let d := d.setPact true
  if d.get R.PAIR_STAT_ROLE == 1 && d.pair.hand.isNone then
    let d := (d.setF R.PAIR_STAT_DUAL).raise 8
    if d.flag R.PAIR_CFG_SIDE then d.demote else d
  else d

/-- MIRROR_POINT_TIMER: in STOP under ASYNC_COMMIT, a whole multiple of MPER × T (R395). -/
def Dev.mirrorTimer (d : Dev) : Dev :=
  if d.get R.PAIR_STAT_ROLE == 1 && !d.flag R.PAIR_CFG_POLICY && d.get R.SCAN_STAT_STATE == 0
      && d.time.toNat % d.mirrorNs == 0 && d.pair.lastEnd != d.time.toNat then
    (d.closePoint true none).updPair (fun p => { p with lastEnd := d.time.toNat })
  else d

/-- ACK_RECEIVE (R397): the point is acknowledged; a point that waited for it closes (R399). -/
def Dev.ackReceive (n : Nat) (d : Dev) : Dev :=
  if d.streamOk && d.get R.PAIR_STAT_ROLE == 1 && n == d.pair.point then
    let d := (d.put R.MIR_PT n).updPair (fun p => { p with
      unsent := false, copied := true, handAck := p.handAck || (match p.hand with
        | some (k, _) => k == n
        | none => false) })
    let d := match d.pair.late with
      | some image => d.closePoint image none
      | none => d
    d.markNow.switchPoint
  else d

end Sys2Proof.Machine
end

