-- ==== Sys2Proof/Machine/Keys.lean ====
section
/-! DEFINITION. The fuses and the key engine (21_keys_lifecycle.md): fuse fields and banks (R488), the lifecycle word
(R484, R485), the protection fuse set (R496, R498), what the registers show of them, the commands that start a burn
(R486, R490, R498), and debug (R495, R497). -/

namespace Sys2Proof.Machine

/-! ## Fuse fields (R488). A fuse, once burnt, stays burnt: burning only sets bits. -/

/-- Burn the bits of `g` into field `f`. -/
def FuseField.burn (f g : FuseField) : FuseField :=
  { prog := f.prog || g.prog, done := f.done || g.done, value := f.value ||| g.value, attr := f.attr ||| g.attr,
    crc := f.crc ||| g.crc }

/-- A field burnt to all ones. -/
def FuseField.ones : FuseField :=
  { prog := true, done := true, value := BitVec.allOnes 256, attr := BitVec.allOnes 8, crc := BitVec.allOnes 16 }

/-- The CRC of a value of `n` bytes and of what follows it. The spec gives no byte order: little-endian, log entry 40. -/
def fuseCrc (n : Nat) (v : BitVec 256) (tail : List (BitVec 8)) : BitVec 16 :=
  BitVec.ofNat 16 (crc16 (bytesLE n v.toNat ++ tail))

/-- The kinds of field: a root, a key slot, a copy of the protection set. -/
inductive FuseKind where
  | root | slot | prot
deriving DecidableEq, Repr, Inhabited

/-- The CRC that a field of a kind carries. -/
def FuseKind.crc (k : FuseKind) (v : BitVec 256) (attr : BitVec 8) : BitVec 16 :=
  match k with
  | .root => fuseCrc 32 v []
  | .slot => fuseCrc 32 v [attr]
  | .prot => fuseCrc 12 v []

/-- A field is valid. -/
def FuseField.valid (k : FuseKind) (f : FuseField) : Bool := f.prog && f.done && f.crc == k.crc f.value f.attr

/-- Program a field. -/
def FuseField.program (k : FuseKind) (v : BitVec 256) (attr : BitVec 8) (f : FuseField) : FuseField :=
  f.burn { prog := true, done := true, value := v, attr := attr, crc := k.crc v attr }

/-- The programming of a field is cut short: PROG is burnt, DONE is not. -/
def FuseField.cut (f : FuseField) : FuseField := f.burn { FuseField.empty with prog := true }

/-! ## Banks -/

/-- Key slot `i`. -/
def Bank.slot (b : Bank) (i : Nat) : FuseField := Store.get (fun _ => FuseField.empty) b.slots i

/-- Replace key slot `i`. -/
def Bank.setSlot (i : Nat) (f : FuseField) (b : Bank) : Bank :=
  { b with slots := Store.set (fun _ => FuseField.empty) b.slots i f }

/-- A bank burnt to all ones. -/
def Bank.ones : Bank :=
  { rootA := FuseField.ones, rootB := FuseField.ones, slots := (List.range 32).map (fun i => (i, FuseField.ones)) }

/-- The root field in use, A before B, and its value (R489). -/
def Bank.root (b : Bank) : Option (Nat × BitVec 256) :=
  if b.rootA.valid .root then some (0, b.rootA.value)
  else if b.rootB.valid .root then some (1, b.rootB.value)
  else none

/-- The key input of attribute bit `k`: the lowest valid slot that carries it (Table 21.3). -/
def Bank.keyIn (b : Bank) (k : Nat) : KeyIn :=
  match (List.range 32).find? (fun i => (b.slot i).valid .slot && tst (b.slot i).attr.toNat k) with
  | some i => .val (b.slot i).value
  | none => .absent

/-- What KS_STATE shows of a slot. -/
def slotCode (f : FuseField) : Nat :=
  if !f.prog then 0 else if f == FuseField.ones then 3 else if f.valid .slot then 1 else 2

/-! ## The lifecycle (Table 21.1, R485) -/

/-- CODE of a state. -/
def lcCode (t : Nat) : BitVec 16 :=
  match t with
  | 0 => 0x0000
  | 1 => 0x0A50
  | 2 => 0x0A5C
  | _ => 0xFFFF

/-- The decoded state: the first whose CODE includes every burnt bit. -/
def lcState (w : BitVec 16) : Nat :=
  if w == 0 then 0 else if w &&& ~~~(lcCode 1) == 0 then 1 else if w &&& ~~~(lcCode 2) == 0 then 2 else 3

/-- Burn lifecycle bits. -/
def Fuses.burnLc (w : BitVec 16) (f : Fuses) : Fuses := { f with lc := f.lc ||| w }

/-- Burn every bank of every state below `t` to all ones (R487). -/
def Fuses.burnBanks (t : Nat) (f : Fuses) : Fuses :=
  { f with openB := if 1 < t then Bank.ones else f.openB, sealedB := if 2 < t then Bank.ones else f.sealedB }

/-- The live bank of a state. -/
def Fuses.bank (f : Fuses) (state : Nat) : Option Bank :=
  match state with
  | 1 => some f.openB
  | 2 => some f.sealedB
  | _ => none

/-- Replace the live bank of a state. -/
def Fuses.setBank (state : Nat) (b : Bank) (f : Fuses) : Fuses :=
  match state with
  | 1 => { f with openB := b }
  | 2 => { f with sealedB := b }
  | _ => f

/-! ## The protection fuse set (R496, R498) -/

/-- PS_POL.COPY. -/
def Fuses.copyCode (f : Fuses) : Nat :=
  if !f.protA.prog then 0
  else if f.protA.valid .prot then 1
  else if !f.protB.prog then 2
  else if f.protB.valid .prot then 3
  else 7

/-- The decoded set: PS_HREG, PS_CMDA and the policy bits of PS_POL. Unprogrammed it permits everything; while no copy is
valid it permits almost nothing. -/
def Fuses.protSet (f : Fuses) : Nat × Nat × Nat :=
  let of (v : BitVec 256) : Nat × Nat × Nat :=
    ((v.toNat % 0x10000) ||| 1, (v.toNat / 2 ^ 32 % 0x4000) ||| 1, (v.toNat / 2 ^ 64) &&& 0x33)
  match f.copyCode with
  | 0 => (0xFFFF, 0x3FFF, 0)
  | 1 => of f.protA.value
  | 3 => of f.protB.value
  | _ => (0x0001, 0x2001, 0x32)

/-- Burn a value into the copy that COPY names (R498). -/
def Fuses.burnProt (v : BitVec 256) (f : Fuses) : Fuses :=
  if f.copyCode == 0 then { f with protA := f.protA.program .prot v 0 } else { f with protB := f.protB.program .prot v 0 }

/-- A burn of the protection set is cut short. -/
def Fuses.cutProt (f : Fuses) : Fuses :=
  if f.copyCode == 0 then { f with protA := f.protA.cut } else { f with protB := f.protB.cut }

/-! ## What the registers show -/

/-- KS_STATE[k] of a bank; without a live bank all ones. -/
def ksState (b : Option Bank) (k : Nat) : BitVec 32 :=
  match b with
  | none => 0xFFFFFFFF
  | some b => BitVec.ofNat 32 ((List.range 16).foldl (fun n i => n + slotCode (b.slot (16 * k + i)) * 4 ^ i) 0)

/-- KS_STATE and KS_ATTR. Without a live bank KS_ATTR reads 0: the spec gives it no value there, log entry 41. -/
def Dev.showSlots (b : Option Bank) (d : Dev) : Dev :=
  let d := upTo 2 (fun k d => d.wrReg (R.KS_STATE k).addr (ksState b k)) d
  upTo 32 (fun j d => d.wrReg (R.KS_ATTR j).addr
    (match b with
      | none => 0
      | some b => (b.slot j).attr.setWidth 32 &&& 7)) d

/-- PS_HREG, PS_CMDA and PS_POL at a start. -/
def Dev.showProt (f : Fuses) (d : Dev) : Dev :=
  let p := f.protSet
  ((d.wrReg R.PS_HREG.addr (BitVec.ofNat 32 p.1)).wrReg R.PS_CMDA.addr (BitVec.ofNat 32 p.2.1)).wrReg R.PS_POL.addr
    (BitVec.ofNat 32 (p.2.2 + f.copyCode * 2 ^ 29))

/-- The value of the protection staging registers. -/
def Dev.protStaged (d : Dev) : BitVec 256 :=
  BitVec.ofNat 256 ((d.rd R.PS_SHREG.addr).toNat % 0x10000 + (d.rd R.PS_SCMDA.addr).toNat % 0x4000 * 2 ^ 32
    + ((d.rd R.PS_SPOL.addr).toNat &&& 0x33) * 2 ^ 64)

/-- PS_POL.COPY. -/
def Dev.protCopy (d : Dev) : Nat := (d.rd R.PS_POL.addr).toNat / 2 ^ 29

/-! ## Commands -/

/-- Change what the key engine holds. -/
def Dev.updKey (d : Dev) (f : KeySt → KeySt) : Dev := { d with key := f d.key }

/-- A command is refused. -/
def Dev.keyRefuse (d : Dev) : Dev := (d.setF R.KE_STAT_DENY).put R.KE_STAT_RESULT 1

/-- A burn starts. -/
def Dev.keyBusy (op : BurnOp) (d : Dev) : Dev := (d.setF R.KE_STAT_BUSY).updKey (fun k => { k with op := some op })

/-- A burn has ended. -/
def Dev.keyDone (d : Dev) : Dev :=
  ((d.clrF R.KE_STAT_BUSY).put R.KE_STAT_RESULT 0).updKey (fun k => { k with op := none })

/-- LC_CMD (R486). -/
def Dev.wrLcCmd (w : Wr) (d : Dev) : Dev :=
  if w.wo && w.covers 31 16 && w.covers 1 0 && R.LC_CMD_KEY.of w.val == 0x4C43 then
    let t := R.LC_CMD_TARGET.of w.val
    if t ≤ d.get R.LC_STAT_STATE || d.flag R.SETUP_LOCK_LOCK || d.flag R.LC_STAT_PEND || d.flag R.KE_STAT_BUSY
        || (t == 2 && d.protCopy != 1 && d.protCopy != 3) then d.keyRefuse
    else d.keyBusy (.lc t)
  else d

/-- KS_DATA is zeroed. -/
def Dev.ksZero (d : Dev) : Dev := upTo 8 (fun k d => d.put (R.KS_DATA k) 0) d

/-- The value in KS_DATA. -/
def Dev.ksValue (d : Dev) : BitVec 256 :=
  BitVec.ofNat 256 ((List.range 8).foldl (fun n k => n + d.get (R.KS_DATA k) * 2 ^ (32 * k)) 0)

/-- What KS_STATE shows of slot `i`. -/
def Dev.slotShown (d : Dev) (i : Nat) : Nat := (d.rd (R.KS_STATE (i / 16)).addr).toNat / 4 ^ (i % 16) % 4

/-- KS_PROG (R490). -/
def Dev.wrKsProg (w : Wr) (d : Dev) : Dev :=
  if w.wo && w.covers 31 16 && w.covers 10 8 && w.covers 4 0 && R.KS_PROG_KEY.of w.val == 0x4B53 then
    let i := R.KS_PROG_SLOT.of w.val
    let st := d.get R.LC_STAT_STATE
    if !(st == 1 || st == 2) || d.slotShown i != 0 || d.flag R.SETUP_LOCK_LOCK || d.flag R.LC_STAT_PEND
        || d.flag R.KE_STAT_BUSY then d.ksZero.keyRefuse
    else d.keyBusy (.slot i (BitVec.ofNat 8 (R.KS_PROG_ATTR.of w.val)) d.ksValue)
  else d

/-- PS_BURN (R498). -/
def Dev.wrPsBurn (w : Wr) (d : Dev) : Dev :=
  if w.wo && w.covers 31 16 && R.PS_BURN_KEY.of w.val == 0x5053 then
    if 2 ≤ d.get R.LC_STAT_STATE || !(d.protCopy == 0 || d.protCopy == 2) || d.flag R.SETUP_LOCK_LOCK
        || d.flag R.KE_STAT_BUSY then d.keyRefuse
    else d.keyBusy (.prot d.protStaged)
  else d

/-- A read of KS_STATE[k] shows RESULT 0x02 for a slot that a reset left DAMAGED (R490). -/
def Dev.ksRead (k : Nat) (d : Dev) : Dev :=
  match d.key.damaged with
  | some i => if i / 16 == k then (d.put R.KE_STAT_RESULT 2).updKey (fun s => { s with damaged := none }) else d
  | none => d

/-- LC_BURN_DONE (R487). The keys in use and the state shown stay until the next reset. -/
def State.lcBurnDone (s : State) : State :=
  match s.dev.key.op with
  | some (.lc t) =>
    let f := (s.fuses.burnLc (lcCode t)).burnBanks t
    let st := s.dev.get R.LC_STAT_STATE
    { s with
      fuses := f
      dev := (((s.dev.keyDone.setF R.LC_STAT_PEND).put R.LC_STAT_CODE f.lc.toNat).showSlots (f.bank st)) }
  | _ => s

/-- KS_PROG_DONE (R488, R490). -/
def State.ksProgDone (s : State) : State :=
  match s.dev.key.op with
  | some (.slot i attr v) =>
    let st := s.dev.get R.LC_STAT_STATE
    match s.fuses.bank st with
    | some b =>
      let b := b.setSlot i ((b.slot i).program .slot v attr)
      { s with fuses := s.fuses.setBank st b, dev := s.dev.keyDone.ksZero.showSlots (some b) }
    | none => { s with dev := s.dev.keyDone.ksZero }
  | _ => s

/-- PS_BURN_DONE (R498): COPY shows the copies at once; the set takes effect at the next reset. -/
def State.psBurnDone (s : State) : State :=
  match s.dev.key.op with
  | some (.prot v) =>
    let f := s.fuses.burnProt v
    let d := s.dev.keyDone
    { s with
      fuses := f
      dev := d.wrReg R.PS_POL.addr ((d.rd R.PS_POL.addr &&& 0x1FFFFFFF) ||| BitVec.ofNat 32 (f.copyCode * 2 ^ 29)) }
  | _ => s

/-- A reset cuts the burn in progress: `lc`, the lifecycle bits burnt by then (Table 21.2, R490). -/
def State.cutBurn (lc : BitVec 16) (s : State) : State :=
  match s.dev.key.op with
  | some (.lc t) => { s with fuses := s.fuses.burnLc (lc &&& lcCode t) }
  | some (.slot i _ _) =>
    let st := s.dev.get R.LC_STAT_STATE
    match s.fuses.bank st with
    | some b => { s with
        fuses := s.fuses.setBank st (b.setSlot i (b.slot i).cut), dev := s.dev.updKey (fun k => { k with damaged := some i }) }
    | none => s
  | some (.prot _) => { s with fuses := s.fuses.cutProt }
  | none => s

/-! ## Debug (R495, R497, R505) -/

/-- Debug becomes enabled: every key derives from the test root (R495). -/
def Dev.debugEnable (d : Dev) : Dev :=
  if d.flag R.LC_STAT_DBG_EN then d
  else
    let d := ((d.setF R.LC_STAT_DBG_EN).setF R.LC_STAT_TEST).updKey (fun k =>
      { k with root := .test, pair := .test, fab := .test, dbg := .test, challenge := none })
    (d.fabReauth.pairReauth).emit (.debug 0 [])

/-- The debug key (Table 21.4). -/
def Dev.dbgKey (d : Dev) : Option (BitVec 256) := d.key.dbg.value.map (fun k => kdf k "T9648 DBG" [])

/-- A challenge may be offered: not within 1 s of a refusal. -/
def Dev.challengeOpen (d : Dev) : Bool :=
  match d.key.refusedAt with
  | none => true
  | some t => t.toNat + 1000000000 ≤ d.time.toNat

/-- DEBUG_ENABLE_REQUEST (R496, R497, R505). -/
def Dev.debugRequest (d : Dev) : Dev :=
  let st := d.get R.LC_STAT_STATE
  let pol := (d.rd R.PS_POL.addr).toNat % 4
  if st == 0 || pol == 0 || (st == 3 && pol == 1) then d.debugEnable
  else if pol == 1 && d.dbgKey.isSome && d.challengeOpen then
    let c := Config.trng d.key.draws
    (d.updKey (fun k => { k with draws := k.draws + 1, challenge := some c })).emit (.debug 1 [c.toNat])
  else d.emit (.debug 2 [])

/-- The correct response to a challenge (R497). -/
def Dev.debugAnswer (d : Dev) (key c : BitVec 256) : BitVec 256 :=
  Config.hmacSha256 (bytesBE 32 key.toNat) (labelBytes "T9648 DBG" ++ d.uidBytes ++ bytesBE 32 c.toNat)

/-- DEBUG_RESPONSE (R497). Without a challenge offered there is nothing to answer. -/
def Dev.debugResponse (r : BitVec 256) (d : Dev) : Dev :=
  match d.key.challenge, d.dbgKey with
  | some c, some key =>
    if r == d.debugAnswer key c then d.debugEnable
    else
      ((d.satAdd R.KE_STAT_DBG_FAIL 1).updKey (fun k => { k with challenge := none, refusedAt := some d.time })).emit
        (.debug 2 [])
  | _, _ => d

end Sys2Proof.Machine
end

