-- ==== Sys2Proof/Machine/RegAccess.lean ====
section
/-! DEFINITION. Every access to a register by number: the set-up lock (R48), the handler of each register with an effect
of its own, and reads with their side effects (R6, R410). -/

namespace Sys2Proof.Machine

/-- Who reads a register: a core with the set it runs, the host, or a unit of the device. -/
inductive Rdr where
  | core (c : CoreId) (set1 : Bool)
  | host
  | unit
deriving DecidableEq, Repr, Inhabited

/-- BOOT_ARUN: STORE writes MODE to the boot record (R514). -/
def Dev.wrBootArun (a : Nat) (fs : List FieldRow) (w : Wr) (d : Dev) : Dev :=
  let d := d.writeFields a w fs
  if w.does R.BOOT_ARUN_STORE then d.recUpdate 0x700200 [BitVec.ofNat 16 (d.get R.BOOT_ARUN_MODE), 0] else d

/-- The handler of a register with an effect of its own; every other register follows its access codes. `ix`: the
instance indices. -/
def Dev.regHandler (name : RegName) (ix : List Nat) (a : Nat) (fs : List FieldRow) (r : Req) (w : Wr) (d : Dev) : Dev :=
  let i := ix.headD 0
  let j := (ix.drop 1).headD 0
  match name with
  | .MC_STATUS => d.wrMcStatus w
  | .MC_CTRL => d.wrMcCtrl r w
  | .AE_STATUS => d.wrAeStatus w
  | .SCAN_CTRL => d.wrScanCtrl w
  | .CTASK => d.wrCtask i w
  | .FORCE_CTRL => d.wrForceCtrl w
  | .FORCE_LO => d.wrForce a false w
  | .FORCE_HI => d.wrForce a true w
  | .TILE_CTRL => d.wrTileCtrl i w
  | .CHG_CTRL => d.wrChgCtrl w
  | .STAGE_PTR => d.wrStagePtr w
  | .STAGE_DATA => d.wrStageData (reqUnit r) w
  | .AXIS_CTRL => d.wrAxisCtrl i w
  | .AXIS_CMD => d.wrAxisCmd i w
  | .AXIS_MAP | .AXIS_FB_CFG | .AXIS_POS_OFS => d.wrAxisCfg i a w
  | .AXIS_POS_SP | .AXIS_VEL_SP | .AXIS_ACC_SP => d.wrAxisSp i a w
  | .AXIS_OUT_MAX | .AXIS_OUT_MIN | .AXIS_VCMD_MAX | .AXIS_TRQ_OFS | .AXIS_FE_LIM | .AXIS_FE_TIME | .AXIS_FE_WARN
  | .AXIS_EN_TIME | .AXIS_DRV_CTRL => d.wrAxis i a w
  | .COEF => d.wrCoef i j a w
  | .MULE_CMD => d.wrMuleCmd w
  | .GANTRY_CTRL => d.wrGantryCtrl i w
  | .GANTRY_OFS => d.wrGantryOfs i w
  | .GANTRY_DIFF_LIM => d.wrGantryLim i a w
  | .GROUP_CFG => d.wrGroupCfg i w
  | .GROUP_CMD => d.wrGroupCmd i w
  | .GROUP_MEMBER_AXIS => d.wrMember i a w
  | .GROUP_QPTR => d.wrQptr i w
  | .SEGQ => d.wrSegq i j a w
  | .RING_CMD => d.wrRingCmd i w
  | .RING_CFG | .RING_SCHED_LO | .RING_SCHED_HI => d.wrRingCfg i a w
  | .RING_CPT => d.wrCpt i j w
  | .RING_SVC_CTRL => d.wrSvcCtrl i w
  | .RING_CNT_CLR => d.wrCntClr i w
  | .CAN_CMD => d.wrCanCmd i w
  | .CAN_ARBT | .CAN_DATT | .CAN_LDC | .CAN_CFG | .CAN_IMG => d.wrCanCfg i a w
  | .CAN_MRW => d.wrMrw i w
  | .CAN_TXREQ => d.eachBit w (Dev.txRequest i)
  | .CAN_TXCAN => d.eachBit w (Dev.txCancel i)
  | .CAN_RXQA => d.wrRxqa i j w
  | .FIO_DIR => d.wrFioDir w
  | .FIO_GCFG => d.wrFioGcfg i w
  | .FIO_STAT => d.wrFioStat w
  | .FIO_RETRY => d.wrFioRetry w
  | .TB_CTRL => d.wrTbCtrl w
  | .GOOSE_CHK => d.wrGooseChk w
  | .GOOSE_REG => d.wrGooseReg a w
  | .HEN_CMD => d.wrHenCmd w
  | .HEN_RANGE => d.wrHenRange i j a w
  | .NVR_CMD => d.wrNvrCmd w
  | .WRING_CFG => d.wrWringCfg i a w
  | .BK_CMD => d.wrBkCmd w
  | .BK_SET_SEC | .BK_SET_SUB => d.wrBkSet a w
  | .BK_WAKE => d.wrBkWake a w
  | .BK_CAL => d.wrBkCal a w
  | .BK_STAT => d.wrBkStat a w
  | .PG_CMD => d.wrPgCmd r w
  | .HOST_IRQ => d.wrHostIrq w
  | .CMDQ_CFG => d.wrCmdqCfg i a w
  | .CMDQ_BASE_LO | .CMDQ_BASE_HI => d.wrQueueBase (d.flag (R.CMDQ_STAT_EN i)) a w
  | .CPLQ_CFG => d.wrCplqCfg i a w
  | .CPLQ_BASE_LO | .CPLQ_BASE_HI => d.wrQueueBase (d.flag (R.CPLQ_STAT_EN i)) a w
  | .FAB_CFG => d.wrFabCfg a w
  | .FAB_CMD => d.wrFabCmd w
  | .GRP => d.wrGrp a w
  | .SUB_CTRL => d.wrSubCtrl i a w
  | .PAIR_CFG => d.wrPairCfg a fs w
  | .PAIR_CTRL => d.wrPairCtrl w
  | .LC_CMD => d.wrLcCmd w
  | .KS_PROG => d.wrKsProg w
  | .PS_BURN => d.wrPsBurn w
  | .BOOT_ARUN => d.wrBootArun a fs w
  | _ => d.writeFields a w fs

/-- The write of the register at even address `a` takes effect (R6, R48, R52). A pair's active member mirrors a write of the
Mule tables (R392). -/
def Dev.regApply (r : Req) (a : Nat) (w : Wr) (d : Dev) : Dev :=
  match regFind a with
  | none => d
  | some (row, ix) =>
    let d := d.noteMuleWr a w.mask w.val
    let lk := lockable row.fields
    if d.flag R.SETUP_LOCK_LOCK && lockBlock a then
      let d := if w.mask &&& lk != 0 then d.satAdd R.AE_STATUS_LOCK_COUNT 1 else d
      d.regHandler row.name ix a row.fields r { w with mask := w.mask &&& ~~~lk }
    else d.regHandler row.name ix a row.fields r w

/-- A write that has passed the access rules reaches the register at even address `a`, unless its table word lies in an
uncorrectable granule: then nothing is written, and those granules are named (R24). -/
def Dev.regStore (r : Req) (a : Nat) (w : Wr) (d : Dev) : List (Arr × Nat) × Dev :=
  let (bad, d) := d.readGrans (tabGran a)
  (bad, if bad.isEmpty then d.regApply r a w else d)

/-- The write of a requester, which takes the machine check of an uncorrectable granule (R24, R26). -/
def Dev.regWrite (r : Req) (a : Nat) (w : Wr) (d : Dev) : Dev :=
  let (bad, d) := d.regStore r a w
  match r with
  | .core c => d.coreMcs c bad
  | .host => d.unitMcs 0xFB bad

/-- A write that a unit carries out for the host or the pair partner: the unit takes the machine check. -/
def Dev.unitRegWrite (unit : Nat) (a : Nat) (w : Wr) (d : Dev) : Dev :=
  let (bad, d) := d.regStore .host a w
  d.unitMcs unit bad

/-- The bits of a register that read as 0 because they are WO. -/
def woMask (fs : List FieldRow) : BitVec 32 :=
  fs.foldl (fun m f => if f.acc == .wo || f.acc == .woh then m ||| rangeMask f.hi f.lo else m) 0

/-- The reader's time latch takes the high half of the timebase (R410). -/
def Dev.latchTime (rd : Rdr) (d : Dev) : Dev :=
  let hi := BitVec.ofNat 32 (d.time.toNat / 2 ^ 32)
  match rd with
  | .core c set1 => d.updCore c (fun s => if set1 then { s with timeLat1 := hi } else { s with timeLat0 := hi })
  | .host => d.updTm (fun t => { t with hostLat := hi })
  | .unit => d

/-- The reader's backup latch takes SEC (R475). -/
def Dev.latchBk (rd : Rdr) (d : Dev) : Dev :=
  match rd with
  | .core c set1 => d.updCore c (fun s => if set1 then { s with bkLat1 := d.bk.sec } else { s with bkLat0 := d.bk.sec })
  | .host => d.updBk (fun b => { b with hostLat := b.sec })
  | .unit => d

/-- The reader's backup latch. -/
def Dev.bkLatch (d : Dev) (rd : Rdr) : BitVec 32 :=
  match rd with
  | .core c set1 => if set1 then (d.core c).bkLat1 else (d.core c).bkLat0
  | .host => d.bk.hostLat
  | .unit => 0

/-- A read of a backup register other than BK_IF: 0 while the interface is locked (R470). -/
def Dev.bkRead (d : Dev) (v : BitVec 32) (f : Dev → Dev) : BitVec 32 × Dev :=
  if d.flag R.BK_IF_LOCKED then (0, d) else (v, f d)

/-- The reader's time latch. -/
def Dev.timeLatch (d : Dev) (rd : Rdr) : BitVec 32 :=
  match rd with
  | .core c set1 => if set1 then (d.core c).timeLat1 else (d.core c).timeLat0
  | .host => d.tm.hostLat
  | .unit => 0

/-- A read of a register that reads an array: its value, and the granules that were uncorrectable. -/
def Dev.arrayRead (a : Nat) (d : Dev) : Option ((BitVec 32 × List (Arr × Nat)) × Dev) :=
  match regFind a with
  | some (row, ix) =>
    match row.name with
    | .CAN_MRR => some (d.rdMrr (ix.headD 0))
    | .HEN_RWIN => some (d.rdHenWin (ix.headD 0))
    | _ => none
  | none => none

/-- A read of the register at even address `a`, of one that reads no array. -/
def Dev.regRead (rd : Rdr) (a : Nat) (d : Dev) : BitVec 32 × Dev :=
  match regFind a with
  | none => (0, d)
  | some (row, ix) =>
    let i := ix.headD 0
    let v := d.rd a
    match row.name with
    | .TIME_LO => (BitVec.ofNat 32 d.time.toNat, d.latchTime rd)
    | .TIME_HI => (d.timeLatch rd, d)
    | .TILE_STATE => (BitVec.ofNat 32 (v.toNat / 4 * 4 + (d.core (Fin.ofNat 17 i)).runCode), d)
    | .CTASK_STAT => ((R.CTASK_STAT_ACT).ins v d.taskAct, d)
    | .FORCE_CTRL => ((R.FORCE_CTRL_QCNT).ins ((R.FORCE_CTRL_ICNT).ins v (d.forceCount false)) (d.forceCount true), d)
    | .FORCE_ORPHAN => ((R.FORCE_ORPHAN_COUNT).ins v d.orphanCount, d)
    | .MULE_STAT => (R.MULE_STAT_LOAD.ins v d.muleLoad, d)
    | .MULE_FAULT => (BitVec.ofNat 32 ((List.range 32).foldl (fun m k => if d.axState (32 * i + k) == 3 then setBit m k else m) 0), d)
    | .KS_STATE => (v, d.ksRead i)
    | .BK_SUB => d.bkRead (BitVec.ofNat 32 d.bk.sub) (fun d => d.latchBk rd)
    | .BK_SEC => d.bkRead (d.bkLatch rd) id
    | .BK_SET_SEC | .BK_SET_SUB | .BK_WAKE | .BK_NEXT_SEC | .BK_NEXT_SUB | .BK_STAT | .BK_CAL => d.bkRead v id
    | .GANTRY_STAT => ((R.GANTRY_STAT_ACT i).ins v (b2n (d.gantryAct i)), d)
    | _ => (v &&& ~~~woMask row.fields, d)

/-- A read of the register at even address `a` with its check bits: the value, 0 where a granule is uncorrectable, and those
granules (R19, R22). -/
def Dev.regFetch (rd : Rdr) (a : Nat) (d : Dev) : (BitVec 32 × List (Arr × Nat)) × Dev :=
  match d.arrayRead a with
  | some r => r
  | none =>
    let (bad, d) := d.readGrans (tabGran a)
    if bad.isEmpty then
      let (v, d) := d.regRead rd a
      ((v, []), d)
    else ((0, bad), d)

/-- A read by a unit of the device. The Bool says that a granule was uncorrectable. -/
def Dev.unitRegRead (unit : Nat) (rd : Rdr) (a : Nat) (d : Dev) : BitVec 32 × Bool × Dev :=
  let ((v, bad), d) := d.regFetch rd a
  (v, !bad.isEmpty, d.unitMcs unit bad)

end Sys2Proof.Machine
end

