-- ==== Sys2Proof/Machine/Drain.lean ====
section
/-! DEFINITION. Draining a core's store buffer into memory and registers, and letting its outstanding accesses end (R91,
R130, R131, R133, R163). -/

namespace Sys2Proof.Machine

/-- The access to a register that a buffered access is: register address, and the write (R42, R43, R541). -/
def StoreRec.regAcc (e : StoreRec) : Option (Nat × Wr) :=
  match e.words with
  | [(w, m, v)] =>
    if !isRegWord w then none
    else some (w / 2 * 2, if e.bits then Wr.bitsOf (w % 2 == 1) m v else Wr.high v)
  | [(w, _, lo), (_, _, hi)] =>
    if !isRegWord w then none else some (w, Wr.whole (BitVec.ofNat 32 (lo.toNat + 65536 * hi.toNat)))
  | _ => none

/-- A store access of core `c` takes place: a register is written, or memory words are, or the core takes the machine
check (R24). -/
def Dev.perform (c : CoreId) (e : StoreRec) (d : Dev) : Dev :=
  match e.regAcc with
  | some (a, w) => d.regWrite (.core c) a w
  | none =>
    let (bad, d) := d.coreStore c (d.recWords c e)
    d.coreMcs c bad

/-- The entry at place `i` drains: its store becomes visible to all cores (R131). -/
def Dev.drainEntry (c : CoreId) (i : Nat) (d : Dev) : Dev :=
  match (d.core c).sbuf[i]? with
  | none => d
  | some e => (d.updCore c (fun s => { s with sbuf := s.sbuf.eraseIdx i })).perform c e

/-- The first place below `n` at which `p` holds. -/
def firstAt (p : Nat → Bool) (n : Nat) : Option Nat := (List.range n).find? p

/-- The load at place `i` must end for the accesses of set 0 to: one of set 0, one that an earlier access of set 0 must
follow, or one at a word that set 0 reads. -/
def Dev.loadOwed (d : Dev) (c : CoreId) (i : Nat) : Bool :=
  match (d.core c).loads[i]? with
  | none => false
  | some l =>
    !l.set1 || (d.core c).sbuf.any (fun e => !e.set1 && l.seq < e.seq)
      || ((d.core c).loads.drop i).any (fun m => !m.set1 && d.overlap c m.words l.words)

/-- The entry at place `i` must drain for the stores of set 0 to: one of set 0, or one at a place that a later one of set 0
stores to. -/
def Dev.entryOwed (d : Dev) (c : CoreId) (i : Nat) : Bool :=
  match (d.core c).sbuf[i]? with
  | none => false
  | some e => !e.set1 || ((d.core c).sbuf.drop i).any (fun f => !f.set1 && d.overlap c e.addrs f.addrs)

/-- Up to `n` accesses that set 0 waits for end: loads in order, then stores in order; one that may not drain is passed
over. -/
def Dev.end0 (c : CoreId) : Nat → Dev → Dev
  | 0, d => d
  | n + 1, d =>
    match firstAt (fun i => d.loadOwed c i && d.canReturn c i) (d.core c).loads.length with
    | some i => (d.returnLoad c i).end0 c n
    | none =>
      match firstAt (fun i => d.entryOwed c i && d.canDrain c i) (d.core c).sbuf.length with
      | some i => (d.drainEntry c i).end0 c n
      | none => d

/-- The accesses of set 0 of a core end, as far as the posted write buffer has room (R133, R163). -/
def Dev.settle0 (c : CoreId) (d : Dev) : Dev := d.end0 c ((d.core c).loads.length + (d.core c).sbuf.length)

/-- Nothing that set 0 of the core accessed is outstanding. -/
def Dev.settled0 (d : Dev) (c : CoreId) : Bool :=
  (d.core c).loads.all (fun l => l.set1) && (d.core c).sbuf.all (fun e => e.set1)

/-- One entry drains to make room for a store that finds the buffer full (R91): the first that may, after the loads that
it must follow have returned. -/
def Dev.makeRoom (c : CoreId) : Nat → Dev → Dev
  | 0, d => d
  | n + 1, d =>
    match firstAt (d.canDrain c) (d.core c).sbuf.length with
    | some i => d.drainEntry c i
    | none =>
      match firstAt (d.canReturn c) (d.core c).loads.length with
      | some i => (d.returnLoad c i).makeRoom c n
      | none => d

/-- Up to `n` entries drain, until `k` more accesses find room. -/
def Dev.freeRoom (c : CoreId) (k : Nat) : Nat → Dev → Dev
  | 0, d => d
  | n + 1, d =>
    if (d.core c).sbuf.length + k ≤ 8 then d else (d.makeRoom c ((d.core c).loads.length + 1)).freeRoom c k n

/-- Between two devices core `c` was stopped: by its own machine check or by a fatal one. -/
def Dev.cutOff (d d' : Dev) (c : CoreId) : Bool :=
  d'.sys.fatal != d.sys.fatal || (d'.core c).run0 != (d.core c).run0 || (d'.core c).inSet1 != (d.core c).inSet1
    || (!(d.core c).pend.isEmpty && (d'.core c).pend.isEmpty)

/-! ## Scan end -/

/-- The accesses of set 0 of every tile complete (R133). -/
def Dev.settleAll (d : Dev) : Dev := (List.finRange 16).foldl (fun d t => d.settle0 (tileCore t)) d

/-- Nothing that a strand accessed is outstanding. -/
def Dev.allSettled (d : Dev) : Bool := (List.finRange 16).all (fun t => d.settled0 (tileCore t))

/-- BARRIER ends (R156, R158, R164, R165): the accesses of the strands complete, then COMMIT with its steps 1 and 2, or
ROLLBACK with its copy. -/
def Dev.barrierEnd (d : Dev) : Dev :=
  if d.get R.SCAN_STAT_STATE == 4 && !d.sys.fatal then
    let d := d.settleAll
    if !d.allSettled || d.sys.fatal then d
    else if d.scan.skipNow then
      let d := (d.setScan 7).satAdd R.SCAN_STAT_SKIP_CNT 1
      (d.copyQ (!d.scan.qShadow) d.scan.qShadow).updScan (fun s => { s with skipped := true })
    else
      let d := (d.setScan 5).updScan (fun s => { s with skipped := false, qFlipped := false })
      let (fs, d) := d.readForces true
      let d := fs.foldl (fun d f => d.forceQ f) d
      if d.syncCommit then d.closePoint true none else d
  else d

end Sys2Proof.Machine
end

