-- ==== Sys2Proof/Machine/Flags.lean ====
section
/-! DEFINITION. The status register (Table 3.2), and every computation that sets flags: the data ALU (R98), the
accumulator operations (R100) and the branch conditions (Table 3.14). -/

namespace Sys2Proof.Machine

/-! ## SR -/

/-- Bit numbers of SR (Table 3.2). -/
def srPriv : Nat := 15
def srMode : Nat := 14
def srOvs : Nat := 11
def srSat : Nat := 10
def srCb : Nat := 4
def srN : Nat := 3
def srZ : Nat := 2
def srV : Nat := 1
def srC : Nat := 0

/-- A bit of SR. -/
def srBit (sr : BitVec 16) (i : Nat) : Bool := tst sr.toNat i

/-- SR with a bit set to `b`. -/
def srPut (sr : BitVec 16) (i : Nat) (b : Bool) : BitVec 16 :=
  BitVec.ofNat 16 (if b then setBit sr.toNat i else clrBit sr.toNat i)

/-- BSP, the bit-stack depth. -/
def srBsp (sr : BitVec 16) : Nat := sr.toNat / 32 % 32

/-- SR with BSP set to `n`; a value above 16 is taken as 16 (R59). -/
def srPutBsp (sr : BitVec 16) (n : Nat) : BitVec 16 :=
  BitVec.ofNat 16 (sr.toNat % 32 + min n 16 * 32 + sr.toNat / 1024 * 1024)

/-- What a register move writes into SR (R59): OVS, SAT, BSP, CB and the flags; MODE stays; PRIV only goes to 0. -/
def srMove (old new : BitVec 16) : BitVec 16 :=
  let v := srPutBsp (new &&& 0x0FFF) (srBsp new)
  srPut (srPut v srMode (srBit old srMode)) srPriv (srBit old srPriv && srBit new srPriv)

/-- What RETI loads into SR (R83, R104): the frame's word, its reserved bits as 0, PRIV ANDed with the current bit. R59 limits
a BSP above 16 for a register move alone, and says of SAT and OVS that a move into SR, strand start and event entry clear
them: DESIGN CHOICE, RETI takes a BSP above 16 as 16 too, and loads SAT and OVS as the frame holds them, which may clear them
(log entry 65). -/
def srReload (cur saved : BitVec 16) : BitVec 16 :=
  srPut (srPutBsp (saved &&& 0xCFFF) (srBsp saved)) srPriv (srBit cur srPriv && srBit saved srPriv)

/-! ## The data ALU -/

/-- Result, carry (`none`: unchanged) and overflow of a data operation. -/
structure AluOut where
  r : Nat
  c : Option Bool
  v : Bool
deriving DecidableEq, Repr, Inhabited

/-- Signed overflow of x + y giving r, on 16 bits. -/
def ovf16 (x y r : Nat) : Bool := tst x 15 == tst y 15 && tst x 15 != tst r 15

/-- The data ALU (R98) on 16-bit operands `a`, `b` and carry `c`. For NOT and NEG the operand is `a`. -/
def alu (op : AluOp) (a b c : Nat) : AluOut :=
  let cnt := b % 16
  match op with
  | .add => { r := (a + b) % 65536, c := some (65536 ≤ a + b), v := ovf16 a b ((a + b) % 65536) }
  | .adc => { r := (a + b + c) % 65536, c := some (65536 ≤ a + b + c), v := ovf16 a b ((a + b + c) % 65536) }
  | .sub | .cmp =>
    { r := (a + 65536 - b) % 65536, c := some (a < b), v := ovf16 a (65535 - b) ((a + 65536 - b) % 65536) }
  | .sbc =>
    { r := (a + 131072 - b - c) % 65536, c := some (a < b + c),
      v := ovf16 a (65535 - b) ((a + 131072 - b - c) % 65536) }
  | .and => { r := a &&& b, c := none, v := false }
  | .or => { r := a ||| b, c := none, v := false }
  | .xor => { r := a ^^^ b, c := none, v := false }
  | .not => { r := 65535 - a, c := none, v := false }
  | .neg => { r := (65536 - a) % 65536, c := some (a != 0), v := a == 0x8000 }
  | .lsl => { r := a * 2 ^ cnt % 65536, c := if cnt = 0 then none else some (tst a (16 - cnt)), v := false }
  | .lsr => { r := a / 2 ^ cnt, c := if cnt = 0 then none else some (tst a (cnt - 1)), v := false }
  | .asr =>
    { r := toU 16 (sx 16 a / (2 ^ cnt : Nat)), c := if cnt = 0 then none else some (tst a (cnt - 1)), v := false }
  | .ror =>
    let r := (a / 2 ^ cnt + a * 2 ^ (16 - cnt)) % 65536
    { r := r, c := if cnt = 0 then none else some (tst r 15), v := false }
  | .adds =>
    let t := sx 16 a + sx 16 b
    let r := clampI (-32768) 32767 t
    { r := toU 16 r, c := some (65536 ≤ a + b), v := t != r }
  | .subs =>
    let t := sx 16 a - sx 16 b
    let r := clampI (-32768) 32767 t
    { r := toU 16 r, c := some (a < b), v := t != r }

/-- SR after a data operation (Table 4.3): N and Z from the result, C when given, V. -/
def srAlu (sr : BitVec 16) (o : AluOut) : BitVec 16 :=
  let sr := srPut (srPut sr srN (tst o.r 15)) srZ (o.r == 0)
  let sr := match o.c with
    | some c => srPut sr srC c
    | none => sr
  srPut sr srV o.v

/-! ## Accumulators -/

/-- An accumulator result and the sticky bits it sets (R57, R100). -/
structure AccOut where
  v : Int
  ovs : Bool
  sat : Bool
deriving DecidableEq, Repr, Inhabited

/-- lim40: the nearest 40-bit limit. -/
def lim40 (x : Int) : AccOut :=
  let r := clampI (-549755813888) 549755813887 x
  { v := r, ovs := r != x, sat := false }

/-- RND: half away from zero at bit 16. -/
def accRnd (a : Int) : AccOut :=
  let m : Int := (((a.natAbs + 0x8000) / 65536 * 65536 : Nat) : Int)
  let r := if a < 0 then -m else m
  if 0x7FFFFF0000 < r then { v := 0x7FFFFF0000, ovs := true, sat := false } else { v := r, ovs := false, sat := false }

/-- SAT32: limited to s32 in place. -/
def accSat32 (a : Int) : AccOut :=
  let r := clampI (-2147483648) 2147483647 a
  { v := r, ovs := false, sat := r != a }

/-- SR after an accumulator operation: the sticky bits only go to 1. -/
def srAcc (sr : BitVec 16) (o : AccOut) : BitVec 16 :=
  let sr := if o.ovs then srPut sr srOvs true else sr
  if o.sat then srPut sr srSat true else sr

/-- What a store from an accumulator stores, in `bits` bits, and whether it was limited (R57). -/
def accStore (bits : Nat) (a : Int) : Nat × Bool :=
  let r := clampI (-(2 ^ (bits - 1) : Nat)) ((2 ^ (bits - 1) : Nat) - 1) a
  (toU bits r, r != a)

/-! ## Conditions -/

/-- A branch condition holds (Table 3.14). -/
def condHolds (sr : BitVec 16) (k : Cond) : Bool :=
  let n := srBit sr srN
  let z := srBit sr srZ
  let v := srBit sr srV
  let c := srBit sr srC
  let cb := srBit sr srCb
  match k with
  | .ra => true
  | .eq => z
  | .ne => !z
  | .cs => c
  | .cc => !c
  | .mi => n
  | .pl => !n
  | .vs => v
  | .gt => !z && n == v
  | .le => z || n != v
  | .ge => n == v
  | .lt => n != v
  | .ct => cb
  | .cf => !cb

end Sys2Proof.Machine
end

