-- ==== Sys2Proof/Machine/Operands.lean ====
section
/-! DEFINITION. The operand forms: modifier updates (R73), bit addresses (R65, R67), load and store addresses (Table 3.10,
R113), and branch targets (R102). -/

namespace Sys2Proof.Machine

/-! ## Modifiers (R73) -/

/-- The `k` low bits of `x`, reversed. -/
def revBits : Nat → Nat → Nat
  | 0, _ => 0
  | k + 1, x => x % 2 * 2 ^ k + revBits k (x / 2)

/-- The least c with n ≤ 2^c. -/
def ceilLog2 (n : Nat) : Nat := if n ≤ 1 then 0 else Nat.log2 (n - 1) + 1

/-- An updated by Mn: `none` for the reserved KIND. -/
def modUpdate (a m : Nat) : Option Nat :=
  let kind := m / 2 ^ 30 % 4
  let len := if m / 65536 % 16384 = 0 then 16384 else m / 65536 % 16384
  let step := sx 16 m
  match kind with
  | 0 => some (toU 24 (a + step))
  | 1 =>
    let size := 2 ^ ceilLog2 len
    let base := a / size * size
    some ((base + (((a : Int) - base + step) % (len : Int)).toNat) % 2 ^ 24)
  | 2 =>
    let k := Nat.log2 len
    let n := 2 ^ k
    let low := a % n
    let r := (revBits k low + revBits k (toU 16 step % n)) % n
    some (a - low + revBits k r)
  | _ => none

/-! ## Bits -/

/-- The W address and bit number of a short form: A × 16 + offset (R65). -/
def shortBit (a : Nat) (off : BitVec 8) : Nat × Nat :=
  let ix := ((a : Int) * 16 + sx 8 off.toNat) % (2 ^ 28 : Nat)
  ((ix.toNat / 16) % 2 ^ 24, ix.toNat % 16)

/-- The W address and bit number of a long form with area base `base` (R67). -/
def longBit (base : Nat) (b : BitVec 20) : Nat × Nat := ((base + b.toNat / 16) % 2 ^ 24, b.toNat % 16)

/-- The base of a long-form area; `a6` is A6 (Table 3.6). -/
def areaBase (a6 : Nat) : BitArea → Nat
  | .image => 0x20000
  | .mark => 0x30000
  | .inst => a6
  | .live => 0xC0000
  | .own => 0

/-! ## Loads and stores -/

/-- The words of a memory operand (Table 3.11). -/
def memSize : MemOpd → Nat
  | .word _ | .accWord _ => 1
  | .pair _ | .accPair _ => 2

/-- The effective address and the new An of an address mode (Table 3.10); `m` is Mn. `none`: the reserved KIND. -/
def effAddr (mode : AddrMode) (a s m : Nat) : Option (Nat × Nat) :=
  match mode with
  | .ind => some (a, a)
  | .postInc => some (a, (a + s) % 2 ^ 24)
  | .preDec => some ((a + 2 ^ 24 - s) % 2 ^ 24, (a + 2 ^ 24 - s) % 2 ^ 24)
  | .modif => (modUpdate a m).map (fun n => (a, n))

/-- The address of LDD and STD (R113). -/
def dispAddr (a : Nat) (disp : BitVec 16) : Nat := toU 24 ((a : Int) + sx 16 disp.toNat)

/-! ## Targets -/

/-- The target of a branch or call whose next address is `next` (R102). -/
def targetAddr (next : Nat) : Target → Nat
  | .short d => toU 21 ((next : Int) + sx 8 d.toNat)
  | .long t => t.toNat

/-- The length in words of a branch or call. -/
def targetLen : Target → Nat
  | .short _ => 1
  | .long _ => 2

/-- The length of a bit instruction. -/
def bitLen : BitOpd → Nat
  | .short .. => 1
  | .long .. => 2

end Sys2Proof.Machine
end

