-- ==== Sys2Proof/Machine/IsaBase.lean ====
section
/-! DEFINITION. How a core runs one instruction: the computation type of an instruction's effect (X) and the ways it can
end early (Exn); the fetch (R40, R41, R89, R120); the registers under the scoreboard of outstanding loads; single-word,
two-word and bit accesses with their rules (R42, R43, R50, R541), through the store buffer or, in T4 mode, directly (R91,
R129, R130, R140); the operand stack (R86). -/

namespace Sys2Proof.Machine

/-- Why an instruction ends without its own effect: the emulation trap (R82), TRAP (R109), the access trap with KIND and
faulting address (R126), where `drop` empties the pair latch (R43), a machine check on granules with the device as the
access left it (R24, R135), the stop of the core by a machine check on a store it made before, or a wait that lets it issue
later. -/
inductive Exn where
  | emu
  | trap (u : Nat)
  | acc (kind addr : Nat) (drop : Bool)
  | mc (d : Dev) (gs : List (Arr × Nat))
  | gone (d : Dev)
  | stall

/-- The effect of an instruction on the device. -/
abbrev X := StateT Dev (Except Exn)

/-- End the instruction early. -/
def endX {α : Type} (e : Exn) : X α := fun _ => .error e

/-- The instruction cannot issue yet. -/
def stallIf (b : Bool) : X Unit := if b then endX .stall else pure ()

/-- The emulation trap. -/
def emuIf (b : Bool) : X Unit := if b then endX .emu else pure ()

/-! ## Fetch -/

/-- The fetch of `n` words from `p` upward: KIND 8 where there is no such address (R40, R89), a machine check on an
uncorrectable granule. -/
def fetchX (c : CoreId) (p : Nat) : Nat → X Unit
  | 0 => pure ()
  | n + 1 => do
    match (← get).fetchWord c p with
    | none => endX (.acc 8 p false)
    | some (.ok d) => do set d; fetchX c (p + 1) n
    | some (.error (d, gs)) => endX (.mc d gs)

/-! ## Registers of the active set -/

def modC (c : CoreId) (f : CoreSt → CoreSt) : X Unit := modify (fun d => d.updCore c f)
def modR (c : CoreId) (f : RegSet → RegSet) : X Unit := modC c (fun s => s.setAct (f s.act))
def coreX (c : CoreId) : X CoreSt := fun d => .ok (d.core c, d)
def regsX (c : CoreId) : X RegSet := fun d => .ok ((d.core c).act, d)

/-- D register `n` of the active set is the destination of an outstanding load. -/
def CoreSt.busyD (s : CoreSt) (n : Nat) : Bool :=
  s.loads.any (fun l => l.set1 == s.inSet1 &&
    match l.dst with
    | .word d => d.val == n
    | .pair d => d.val == n || d.val + 1 == n
    | _ => false)

/-- Accumulator `k` of the active set is the destination of an outstanding load. -/
def CoreSt.busyAcc (s : CoreSt) (k : Nat) : Bool :=
  s.loads.any (fun l => l.set1 == s.inSet1 &&
    match l.dst with
    | .accPair a | .accWord a | .accLo a | .accHi a => a.val == k
    | _ => false)

def getD (c : CoreId) (n : Nat) : X Nat := do
  let s ← coreX c
  stallIf (s.busyD (n % 16))
  return (s.act.getD n).toNat

def setD (c : CoreId) (n v : Nat) : X Unit := do
  let s ← coreX c
  stallIf (s.busyD (n % 16))
  modR c (fun r => r.setD n (BitVec.ofNat 16 v))

def getA (c : CoreId) (n : Nat) : X Nat := return (← regsX c).getA n
def setA (c : CoreId) (n v : Nat) : X Unit := modR c (fun r => r.setA n v)

def getAcc (c : CoreId) (k : Nat) : X Int := do
  let s ← coreX c
  stallIf (s.busyAcc (k % 4))
  return s.act.getAcc k

def setAcc (c : CoreId) (k : Nat) (v : Int) : X Unit := do
  let s ← coreX c
  stallIf (s.busyAcc (k % 4))
  modR c (fun r => r.setAcc k v)

def getSr (c : CoreId) : X (BitVec 16) := return (← regsX c).sr
def setSr (c : CoreId) (v : BitVec 16) : X Unit := modR c (fun r => { r with sr := v })
def getCb (c : CoreId) : X Bool := return srBit (← getSr c) srCb
def setCb (c : CoreId) (b : Bool) : X Unit := do setSr c (srPut (← getSr c) srCb b)
def setPc (c : CoreId) (p : Nat) : X Unit := modR c (fun r => { r with pc := BitVec.ofNat 21 p })
def getPc (c : CoreId) : X Nat := return (← regsX c).pc.toNat

/-! ## Rules of an access -/

/-- The rule that words of a span break, each an access of its own: KIND and address of the first (R50). -/
def Dev.spanRule (d : Dev) (c : CoreId) (write : Bool) (w n : Nat) : Option (Nat × Nat) :=
  d.wordsRule c (srBit (d.core c).act.sr srPriv) write w n

/-- The rule that an access of core `c` to `n` words from `w` upward breaks: KIND and address of the first word (R50).
A two-word access at an odd address of the register area is misaligned (R42); where its first word breaks another rule too,
the spec gives no order: DESIGN CHOICE, the other rule's KIND is taken (log entry 62). -/
def Dev.accessRule (d : Dev) (c : CoreId) (write : Bool) (w n : Nat) : Option (Nat × Nat) :=
  match d.spanRule c write w 1 with
  | some e => some e
  | none =>
    if n == 2 && w % 2 == 1 && isRegWord (w % 0x1000000) then some (6, w % 0x1000000) else d.spanRule c write w n

/-- A broken rule ends the instruction with the access trap. -/
def breakX (e : Option (Nat × Nat)) (drop : Bool) : X Unit :=
  match e with
  | some (k, a) => endX (.acc k a drop)
  | none => pure ()

/-- The access is checked before it takes effect. A word write at an odd register address that breaks a rule empties the
pair latch (R43); a bit write does not (R541). -/
def ruleX (c : CoreId) (write : Bool) (w n : Nat) (bits : Bool := false) : X Unit := do
  breakX ((← get).accessRule c write w n) (write && n == 1 && w % 2 == 1 && isRegWord w && !bits)

/-- The words of a frame or a spill are checked before any takes effect. -/
def spanX (c : CoreId) (write : Bool) (w n : Nat) : X Unit := do breakX ((← get).spanRule c write w n) false

/-- An access outside own local data, I, Q, M and instance memory breaks the T4 contract (Table 5.6, cause 2). -/
def farX (c : CoreId) (w n : Nat) : X Unit :=
  if 0xC0000 ≤ (w + n - 1) % 0x1000000 then modify (fun d => d.t4Break c 2) else pure ()

/-- A call or return frame outside own local data breaks the T4 contract (Table 5.6, cause 2). -/
def frameFarX (c : CoreId) (w n : Nat) : X Unit :=
  if 0x20000 ≤ (w + n - 1) % 0x1000000 then modify (fun d => d.t4Break c 2) else pure ()

/-! ## Storing -/

/-- A store access of a T4 strand takes place at once (R140), after whatever of set 1 it must follow. -/
def storeDirect (c : CoreId) (e : StoreRec) : X Unit := do
  let d ← get
  stallIf (!(d.core c).loads.isEmpty || (d.core c).sbuf.any (fun f => d.overlap c f.addrs e.addrs)
    || !d.storeRoom (d.recWords c e))
  let d' := d.perform c e
  if d.cutOff d' c then endX (.gone d') else set d'

/-- One store access: that of a T4 strand takes place at once, any other enters the store buffer, which holds 8 (R91). -/
def storeAccess (c : CoreId) (ws : List (Nat × BitVec 16 × BitVec 16)) (bits : Bool := false) : X Unit := do
  let d ← get
  let s := d.core c
  let e : StoreRec := { seq := s.seq, set1 := s.inSet1, words := ws, bits := bits }
  if d.t4On c then storeDirect c e
  else
    stallIf (8 ≤ s.sbuf.length)
    modC c (fun s => { s with sbuf := s.sbuf ++ [e], seq := s.seq + 1 })

/-- The instruction stalls between its stores until `k` more of them find room (R91). -/
def roomX (c : CoreId) (k : Nat) : X Unit := do
  let d ← get
  if d.t4On c || (d.core c).sbuf.length + k ≤ 8 then pure ()
  else
    let d' := d.freeRoom c k 8
    if d.cutOff d' c then endX (.gone d')
    else if (d'.core c).sbuf.length + k ≤ 8 then set d'
    else endX .stall

/-! ## Register words -/

/-- The reader that a core's active set is. -/
def Dev.rdr (d : Dev) (c : CoreId) : Rdr := .core c (d.core c).inSet1

/-- A read of the register at even address `w` with its check bits (R19): its value, and the device after its side
effects. A read waits for an own store to it in the buffer (DESIGN CHOICE, log entry 72): R91 would return the buffered
value, which a register need not take. -/
def regGet (c : CoreId) (w : Nat) : X (BitVec 32 × Dev) := do
  let d ← get
  stallIf ((d.core c).sbuf.any (fun e => d.overlap c e.addrs [w, w + 1]))
  let ((v, bad), d') := d.regFetch (d.rdr c) w
  if bad.isEmpty then return (v, d') else endX (.mc d' bad)

/-- A 32-bit read of the register at even address `w` (R42). -/
def regReadPair (c : CoreId) (w : Nat) : X (List (BitVec 16)) := do
  let (v, d) ← regGet c w
  set d
  return [BitVec.ofNat 16 v.toNat, BitVec.ofNat 16 (v.toNat / 65536)]

/-- One register word as it stands, with no pair latch (R541, R128). -/
def peekReg (c : CoreId) (w : Nat) : X (BitVec 16) := do
  let (v, _) ← regGet c (w / 2 * 2)
  modify (fun d => (d.readGrans (tabGran w)).2)
  return BitVec.ofNat 16 (v.toNat / 65536 ^ (w % 2))

/-- A single-word read in the register area (R43). -/
def regReadWord (c : CoreId) (w : Nat) : X (BitVec 16) := do
  if w % 2 = 0 then
    let ws ← regReadPair c w
    modC c (fun s => { s with latch := .read w ((ws.drop 1).headD 0) })
    return ws.headD 0
  else
    match (← coreX c).latch with
    | .read r hi =>
      if r == w - 1 then
        modC c (fun s => { s with latch := .empty })
        return hi
      else peekReg c w
    | _ => peekReg c w

/-- A 32-bit write of the register at even address `w` (R42). -/
def regWritePair (c : CoreId) (w : Nat) (lo hi : BitVec 16) : X Unit := storeAccess c [(w, 0xFFFF, lo), (w + 1, 0xFFFF, hi)]

/-- A single-word write in the register area (R43). -/
def regWriteWord (c : CoreId) (w : Nat) (v : BitVec 16) : X Unit := do
  if w % 2 = 0 then modC c (fun s => { s with latch := .write w v })
  else
    match (← coreX c).latch with
    | .write r lo =>
      if r == w - 1 then
        regWritePair c (w - 1) lo v
        modC c (fun s => { s with latch := .empty })
      else storeAccess c [(w, 0xFFFF, v)]
    | _ => storeAccess c [(w, 0xFFFF, v)]

/-! ## Memory reads -/

/-- Memory words read at once. A read of a word that an outstanding load of the core also reads waits for that load
(R131). -/
def readNow (c : CoreId) (ws : List Nat) : X (List (BitVec 16)) := do
  let d ← get
  stallIf ((d.core c).loads.any (fun l => d.overlap c l.words ws))
  match d.coreReads c (d.core c).seq ws with
  | .error (d', bad) => endX (.mc d' bad)
  | .ok (vs, d') => do set d'; return vs

/-- One word, of memory or of a register as a single-word access. -/
def readWord (c : CoreId) (w : Nat) : X (BitVec 16) := do
  if isRegWord w then regReadWord c w else return (← readNow c [w]).headD 0

/-- One word as it stands, with no pair latch (R541, R128). -/
def peekWord (c : CoreId) (w : Nat) : X (BitVec 16) := do
  if isRegWord w then peekReg c w else return (← readNow c [w]).headD 0

/-- `n` words from `w` upward by single-word accesses, as a frame is popped. The spec does not say how a frame in the
register areas is split: DESIGN CHOICE, pops go by single words through the pair latch (log entry 63). -/
def readFrame (c : CoreId) (w : Nat) : Nat → X (List Nat)
  | 0 => pure []
  | n + 1 => do
    let v ← readWord c (w % 0x1000000)
    let vs ← readFrame c (w + 1) n
    return v.toNat :: vs

/-- The words of a list of addresses as they stand. -/
def peekWords (c : CoreId) : List Nat → X (List (BitVec 16))
  | [] => pure []
  | w :: ws => do
    let v ← peekWord c w
    let vs ← peekWords c ws
    return v :: vs

/-- The 4-word value at `w`, one access (R128). -/
def read4 (c : CoreId) (w : Nat) : X Nat := do
  ruleX c false w 4
  farX c w 4
  let as := (List.range 4).map (fun i => (w + i) % 0x1000000)
  let vs ← if as.any isRegWord then peekWords c as else readNow c as
  return (vs.zipIdx.map (fun v => v.1.toNat * 65536 ^ v.2)).sum

/-- A load of `n` words into `dst` (R97). Own local data, registers and every load of a T4 strand are read at once; any
other load returns by LOAD_RETURN (R130). A two-word load at an odd shared address is two accesses (R128). -/
def loadX (c : CoreId) (w n : Nat) (dst : LoadDst) : X Unit := do
  ruleX c false w n
  farX c w n
  let w1 := (w + 1) % 0x1000000
  let d ← get
  if isRegWord w && n == 2 then
    let vs ← regReadPair c w
    modR c (fun r => r.takeLoad dst vs)
  else if n == 2 && isRegWord w1 then
    let a ← readWord c w
    let b ← readWord c w1
    modR c (fun r => r.takeLoad dst [a, b])
  else if n == 1 && isRegWord w then
    let a ← readWord c w
    modR c (fun r => r.takeLoad dst [a])
  else if (w < 0x20000 && (n == 1 || w1 < 0x20000)) || d.t4On c then
    let vs ← readNow c (if n == 2 then [w, w1] else [w])
    modR c (fun r => r.takeLoad dst vs)
  else
    modC c (fun s =>
      let rec1 (dst : LoadDst) (ws : List Nat) : LoadRec := { seq := s.seq, set1 := s.inSet1, dst := dst, words := ws }
      let rs :=
        if n == 2 && w % 2 == 1 then
          match dst with
          | .pair q => [rec1 (.word q) [w], rec1 (.word (Fin.ofNat 16 (q.val + 1))) [w1]]
          | .accPair k => [rec1 (.accLo k) [w], rec1 (.accHi k) [w1]]
          | _ => [rec1 dst [w, w1]]
        else if n == 2 then [rec1 dst [w, w1]]
        else [rec1 dst [w]]
      { s with loads := s.loads ++ rs, seq := s.seq + 1 })

/-! ## Memory stores -/

/-- A word store that has passed its rules. -/
def storeWord (c : CoreId) (w : Nat) (v : BitVec 16) : X Unit :=
  if isRegWord w then regWriteWord c w v else storeAccess c [(w, 0xFFFF, v)]

/-- A two-word store that has passed its rules: one access, but two at an odd shared address (R128). -/
def storePair (c : CoreId) (w : Nat) (lo hi : BitVec 16) : X Unit := do
  let w1 := (w + 1) % 0x1000000
  if isRegWord w then regWritePair c w lo hi
  else if w % 2 = 0 || w1 < 0x20000 then storeAccess c [(w, 0xFFFF, lo), (w1, 0xFFFF, hi)]
  else
    storeWord c w lo
    storeWord c w1 hi

/-- The store of one or two words from `w` upward (R97). -/
def storeX (c : CoreId) (w : Nat) (vs : List (BitVec 16)) : X Unit := do
  ruleX c true w vs.length
  farX c w vs.length
  match vs with
  | [lo, hi] => storePair c w lo hi
  | v :: _ => storeWord c w v
  | [] => pure ()

/-- A frame written from `w` upward, its rules checked before (R50). The spec does not say how a frame in the register areas
is split: DESIGN CHOICE, pairs at even and single words at odd addresses, and no access of a frame is misaligned (log
entries 63, 68). -/
def storeFrame (c : CoreId) (w : Nat) : List Nat → X Unit
  | [] => pure ()
  | [v] => storeWord c (w % 0x1000000) (BitVec.ofNat 16 v)
  | a :: b :: rest => do
    if w % 2 = 0 then storePair c (w % 0x1000000) (BitVec.ofNat 16 a) (BitVec.ofNat 16 b)
    else
      storeWord c (w % 0x1000000) (BitVec.ofNat 16 a)
      storeWord c ((w + 1) % 0x1000000) (BitVec.ofNat 16 b)
    storeFrame c (w + 2) rest

/-- A masked write of the bits under `mask` of the word at `w`, its rules checked before (R93, R541). -/
def storeBits (c : CoreId) (w : Nat) (mask val : BitVec 16) : X Unit := do
  farX c w 1
  storeAccess c [(w, mask, val)] true

/-! ## The operand stack (R86) -/

/-- Spill the bottom entry to W:(A4 − 1), its rules checked before. -/
def spillOne (c : CoreId) : X Unit := do
  let r ← regsX c
  match r.opstk.getLast? with
  | none => pure ()
  | some v =>
    let a := (r.getA 4 + 0xFFFFFF) % 0x1000000
    farX c a 1
    storeWord c a v
    modR c (fun r => { (r.setA 4 a) with opstk := r.opstk.dropLast })

/-- Spill up to `n` entries, bottom first (R87). -/
def spillN (c : CoreId) : Nat → X Unit
  | 0 => pure ()
  | n + 1 => do roomX c 1; spillOne c; spillN c n

/-- The words that a spill of every on-tile entry would write: first address and number. -/
def RegSet.spillSpan (r : RegSet) : Nat × Nat :=
  ((r.getA 4 + 0x1000000 - r.opstk.length) % 0x1000000, r.opstk.length)

/-- Spill every on-tile entry, once every word of the spill has passed its rules (R50). -/
def spillAll (c : CoreId) : X Unit := do
  let (w, n) := (← regsX c).spillSpan
  spanX c true w n
  spillN c n

/-- Push an entry. -/
def push (c : CoreId) (v : Nat) : X Unit := do
  let r ← regsX c
  if 16 ≤ r.opstk.length then
    ruleX c true ((r.getA 4 + 0xFFFFFF) % 0x1000000) 1
    spillOne c
  modR c (fun r => { r with opstk := BitVec.ofNat 16 v :: r.opstk })

/-- Pop an entry; an empty tile stack refills from W:A4. -/
def pop (c : CoreId) : X Nat := do
  let r ← regsX c
  match r.opstk with
  | v :: rest =>
    modR c (fun r => { r with opstk := rest })
    return v.toNat
  | [] =>
    let a := r.getA 4
    ruleX c false a 1
    farX c a 1
    let v ← readWord c a
    setA c 4 (a + 1)
    return v.toNat

end Sys2Proof.Machine
end

