-- ==== Sys2Proof/Machine/IsaTrap.lean ====
section
/-! DEFINITION. Taking a trap (R82, R84, R109, R126, R127), entering an event (R121, R122), the fences of a core, and how
one instruction runs: when it may issue, its fetch, its effect, and what its early end does. -/

namespace Sys2Proof.Machine

/-- The core still issues: no stop and, on a tile, no fatal machine check (R136). -/
def Dev.alive (d : Dev) (c : CoreId) : Bool :=
  !(c.val < 16 && d.sys.fatal) && ((d.core c).inSet1 || (d.core c).run0 == .active)

/-- The core can issue an instruction: not held in reset, not waiting (R90), not halted by debug, its strand begun. -/
def Dev.canIssue (d : Dev) (c : CoreId) : Bool :=
  d.alive c && !d.sys.held && (d.core c).wait == .none && (!(d.core c).halted || (d.core c).stepOk)
    && ((d.core c).inSet1 || !(d.core c).t4Preload)

/-! ## The access trap (R126, R127) -/

/-- The access vector of a core, when access traps go to one. -/
def Dev.accVec (d : Dev) (c : CoreId) : Option Nat :=
  if c.val < 16 then
    if d.flag (R.TILE_ACC_VEC_EN c.val) then some (d.get (R.TILE_ACC_VEC_VEC c.val)) else none
  else some 0x44

/-- The emulation vector of a core, when emulation traps go to one (R82). -/
def Dev.emuVec (d : Dev) (c : CoreId) : Option Nat :=
  if c.val < 16 then
    if d.flag (R.TILE_EMU_VEC_EN c.val) then some (d.get (R.TILE_EMU_VEC_VEC c.val)) else none
  else some 0x40

/-- The words of a frame below A7: first address. -/
def RegSet.frameBase (r : RegSet) (n : Nat) : Nat := (r.getA 7 + 0x1000000 - n) % 0x1000000

/-- Push `ws` below A7, clear MODE and continue at `vec`. -/
def pushTrap (c : CoreId) (ws : List Nat) (vec : Nat) : X Unit := do
  let base := (← regsX c).frameBase ws.length
  spanX c true base ws.length
  frameFarX c base ws.length
  storeFrame c base ws
  modR c (fun r => { (r.setA 7 base) with sr := srPut r.sr srMode false, pc := BitVec.ofNat 21 vec })

/-- The frame of Table 5.3. -/
def Dev.accFrame (d : Dev) (c : CoreId) (kind addr : Nat) : List Nat :=
  let r := (d.core c).act
  [1, if kind = 8 then 0 else d.pWord c r.pc.toNat, kind, r.pc.toNat % 65536, r.pc.toNat / 65536, r.sr.toNat,
   addr % 65536, addr / 65536 % 256]

/-- The device after what a core pushed: as pushed; after the machine check or the stop that the push met; or as it was,
while the push waits. `acc`: what an access error of the push does. -/
def pushed (c : CoreId) (d0 : Dev) (acc : Nat → Nat → Dev) (r : Except Exn (Unit × Dev)) : Dev :=
  match r with
  | .ok (_, d') => d'
  | .error (.acc k a _) => acc k a
  | .error (.mc d' gs) => d'.coreMcs c gs
  | .error (.gone d') => d'
  | .error _ => d0

/-- The access trap of a core at its PC (R126): with no vector, or when the push is itself refused, the core stops under
R84 (R127). -/
def Dev.takeAcc (c : CoreId) (kind addr : Nat) (drop : Bool) (d0 : Dev) : Dev :=
  let d := if drop then d0.updCore c (fun s => { s with latch := .empty }) else d0
  let d := (d.accessError (coreUnit c) kind addr).t4Break c 4
  match d.accVec c with
  | none => d.stopCore c
  | some vec =>
    pushed c d0 (fun k a => (d.accessError (coreUnit c) k a).stopCore c) ((pushTrap c (d.accFrame c kind addr) vec).run d)

/-! ## The emulation trap and TRAP (R82, R84, R109) -/

/-- The frame of Table 3.16. -/
def Dev.emuFrame (d : Dev) (c : CoreId) (kind word : Nat) : List Nat :=
  let r := (d.core c).act
  [kind, word, d.pWord c (r.pc.toNat + 1), r.pc.toNat % 65536, r.pc.toNat / 65536, r.sr.toNat]

/-- In stack mode, spill the operand stack (R87). -/
def leaveStack (c : CoreId) : X Unit := do
  if srBit (← getSr c) srMode then spillAll c

/-- The broken rule with the lower address. -/
def lowerErr (x y : Option (Nat × Nat)) : Option (Nat × Nat) :=
  match x, y with
  | some a, some b => if a.2 ≤ b.2 then some a else some b
  | some a, none => some a
  | none, y => y

/-- Push the frame; in stack mode spill the operand stack first, once every word of both has passed its rules (R50). -/
def pushEmu (c : CoreId) (kind word vec : Nat) : X Unit := do
  let d ← get
  let r ← regsX c
  let (w, n) := if srBit r.sr srMode then r.spillSpan else (0, 0)
  breakX (lowerErr (d.spanRule c true w n) (d.spanRule c true (r.frameBase 6) 6)) false
  leaveStack c
  if n != 0 then roomX c 6 else pure ()
  pushTrap c ((← get).emuFrame c kind word) vec

/-- The emulation trap (`kind` 2) or TRAP (`kind` 3) of a core at its PC. -/
def Dev.takeEmu (c : CoreId) (kind word : Nat) (d0 : Dev) : Dev :=
  let d := d0.t4Break c 4
  match d.emuVec c with
  | none => d.stopCore c
  | some vec => pushed c d0 (fun k a => d.takeAcc c k a false) ((pushEmu c kind word vec).run d)

/-! ## One instruction -/

/-- The instruction takes effect with the PC past it. The spec gives no rule for the PC after P:0x1F_FFFF: DESIGN CHOICE,
the 21-bit PC wraps to P:0 (log entry 64). -/
def issueX (c : CoreId) (len : Nat) (body : X Unit) : X Unit := do
  let pc ← getPc c
  setPc c (pc + len)
  body

/-- A fetch outside the locked range breaks the T4 contract (Table 5.6, cause 1). -/
def Dev.fetchBreak (c : CoreId) (len : Nat) (d : Dev) : Dev :=
  let p := (d.core c).act.pc.toNat
  let b := (d.core c).t4Base.toNat
  if p < b || b + 4096 < p + len then d.t4Break c 1 else d

/-- The instruction has issued: a single step is over, and after a short-form bit instruction of set 0 of a tile (`run`)
the rung run goes on with the next word of the same 4-word fetch (R69). -/
def Dev.issued (c : CoreId) (run : Bool) (pc : BitVec 21) (d : Dev) : Dev :=
  d.updCore c (fun s => { s with
    stepOk := false
    runAt := if run && c.val < 16 && !s.inSet1 && pc.toNat % 4 != 3 then some (pc + 1) else none })

/-- How an instruction of core `c` at `pc` ends: with its effect, or with what its early end does to the device `d1` that
its fetch left; one that waits leaves the device `d0` from before its fetch. -/
def Dev.ended (c : CoreId) (run : Bool) (pc : BitVec 21) (d0 d1 : Dev) (r : Except Exn (Unit × Dev)) : Dev :=
  match r with
  | .ok (_, d') => d'.issued c run pc
  | .error .emu => (d1.takeEmu c 2 (d1.pWord c pc.toNat)).issued c false pc
  | .error (.trap u) => (d1.takeEmu c 3 (0x0800 + u)).issued c false pc
  | .error (.acc k a drop) => (d1.takeAcc c k a drop).issued c false pc
  | .error (.mc d' gs) => (d'.coreMcs c gs).issued c false pc
  | .error (.gone d') => d'.issued c false pc
  | .error .stall => d0

/-- A core issues one instruction of `len` words, which decodes with MODE = `m` where given: its words are fetched, then it
takes effect. A core that cannot issue leaves the device as it is. A detector's mismatch is met before the instruction takes
effect (R21, R135). `run`: a short-form bit instruction. -/
def Dev.runInstr (c : CoreId) (len : Nat) (m : Option Bool) (body : X Unit) (d : Dev) (run : Bool := false) : Dev :=
  let r := (d.core c).act
  if d.canIssue c && (m == none || m == some (srBit r.sr srMode)) then
    match (d.core c).trip with
    | some k => d.coreTrip c k
    | none =>
      let d1 := d.fetchBreak c len
      match (fetchX c r.pc.toNat len).run d1 with
      | .ok (_, d2) => Dev.ended c run r.pc d d2 ((issueX c len body).run d2)
      | .error e => Dev.ended c run r.pc d d1 (.error e)
  else d

/-- A native instruction. -/
def Dev.native (c : CoreId) (len : Nat) (body : X Unit) (d : Dev) : Dev := d.runInstr c len (some false) body

/-- A bit instruction that the rung unit may issue within a run: a short form (R69). -/
def Dev.bitInstr (c : CoreId) (len : Nat) (body : X Unit) (d : Dev) : Dev :=
  d.runInstr c len (some false) body (run := len == 1)

/-- An instruction of stack mode. -/
def Dev.stackInstr (c : CoreId) (body : X Unit) (d : Dev) : Dev := d.runInstr c 1 (some true) body

/-- The instruction waits: PC stays at it (R90). -/
def waitX (c : CoreId) (w : Wait) : X Unit := do
  let pc ← getPc c
  setPc c (pc + 0x1FFFFF)
  modC c (fun s => { s with wait := w })

/-- A wait of a core that still runs (R136). -/
def Dev.waiting (d : Dev) (c : CoreId) : Wait := if d.alive c then (d.core c).wait else .none

/-- A wait ends: the core goes on after the waiting instruction, which is one word long. -/
def Dev.endWait (c : CoreId) (d : Dev) : Dev :=
  d.updCore c (fun s =>
    { (s.setAct { s.act with pc := s.act.pc + 1 }) with wait := .none })

/-! ## Event entry (R121 to R125) -/

/-- The latch words of the event frame (Table 5.2): [15:14] of word +1, the latched word, the register address. -/
def PairLatch.frame : PairLatch → Nat × Nat × Nat
  | .empty => (0, 0, 0)
  | .read r hi => (0x8000, hi.toNat, r)
  | .write r lo => (0xC000, lo.toNat, r)

/-- The latch that words +1, +2, +6 and +7 restore (R123). -/
def PairLatch.ofFrame (w1 w2 reg : Nat) : PairLatch :=
  if tst w1 15 then
    if tst w1 14 then .write reg (BitVec.ofNat 16 w2) else .read reg (BitVec.ofNat 16 w2)
  else .empty

/-- The frame of Table 5.2. -/
def CoreSt.eventFrame (s : CoreSt) (src : Nat) : List Nat :=
  let (v, w, r) := s.latch.frame
  [4, v + src, w, s.s0.pc.toNat % 65536, s.s0.pc.toNat / 65536, s.s0.sr.toNat, r % 65536, r / 65536]

/-- The entry of event `e`, its spill done: the frame is pushed below EVT_STK.SP, and set 1 begins at the handler. -/
def entryX (t : Fin 16) (e : PendEv) : X Unit := do
  let c := tileCore t
  let sp := (← get).get (R.TILE_EVT_STK_SP t.val)
  let base := (sp + 0x1000000 - 8) % 0x1000000
  let s ← coreX c
  spanX c true base 8
  storeFrame c base (s.eventFrame e.src)
  modC c (fun s => { s with
    s1 := { (s.s1.setA 7 base) with sr := 0, pc := e.pc }
    inSet1 := true, strandSince := false, latch := .empty, wait := .none, curTask := e.task, runAt := none
    pend := s.pend.filter (fun p => p.src != e.src) })

/-- A native word is a short-form bit instruction: groups 0x1 and 0x2, and group 0x3 with [11] = 0 except MOVB (R69). -/
def shortForm (w : Nat) : Bool := w / 4096 == 1 || w / 4096 == 2 || (w / 4096 == 3 && w / 2048 % 2 == 0 && w / 256 % 8 != 7)

/-- Set 0 stands in the middle of a rung run, where no event enters (R90). -/
def Dev.midRun (d : Dev) (t : Fin 16) : Bool :=
  let s := d.core (tileCore t)
  s.run0 == .active && s.runAt == some s.s0.pc && shortForm (d.pWord (tileCore t) s.s0.pc.toNat)

/-- Set 0 in T4 mode stands at a FENCE.ALL, or its strand has not begun (R141). -/
def Dev.t4Entry (d : Dev) (t : Fin 16) : Bool :=
  let s := d.core (tileCore t)
  s.run0 != .active || !d.t4On (tileCore t) || s.t4Preload || d.pWord (tileCore t) s.s0.pc.toNat == 0x0503

/-- The earliest pending event may enter now (R90, R121, R124, R136, R141, R188): set 1 is not active, no swap holds entry,
no rung run is in progress, and a strand in T4 mode stands at a FENCE.ALL. -/
def Dev.entryOpen (d : Dev) (t : Fin 16) : Bool :=
  let s := d.core (tileCore t)
  !s.inSet1 && !s.halted && !d.sys.fatal && !d.sys.held && !d.prog.swapWait && d.get R.PROG_STAT_STATE != 5
    && !d.midRun t && d.t4Entry t

/-- EVENT_ENTRY: what set 0 has on its operand stack is spilled (R87), then the frame is pushed. A spill that is refused
takes the access trap of set 0; a refused frame push stops the tile (R122). Loads of set 0 complete into set 0 later. -/
def Dev.eventEntry (t : Fin 16) (d0 : Dev) : Dev :=
  let c := tileCore t
  match (d0.core c).pend with
  | [] => d0
  | e :: _ =>
    if d0.entryOpen t then
      let n := if srBit (d0.core c).s0.sr srMode then (d0.core c).s0.opstk.length else 0
      match (leaveStack c).run d0 with
      | .ok (_, d1) =>
        pushed c d0 (fun k a => (d1.accessError (coreUnit c) k a).stopCore c)
          ((do if n != 0 then roomX c 8 else pure (); entryX t e).run d1)
      | r => pushed c d0 (fun k a => d0.takeAcc c k a false) r
    else d0

end Sys2Proof.Machine
end

