-- ==== Sys2Proof/Machine/RegCmd.lean ====
section
/-! DEFINITION. A register write as a command: the access rules for a core (Table 2.5) and for the host (R47, R51), then
the write itself. -/

namespace Sys2Proof.Machine

/-- The host region of the register at even address `a` (Table 2.3, Table 2.4). -/
def hostRegion (a : Nat) : Nat :=
  if 0x1000000 ≤ a || a < 0xE0000 then 3
  else if a < 0xE0100 then 0
  else if a < 0xE0800 then 1
  else if a < 0xE1000 then 2
  else if a < 0xE1800 then 5
  else if a < 0xE2000 then 6
  else if a < 0xE2400 then 7
  else if a < 0xE2800 then 5
  else if a < 0xE2C00 then 6
  else if a < 0xE3000 then 3
  else if a < 0xE4000 then 4
  else if a < 0xE8000 then 2
  else 4

/-- The BAR0 offset of the register at even address `a` (R45). A host-only register stands under 0x100_0000 + offset / 2. -/
def hostOffset (a : Nat) : Nat :=
  if 0x1000000 ≤ a then (a - 0x1000000) * 2
  else if a < 0xE0000 then 0x20000 + (a - 0xD0000) * 2
  else (a - 0xE0000) * 2

/-- The protection fuses grant the host a read or a write of a region (R47, Table 21.5). -/
def Dev.hostMay (d : Dev) (region : Nat) (write : Bool) : Bool :=
  (region == 0 && !write) || tst (d.rd R.PS_HREG.addr).toNat (2 * region + b2n write)

/-- A host access error (R51): logged for herd 15, member 11, and event 112. -/
def Dev.hostError (kind addr : Nat) (d : Dev) : Dev := (d.accessError 0xFB kind addr).raise 112

/-- Even addresses of the register areas and the host-only registers. -/
def regArea (a : Nat) : Bool := (0xD0000 ≤ a && a < 0xEC000) || 0x1000000 ≤ a

/-- The host writes the register at even address `a`. In the Dead state every write is discarded (R511). -/
def Dev.hostRegWrite (a : Nat) (w : Wr) (d : Dev) : Dev :=
  if d.d3hot then d.unsupported
  else if !regArea a || d.flag R.BOOT_STAT_DEAD then d.hostError 1 (hostOffset a)
  else if d.hostMay (hostRegion a) true then d.regWrite .host a w
  else d.hostError 4 (hostOffset a)

/-- Core `c` writes the register at even address `a` in one 32-bit access; no core reaches the host-only registers. -/
def Dev.coreRegWrite (c : CoreId) (a : Nat) (w : Wr) (d : Dev) : Dev :=
  match d.accessRule c true a 2 with
  | some (k, e) => if d.alive c then d.takeAcc c k e false else d
  | none => d.regWrite (.core c) a w

/-- A write of the register at even address `a` by a requester. -/
def Dev.regCmd (r : Req) (a : Nat) (w : Wr) (d : Dev) : Dev :=
  match r with
  | .core c => if a < 0x1000000 then d.coreRegWrite c a w else d
  | .host => d.hostRegWrite a w

/-- A write of a whole register that keeps its RW and RW1 fields, gives `n` to field `f`, and 0 to every other field. -/
def Dev.actWr (d : Dev) (f : Fld) (n : Nat) : Wr :=
  match regFind f.addr with
  | some (row, _) => Wr.whole (f.ins (d.rd f.addr &&& lockable row.fields) n)
  | none => Wr.whole (f.ins 0 n)

/-- The command that starts the action of field `f` with value `n`. -/
def Dev.actCmd (r : Req) (f : Fld) (n : Nat) (d : Dev) : Dev := d.regCmd r f.addr (d.actWr f n)

/-- The command that writes a whole register. -/
def Dev.wholeCmd (r : Req) (a : Nat) (v : BitVec 32) (d : Dev) : Dev := d.regCmd r a (Wr.whole v)

/-- What a host read of the register at even address `a` returns, and whether its completion is poisoned, with its side
effects (R47, R51, R336). In the Dead state only the identity block answers (R511). -/
def Dev.hostRegRead (a : Nat) (d : Dev) : BitVec 32 × Bool × Dev :=
  if d.flag R.BOOT_STAT_DEAD && hostRegion a != 0 then (0, false, d)
  else if !regArea a then (0, false, d.hostError 1 (hostOffset a))
  else if d.hostMay (hostRegion a) false then d.unitRegRead 0xFB .host a
  else (0, false, d.hostError 4 (hostOffset a))

/-- A read of the register at even address `a` as a command: its side effects, and what the host receives (R47, R51). A
core's read of a register breaks no rule of Table 2.5. -/
def Dev.readCmd (r : Req) (a : Nat) (d : Dev) : Dev :=
  match r with
  | .core c =>
    if regArea a && a < 0x1000000 then
      let ((_, bad), d) := d.regFetch (.core c (d.core c).inSet1) a
      d.coreMcs c bad
    else d
  | .host =>
    if d.d3hot then d.unsupported.emit (.cfg false 0)
    else
      let (v, ep, d) := d.hostRegRead a
      d.emit (.bar [v] ep)

end Sys2Proof.Machine
end

