-- ==== Sys2Proof/Machine/BackupCommands.lean ====
section
/-! DEFINITION. The commands of the backup clock (20_backup_clock.md): register accesses, its ticks' deadlines, and its
supply and oscillator. -/

namespace Sys2Proof.Machine

/-- BK_SET: BK_CMD.SET (R476). -/
def execBkSet (r : Req) (s : State) : Host.Outcome State Fault Refusal := s.onDev (fun d => d.actCmd r R.BK_CMD_SET 1)

/-- BK_LOAD (R476, R477). -/
def execBkLoad (s : State) : Host.Outcome State Fault Refusal := s.onAny Dev.bkLoad

/-- BK_WAKE_FIRE (R479). -/
def execBkWakeFire (s : State) : Host.Outcome State Fault Refusal := s.onAny Dev.bkWakeFire

/-- BK_WAKE_WRITE (R478). -/
def execBkWakeWrite (r : Req) (v : BitVec 32) (s : State) : Host.Outcome State Fault Refusal :=
  s.onDev (fun d => d.wholeCmd r R.BK_WAKE.addr v)

/-- BK_SUB_READ: the reader's latch takes SEC (R475). -/
def execBkSubRead (r : Req) (s : State) : Host.Outcome State Fault Refusal := s.onDev (fun d => d.readCmd r R.BK_SUB.addr)

/-- BK_CAL_PERIOD (R474). -/
def execBkCalPeriod (s : State) : Host.Outcome State Fault Refusal := s.onAny Dev.bkCalPeriod

/-- BK_LOCK (R470). -/
def execBkLock (s : State) : Host.Outcome State Fault Refusal := s.onAny Dev.bkLock

/-- BK_UNLOCK (R471). -/
def execBkUnlock (s : State) : Host.Outcome State Fault Refusal := s.onAny Dev.bkUnlock

/-- BK_POWER_UP (R481). -/
def execBkPowerUp (s : State) : Host.Outcome State Fault Refusal := s.onAny Dev.bkPowerUp

/-- BK_BROWNOUT (R482). -/
def execBkBrownout (s : State) : Host.Outcome State Fault Refusal := s.onAny Dev.bkBrownout

/-- OSC_STOP (R483). -/
def execOscStop (s : State) : Host.Outcome State Fault Refusal := s.onAny Dev.oscStop

/-- OSC_RESTART (R483). -/
def execOscRestart (s : State) : Host.Outcome State Fault Refusal := s.onAny Dev.oscRestart

/-- BACKUP_SUPPLY_RETURN (R482, R525). -/
def execBackupSupplyReturn (s : State) : Host.Outcome State Fault Refusal := s.onAny Dev.bkReturn

end Sys2Proof.Machine
end

