-- ==== Sys2Proof/Machine/CanCommands.lean ====
section
/-! DEFINITION. The commands of the CAN channels (12_can_fd.md): register writes and the events on the bus. An event
whose state does not hold changes nothing. -/

namespace Sys2Proof.Machine

/-- CAN_START: CMD.START (R294). -/
def execCanStart (r : Req) (c : Fin 8) (s : State) : Host.Outcome State Fault Refusal :=
  s.onDev (fun d => d.actCmd r (R.CAN_CMD_START c.val) 1)

/-- CAN_STOP: CMD.STOP (Table 12.7). -/
def execCanStop (r : Req) (c : Fin 8) (s : State) : Host.Outcome State Fault Refusal :=
  s.onDev (fun d => d.actCmd r (R.CAN_CMD_STOP c.val) 1)

/-- RECOVER: CMD.RECOVER (R306). -/
def execRecover (r : Req) (c : Fin 8) (s : State) : Host.Outcome State Fault Refusal :=
  s.onDev (fun d => d.actCmd r (R.CAN_CMD_RECOVER c.val) 1)

/-- CAN_SYNC_DONE (Table 12.7). -/
def execCanSyncDone (c : Fin 8) (s : State) : Host.Outcome State Fault Refusal := s.onDev (Dev.canSynced c.val)

/-- CAN_STOP_DONE (Table 12.7). -/
def execCanStopDone (c : Fin 8) (s : State) : Host.Outcome State Fault Refusal := s.onDev (Dev.canStopped c.val)

/-- RECOVER_DONE (R306). -/
def execRecoverDone (c : Fin 8) (s : State) : Host.Outcome State Fault Refusal := s.onDev (Dev.canRecovered c.val)

/-- TXREQ_WRITE (R302). -/
def execTxreqWrite (r : Req) (c : Fin 8) (v : BitVec 32) (s : State) : Host.Outcome State Fault Refusal :=
  s.onDev (fun d => d.wholeCmd r (R.CAN_TXREQ c.val).addr v)

/-- TXCAN_WRITE (R302). -/
def execTxcanWrite (r : Req) (c : Fin 8) (v : BitVec 32) (s : State) : Host.Outcome State Fault Refusal :=
  s.onDev (fun d => d.wholeCmd r (R.CAN_TXCAN c.val).addr v)

/-- MRA_WRITE (R296). -/
def execMraWrite (r : Req) (c : Fin 8) (v : BitVec 13) (s : State) : Host.Outcome State Fault Refusal :=
  s.onDev (fun d => d.wholeCmd r (R.CAN_MRA c.val).addr (v.setWidth 32))

/-- MRW_WRITE (R296, R297). -/
def execMrwWrite (r : Req) (c : Fin 8) (v : BitVec 32) (s : State) : Host.Outcome State Fault Refusal :=
  s.onDev (fun d => d.wholeCmd r (R.CAN_MRW c.val).addr v)

/-- MRR_READ (R296). -/
def execMrrRead (r : Req) (c : Fin 8) (s : State) : Host.Outcome State Fault Refusal :=
  s.onDev (fun d => d.readCmd r (R.CAN_MRR c.val).addr)

/-- RXQA_WRITE (R301). -/
def execRxqaWrite (r : Req) (c : Fin 8) (q : Fin 2) (n : BitVec 7) (s : State) : Host.Outcome State Fault Refusal :=
  s.onDev (fun d => d.wholeCmd r (R.CAN_RXQA c.val q.val).addr (n.setWidth 32))

/-- CAN_FRAME_RECEIVE (R299, R300). -/
def execCanFrameReceive (c : Fin 8) (f : CanFrame) (s : State) : Host.Outcome State Fault Refusal := s.onDev (Dev.canFrame c.val f)

/-- CAN_BUS_ERROR (R306). -/
def execCanBusError (c : Fin 8) (e : CanErr) (s : State) : Host.Outcome State Fault Refusal := s.onDev (Dev.canError c.val e)

/-- CAN_TX_CHOICE (R303). -/
def execCanTxChoice (c : Fin 8) (s : State) : Host.Outcome State Fault Refusal := s.onDev (Dev.canChoice c.val)

/-- CAN_TX_END (R305). -/
def execCanTxEnd (c : Fin 8) (o : CanTx) (ldly : Option Nat) (s : State) : Host.Outcome State Fault Refusal :=
  s.onDev (Dev.canTxEnd c.val o ldly)

/-- TAT_DEADLINE (R304). -/
def execTatDeadline (c : Fin 8) (b : Fin 32) (s : State) : Host.Outcome State Fault Refusal := s.onDev (Dev.tatDeadline c.val b.val)

/-- TAT_TIME_REACHED: the buffer has become eligible; on an idle bus the next frame is chosen at once (R303, R304). -/
def execTatTimeReached (c : Fin 8) (b : Fin 32) (idle : Bool) (s : State) : Host.Outcome State Fault Refusal :=
  s.onDev (Dev.tatReached c.val b.val idle)

/-- CAN_Q_PICKUP (R312). -/
def execCanQPickup (c : Fin 8) (s : State) : Host.Outcome State Fault Refusal := s.onDev (Dev.canQPickup c.val)

/-- LOM_EXIT (R307). -/
def execLomExit (c : Fin 8) (s : State) : Host.Outcome State Fault Refusal := s.onDev (Dev.lomExit c.val)

end Sys2Proof.Machine
end

