-- ==== Sys2Proof/Machine/CoreCommands.lean ====
section
/-! DEFINITION. The commands of a tile besides its instructions: T4 mode (R137, R138, R143) and authenticated debug
(R497). -/

namespace Sys2Proof.Machine

/-- T4_MODE_WRITE (R137). -/
def execT4ModeWrite (r : Req) (t : Fin 16) (v : Bool) (s : State) : Host.Outcome State Fault Refusal :=
  s.onDev (fun d => d.wholeCmd r (R.TILE_CTRL t.val).addr (BitVec.ofNat 32 (b2n v)))

/-- T4_EVENT_TIMEOUT: a preempting event has waited 100 µs in which set 0 has reached no FENCE.ALL (Table 5.6, cause 6). -/
def Dev.t4EventTimeout (t : Fin 16) (d : Dev) : Dev :=
  let s := d.core (tileCore t)
  match s.pend with
  | e :: _ =>
    if s.run0 == .active && !s.inSet1 && max e.ts.toNat s.t4Fence.toNat + 100000 ≤ d.time.toNat then d.t4Break (tileCore t) 6
    else d
  | [] => d

def execT4EventTimeout (t : Fin 16) (s : State) : Host.Outcome State Fault Refusal := s.onDev (Dev.t4EventTimeout t)

/-- T4_PRELOAD_DONE (R138): the locked range is loaded and the strand starts; an uncorrectable granule of program memory is
the tile's machine check. -/
def Dev.t4PreloadDone (t : Fin 16) (d : Dev) : Dev :=
  let c := tileCore t
  if (d.core c).t4Preload then
    match d.icLoad t (d.core c).t4Base.toNat with
    | .ok d => d.updCore c (fun s => { s with t4Preload := false, t4Loaded := true })
    | .error (d, gs) => d.coreMcs c gs
  else d

def execT4PreloadDone (t : Fin 16) (s : State) : Host.Outcome State Fault Refusal := s.onDev (Dev.t4PreloadDone t)

/-- DEBUG_HALT (R143): while authenticated debug is enabled (LC_STAT.DBG_EN), the debug port halts a tile, lets it run
on, or lets a halted tile issue one instruction. A halt and a step break the T4 contract (cause 5). -/
def Dev.debugTile (t : Fin 16) (a : DebugAct) (d : Dev) : Dev :=
  let c := tileCore t
  if d.flag R.LC_STAT_DBG_EN then
    match a with
    | .halt => (d.updCore c (fun s => { s with halted := true, stepOk := false })).t4Break c 5
    | .run => d.updCore c (fun s => { s with halted := false, stepOk := false })
    | .step =>
      if (d.core c).halted then (d.updCore c (fun s => { s with stepOk := true })).t4Break c 5 else d
  else d

def execDebugHalt (t : Fin 16) (a : DebugAct) (s : State) : Host.Outcome State Fault Refusal := s.onDev (Dev.debugTile t a)

end Sys2Proof.Machine
end

