-- ==== Sys2Proof/Machine/ErrorCommands.lean ====
section
/-! DEFINITION. Errors as commands: the patrol scrubber (R23), the clock monitor (R18), the die-to-die link (R11), the
logs (R30, R53), error injection (R24) and the set-up lock (R48). -/

namespace Sys2Proof.Machine

/-- The unit address under which a check found by the patrol scrubber is logged. The spec gives the scrubber no unit
address: a free value, log entry 12. -/
def scrubUnit : Nat := (Config.freeValue 0).toNat % 256

/-- PATROL_SCRUB: the scrubber reads granule `g` of an array (R23). `found`: the error that has arisen there since its
last access; an error that the granule holds already stays the worse of the two. An uncorrectable error of a cache line
invalidates and refetches the line, and counts as corrected (R22). -/
def Dev.patrolScrub (a : Arr) (g : Nat) (found : Ecc) (d : Dev) : Dev :=
  let off := g * 4
  if arrSize a ≤ off then d
  else
    let d := d.setEcc a off (Ecc.worse (d.eccAt a off) found)
    match a with
    | .icache t => d.icScrub scrubUnit t off
    | _ =>
      match d.readGran a off with
      | some d => d
      | none => d.unitMc scrubUnit a off

def execPatrolScrub (a : Arr) (granule : Nat) (found : Ecc) (s : State) : Host.Outcome State Fault Refusal :=
  s.onDev (Dev.patrolScrub a granule found)

/-- CLOCK_LOSS (R18). -/
def Dev.clockLoss (d : Dev) : Dev :=
  { d with sys := { d.sys with fatalClock := true } }.fatalMc 5 0xFC 0

def execClockLoss (s : State) : Host.Outcome State Fault Refusal := s.onDev Dev.clockLoss

/-- DIE_LINK_TIMEOUT (R11): the field die switches all outputs off on its own. -/
def Dev.dieLinkTimeout (d : Dev) : Dev :=
  { d with sys := { d.sys with outsOff := true } }.fioAllOff.fatalMc 6 0xFE 0

def execDieLinkTimeout (s : State) : Host.Outcome State Fault Refusal := s.onDev Dev.dieLinkTimeout

/-- MC_STATUS_WRITE (R30). -/
def execMcStatusWrite (r : Req) (v : BitVec 32) (s : State) : Host.Outcome State Fault Refusal :=
  s.onDev (Dev.wholeCmd r R.MC_STATUS.addr v)
/-- CE_CLR (R22). -/
def execCeClr (r : Req) (s : State) : Host.Outcome State Fault Refusal := s.onDev (Dev.actCmd r R.MC_CTRL_CE_CLR 1)
/-- INJ (R24). -/
def execInj (r : Req) (s : State) : Host.Outcome State Fault Refusal := s.onDev (Dev.actCmd r R.MC_CTRL_INJ 1)
/-- SETUP_LOCK_SET (R48). -/
def execSetupLockSet (r : Req) (s : State) : Host.Outcome State Fault Refusal := s.onDev (Dev.actCmd r R.SETUP_LOCK_LOCK 1)
/-- AE_CLR (R53). -/
def execAeClr (r : Req) (s : State) : Host.Outcome State Fault Refusal := s.onDev (Dev.actCmd r R.AE_STATUS_CLR 1)
/-- AE_LOG_CLEAR (R53). -/
def execAeLogClear (r : Req) (s : State) : Host.Outcome State Fault Refusal := s.onDev (Dev.actCmd r R.AE_STATUS_VALID 1)

end Sys2Proof.Machine
end

