-- ==== Sys2Proof/Machine/FabCommands.lean ====
section
/-! DEFINITION. The commands of the unit fabric (15_unit_fabric.md): timers, received frames, register writes. A timer
whose moment has not come changes nothing. -/

namespace Sys2Proof.Machine

/-- A received frame of one of the given kinds acts as its row says. -/
def Dev.fabRow (l : Nat) (f : FabFrame) (kinds : List Nat) (act : Dev → Dev) (d : Dev) : Dev :=
  d.fabRx l f (fun d => if kinds.contains f.kind.toNat then act d else d)

/-- HELLO_SEND (R369). -/
def execHelloSend (s : State) : Host.Outcome State Fault Refusal := s.onDev Dev.helloSend

/-- HELLO_RECEIVE (R369, R372). -/
def execHelloReceive (l : Fin 4) (f : FabFrame) (s : State) : Host.Outcome State Fault Refusal :=
  s.onDev (Dev.fabRow l.val f [1] (Dev.helloGood l.val f.payload))

/-- HELLO_TIMEOUT (R369). -/
def execHelloTimeout (l : Fin 4) (s : State) : Host.Outcome State Fault Refusal := s.onDev (Dev.helloTimeout l.val)

/-- FABRIC_LINK_LOSS (R369, R383). -/
def execFabricLinkLoss (l : Fin 4) (s : State) : Host.Outcome State Fault Refusal := s.onDev (Dev.fabLinkLoss l.val)

/-- FABRIC_BLOCK_LOCK (R369, R494). -/
def execFabricBlockLock (l : Fin 4) (s : State) : Host.Outcome State Fault Refusal :=
  s.onDev (fun d => (d.updLink l.val (fun k => { k with lock := true })).fabBlockLock l.val)

/-- ELECTION_SETTLED (R372). -/
def execElectionSettled (s : State) : Host.Outcome State Fault Refusal := s.onDev Dev.electionSettled

/-- EPOCH_TICK (R372). -/
def execEpochTick (s : State) : Host.Outcome State Fault Refusal := s.onDev Dev.epochTick

/-- ROOT_TIMEOUT (R372). -/
def execRootTimeout (s : State) : Host.Outcome State Fault Refusal := s.onDev Dev.rootTimeout

/-- JOIN_SEND (R373). -/
def execJoinSend (s : State) : Host.Outcome State Fault Refusal := s.onDev Dev.joinSend

/-- JOIN_RECEIVE (R373). -/
def execJoinReceive (l : Fin 4) (f : FabFrame) (s : State) : Host.Outcome State Fault Refusal :=
  s.onDev (Dev.fabRow l.val f [2] (Dev.joinArrive l.val f))

/-- ROOT_ASSIGN (R373). -/
def execRootAssign (s : State) : Host.Outcome State Fault Refusal := s.onDev Dev.rootAssign

/-- ASSIGN_RECEIVE (R373). -/
def execAssignReceive (l : Fin 4) (f : FabFrame) (s : State) : Host.Outcome State Fault Refusal :=
  s.onDev (Dev.fabRow l.val f [3] (Dev.assignArrive f))

/-- LSA_SEND (R374). -/
def execLsaSend (s : State) : Host.Outcome State Fault Refusal := s.onDev Dev.floodLsa

/-- LSA_RECEIVE (R374). -/
def execLsaReceive (l : Fin 4) (f : FabFrame) (s : State) : Host.Outcome State Fault Refusal :=
  s.onDev (Dev.fabRow l.val f [4] (Dev.lsaArrive l.val f))

/-- LSA_EXPIRE (R374). -/
def execLsaExpire (uid : BitVec 64) (s : State) : Host.Outcome State Fault Refusal := s.onDev (Dev.lsaExpire uid.toNat)

/-- FABRIC_FRAME_RECEIVE: a routed frame (R366, R367, R371). -/
def execFabricFrameReceive (l : Fin 4) (f : FabFrame) (s : State) : Host.Outcome State Fault Refusal :=
  s.onDev (Dev.fabRow l.val f [0x10] (Dev.routedArrive f))

/-- PUBLISH_SEND (R376). -/
def execPublishSend (k : Fin 32) (s : State) : Host.Outcome State Fault Refusal := s.onDev (Dev.publishSend k.val)

/-- PUBLISH_RECEIVE (R377, R378). -/
def execPublishReceive (l : Fin 4) (f : FabFrame) (s : State) : Host.Outcome State Fault Refusal :=
  s.onDev (Dev.fabRow l.val f [0x10] (Dev.routedArrive f))

/-- SUB_AGE_TICK (R379). -/
def execSubAgeTick (k : Fin 32) (s : State) : Host.Outcome State Fault Refusal := s.onDev (Dev.subAgeTick k.val)

/-- TSYNC_REQUEST (R381). -/
def execTsyncRequest (s : State) : Host.Outcome State Fault Refusal := s.onDev Dev.tsyncRequest

/-- TSYNC_REQ_RECEIVE (R381). -/
def execTsyncReqReceive (l : Fin 4) (f : FabFrame) (s : State) : Host.Outcome State Fault Refusal :=
  s.onDev (Dev.fabRow l.val f [5] (Dev.tsyncAnswer l.val f))

/-- TSYNC_RESPONSE (R381, R382). -/
def execTsyncResponse (l : Fin 4) (f : FabFrame) (s : State) : Host.Outcome State Fault Refusal :=
  s.onDev (Dev.fabRow l.val f [6] (Dev.tsyncTake f))

/-- TLOCK_TIMEOUT (R382). -/
def execTlockTimeout (s : State) : Host.Outcome State Fault Refusal := s.onDev Dev.tlockTimeout

/-- FAB_CNT_CLR: FAB_CMD.CNT_CLR. -/
def execFabCntClr (r : Req) (s : State) : Host.Outcome State Fault Refusal := s.onDev (fun d => d.actCmd r R.FAB_CMD_CNT_CLR 1)

/-- REJOIN: FAB_CMD.REJOIN (R373). -/
def execRejoin (r : Req) (s : State) : Host.Outcome State Fault Refusal := s.onDev (fun d => d.actCmd r R.FAB_CMD_REJOIN 1)

end Sys2Proof.Machine
end

