-- ==== Sys2Proof/Machine/FieldCommands.lean ====
section
/-! DEFINITION. The commands of the field channels (13_field_channels.md): the tick, samples, events on the pins and the
supply, and register writes. -/

namespace Sys2Proof.Machine

/-- FIELD_TICK (R319). -/
def execFieldTick (s : State) : Host.Outcome State Fault Refusal := s.onDev Dev.fieldTick

/-- FIELD_IMAGE_WRITE (R320). -/
def execFieldImageWrite (s : State) : Host.Outcome State Fault Refusal := s.onDev Dev.fieldImage

/-- FIELD_GROUP_SAMPLE (R316, R317). -/
def execFieldGroupSample (g : Fin 8) (raw : BitVec 4) (s : State) : Host.Outcome State Fault Refusal :=
  s.onDev (Dev.fieldSample g.val raw)

/-- CURRENT_LIMIT_ENTRY (R326). -/
def execCurrentLimitEntry (i : Fin 32) (s : State) : Host.Outcome State Fault Refusal := s.onDev (Dev.limitEntry i.val)

/-- CURRENT_LIMIT_EXIT (R324, R326). -/
def execCurrentLimitExit (i : Fin 32) (s : State) : Host.Outcome State Fault Refusal := s.onDev (Dev.limitExit i.val)

/-- OUTPUT_LATCH (R324). -/
def execOutputLatch (i : Fin 32) (s : State) : Host.Outcome State Fault Refusal := s.onDev (Dev.outputLatch i.val)

/-- THERMAL_SHUTDOWN (R324). -/
def execThermalShutdown (i : Fin 32) (s : State) : Host.Outcome State Fault Refusal := s.onDev (Dev.thermalShutdown i.val)

/-- FIELD_TEMP_WARNING (R326). -/
def execFieldTempWarning (above : Bool) (s : State) : Host.Outcome State Fault Refusal := s.onAny (Dev.tempWarning above)

/-- VFLD_LOCKOUT (R325). -/
def execVfldLockout (s : State) : Host.Outcome State Fault Refusal := s.onAny Dev.vfldLockout

/-- VFLD_RECOVER (R325). -/
def execVfldRecover (s : State) : Host.Outcome State Fault Refusal := s.onAny Dev.vfldRecover

/-- SUPPLY_LOSS (R326). -/
def execSupplyLoss (s : State) : Host.Outcome State Fault Refusal := s.onAny Dev.supplyLoss

/-- VFLD_OK_RESTORE (R326). -/
def execVfldOkRestore (s : State) : Host.Outcome State Fault Refusal := s.onAny Dev.vfldRestore

/-- FIO_RETRY (R324). -/
def execFioRetry (r : Req) (v : BitVec 32) (s : State) : Host.Outcome State Fault Refusal :=
  s.onDev (fun d => d.wholeCmd r R.FIO_RETRY.addr v)

/-- FIO_FAULT_CLEAR (R326). -/
def execFioFaultClear (r : Req) (s : State) : Host.Outcome State Fault Refusal :=
  s.onDev (fun d => d.actCmd r R.FIO_STAT_FIO_FAULT 1)

/-- FIO_DIR_WRITE (R315, R323). -/
def execFioDirWrite (r : Req) (v : BitVec 32) (s : State) : Host.Outcome State Fault Refusal :=
  s.onDev (fun d => d.wholeCmd r R.FIO_DIR.addr v)

/-- PAR_WRITE: FIO_GCFG[g] (R322, R323). -/
def execParWrite (r : Req) (g : Fin 8) (v : BitVec 32) (s : State) : Host.Outcome State Fault Refusal :=
  s.onDev (fun d => d.wholeCmd r (R.FIO_GCFG g.val).addr v)

end Sys2Proof.Machine
end

