-- ==== Sys2Proof/Machine/HenCapture.lean ====
section
/-! DEFINITION. The capture of a Hen record (18_hen_recorder.md, R429 to R432) and the power-fail sequence that ends with
its flush (19_nonvolatile.md, R465, R467). -/

namespace Sys2Proof.Machine

/-- A word of a snapshot: its value, whether it is unmapped, whether its granule is uncorrectable (R430, R431). -/
def Dev.snapWord (w : Nat) (d : Dev) : BitVec 16 × Bool × Bool × Dev :=
  match d.sharedLoc w with
  | .mem a off =>
    let (v, bad, d) := d.unitRead 0xF8 a off
    (v, false, bad, d)
  | .reg r =>
    let (v, bad, d) := d.unitRegRead 0xF8 .unit (r / 2 * 2)
    (BitVec.ofNat 16 (v.toNat / 65536 ^ (r % 2)), false, bad, d)
  | .none => (0, true, false, d)

/-- The words of a snapshot list: addresses in order. -/
def Dev.snapWords : List Nat → Dev → List (BitVec 16) × Bool × Bool × Dev
  | [], d => ([], false, false, d)
  | w :: ws, d =>
    let (v, u, p, d) := d.snapWord w
    let (vs, us, ps, d) := Dev.snapWords ws d
    (v :: vs, u || us, p || ps, d)

/-- The addresses that the ranges of class `c` name, at most 48 (R430). -/
def Dev.snapList (d : Dev) (c : Nat) : List Nat :=
  ((List.range 4).flatMap (fun k =>
    (List.range (d.get (R.HEN_RANGE_CNT c k))).map (· + d.get (R.HEN_RANGE_ADDR c k)))).take 48

/-- HEN_CAPTURE: the oldest waiting occurrence becomes a record, and a flush starts where R439 has one. -/
def Dev.henCapture (d : Dev) : Dev :=
  match d.hen.occ with
  | [] => d
  | o :: rest =>
    let c := d.henClass o.src
    let seq := d.get R.HEN_SEQ + 1
    let (snap, unmap, poison, d) := d.snapWords (d.snapList c)
    let late := 2000 < d.time.toNat - o.ts.toNat
    let auto := d.flag R.HEN_CFG_AUTOFL && d.henUnflushed + 1 == 256
    let flush := d.flag (R.HEN_CLS_FLUSH c) || o.special || o.src == 0 || o.src == 2 || auto
    let cls := c + 16 * b2n flush + 32 * d.get R.LC_STAT_TEST + 64 * b2n d.henKey.isNone + 128 * b2n unmap
    let ws := d.henRecord seq o cls (b2n late + 2 * b2n poison) snap d.hen.lost
    let d := (d.updHen (fun h => { h with occ := rest, lost := 0 })).henStore seq ws
    if flush then d.henFlush (o.src == 2 || (o.special && o.src == 1) || d.directOnly) else d

/-- Capture `n` waiting occurrences. -/
def Dev.henCaptures : Nat → Dev → Dev
  | 0, d => d
  | n + 1, d => Dev.henCaptures n d.henCapture

/-- Every waiting occurrence is captured, and everything unflushed is written on the direct path (R441, R465, R500). -/
def Dev.henDrain (d : Dev) : Dev :=
  let d := d.henCaptures d.hen.occ.length
  let d := d.henFlushEnd.henFlushEnd
  if d.henUnflushed == 0 then d else (d.henFlush true).henFlushEnd

/-! ## The power-fail sequence (Table 19.4) -/

/-- PFW_N goes low. The sequence starts on a falling edge while the device is out of reset (R529). -/
def Dev.powerFail (d : Dev) : Dev :=
  let edge := !d.flag R.NV_STAT_PFW && d.nv.armed && !d.sys.held
  let d := (d.setF R.NV_STAT_PFW).updNv (fun n => { n with armed := false })
  if edge then
    let d := d.updNv (fun n => { n with
      closed := true, pfRun := true, wr := n.wr.map (fun e => (e.1, { e.2 with trigs := 0, pend := false })) })
    d.pairNotice.raise 2
  else d

/-- What the NV port has in progress ends: the verified pass, the record operation, the ring updates. -/
def Dev.nvFinish (d : Dev) : Dev :=
  let d := ((d.clrF R.NV_STAT_VBUSY).updNv (fun n => { n with vpage := none })).nvrDone []
  let d := upTo 16 (fun k d => if (d.wr k).busy then d.wringWrite k [] else d) d
  d.drainDirect d.nv.buf.length

/-- POWER_FAIL_DONE: the sequence ends (Table 19.4). -/
def Dev.powerFailDone (d : Dev) : Dev :=
  if d.nv.pfRun then
    let d := upTo 16 (fun k d => d.wringFinal k) d.nvFinish
    let d := d.henDrain
    ((((d.setF R.NV_STAT_PFDONE).raise 11).setF R.NV_STAT_PF).fioAllOff).updNv (fun n => { n with pfRun := false })
  else d

/-- POWER_FAIL_RECOVER: PFW_N has been high for 10 ms without a reset (R467). -/
def Dev.powerFailRecover (d : Dev) : Dev :=
  if d.nv.closed && !d.nv.pfRun && !d.flag R.NV_STAT_PFW then
    ((d.clrF R.NV_STAT_PFDONE).updNv (fun n => { n with closed := false })).henDue
  else d

/-- PFW_N goes high (R529). -/
def Dev.pfwHigh (d : Dev) : Dev := (d.clrF R.NV_STAT_PFW).updNv (fun n => { n with armed := true })

end Sys2Proof.Machine
end

