-- ==== Sys2Proof/Machine/HenCommands.lean ====
section
/-! DEFINITION. The commands of the Hen event recorder (18_hen_recorder.md). -/

namespace Sys2Proof.Machine

/-- HEN_CAPTURE (R429 to R432). -/
def execHenCapture (s : State) : Host.Outcome State Fault Refusal := s.onDev Dev.henCapture

/-- HEN_FLUSH_DONE (R439). -/
def execHenFlushDone (s : State) : Host.Outcome State Fault Refusal := s.onDev Dev.henFlushEnd

/-- HEN_FLUSH: HEN_CMD.FLUSH (R439). -/
def execHenFlush (r : Req) (s : State) : Host.Outcome State Fault Refusal := s.onDev (fun d => d.actCmd r R.HEN_CMD_FLUSH 1)

/-- VERIFY: HEN_CMD.VERIFY (R435). -/
def execVerify (r : Req) (s : State) : Host.Outcome State Fault Refusal := s.onDev (fun d => d.actCmd r R.HEN_CMD_VERIFY 1)

/-- HEN_VERIFY_DONE (R435). -/
def execHenVerifyDone (s : State) : Host.Outcome State Fault Refusal := s.onDev Dev.henVerifyDone

/-- HEN_CNT_CLR: HEN_CMD.CNT_CLR. -/
def execHenCntClr (r : Req) (s : State) : Host.Outcome State Fault Refusal := s.onDev (fun d => d.actCmd r R.HEN_CMD_CNT_CLR 1)

/-- ERASE_ALL: HEN_CMD.ERASE_ALL (R445). -/
def execEraseAll (r : Req) (s : State) : Host.Outcome State Fault Refusal := s.onDev (fun d => d.actCmd r R.HEN_CMD_ERASE_ALL 1)

/-- ERASE_RUN: HEN_CMD.ERASE_RUN (R445). -/
def execEraseRun (r : Req) (s : State) : Host.Outcome State Fault Refusal := s.onDev (fun d => d.actCmd r R.HEN_CMD_ERASE_RUN 1)

/-- ERASE_RUN_DONE (R445). -/
def execEraseRunDone (s : State) : Host.Outcome State Fault Refusal := s.onDev Dev.henEraseRunDone

/-- HEN_RANGE_WRITE (R431). -/
def execHenRangeWrite (r : Req) (c : Fin 16) (k : Fin 4) (v : BitVec 32) (s : State) : Host.Outcome State Fault Refusal :=
  s.onDev (fun d => d.wholeCmd r (R.HEN_RANGE c.val k.val).addr v)

/-- HEN_RSEL_WRITE (R444). -/
def execHenRselWrite (r : Req) (v : BitVec 32) (s : State) : Host.Outcome State Fault Refusal :=
  s.onDev (fun d => d.wholeCmd r R.HEN_RSEL.addr v)

end Sys2Proof.Machine
end

