-- ==== Sys2Proof/Machine/HostAccess.lean ====
section
/-! DEFINITION. Host TLPs (02_address_spaces.md R45 to R47, R51; 14_host_interface.md R331, R332, R336, R350, R361, R362):
register writes and reads through BAR0, the MSI-X table, doorbells, and the exchange window through BAR2. -/

namespace Sys2Proof.Machine

/-- What a 4-byte-aligned BAR0 offset reaches (Table 2.4). -/
inductive BarLoc where
  | reg (a : Nat) | msix (i : Nat) | pba (i : Nat) | bell (off : Nat) | none
deriving DecidableEq, Repr, Inhabited

/-- Table 2.4. -/
def barLoc (off : Nat) : BarLoc :=
  if off < 0x20000 then .reg (0xE0000 + off / 2)
  else if off < 0x40000 then .reg (0xD0000 + (off - 0x20000) / 2)
  else if off < 0x41000 then .reg (0x1000000 + off / 2)
  else if 0x50000 ≤ off && off < 0x50200 then .msix ((off - 0x50000) / 4)
  else if 0x51000 ≤ off && off < 0x51008 then .pba ((off - 0x51000) / 4)
  else if 0x100000 ≤ off && off < 0x101000 then .bell (off - 0x100000)
  else .none

/-- A doorbell access passes the rights of region 3; in the Dead state every write is discarded (R47, R511). -/
def Dev.bellOpen (off : Nat) (f : Dev → Dev) (d : Dev) : Dev :=
  if d.d3hot then d.unsupported
  else if d.flag R.BOOT_STAT_DEAD then d.hostError 1 (0x100000 + off)
  else if d.hostMay 3 true then f d
  else d.hostError 4 (0x100000 + off)

/-- A dword write at a 4-byte-aligned BAR0 offset. -/
def Dev.barWrite (off : Nat) (v : BitVec 32) (d : Dev) : Dev :=
  match barLoc off with
  | .reg a => d.hostRegWrite a (Wr.whole v)
  | .msix i => if d.flag R.BOOT_STAT_DEAD then d.hostError 1 off else d.msixWrite i v
  | .pba _ => if d.flag R.BOOT_STAT_DEAD then d.hostError 1 off else d
  | .bell o => d.bellOpen o (Dev.doorbell o v [])
  | .none => d.hostError 1 off

/-- A dword read at a 4-byte-aligned BAR0 offset: the data, and whether the completion is poisoned (R336). -/
def Dev.barRead (off : Nat) (d : Dev) : BitVec 32 × Bool × Dev :=
  match barLoc off with
  | .reg a => d.hostRegRead a
  | .msix i => if d.flag R.BOOT_STAT_DEAD then (0, false, d) else (Store.get msixZero d.hif.tbl i, false, d)
  | .pba i => if d.flag R.BOOT_STAT_DEAD then (0, false, d) else (if i = 0 then d.hif.pba else 0, false, d)
  | .bell o =>
    if d.flag R.BOOT_STAT_DEAD || d.hostMay 3 false then (0, false, d) else (0, false, d.hostError 4 (0x100000 + o))
  | .none => if d.flag R.BOOT_STAT_DEAD then (0, false, d) else (0, false, d.hostError 1 off)

/-! ## REGISTER_WRITE (R6, R45, R46) -/

/-- A host write TLP to BAR0, or outside both BARs (R331). A qword reaches two dwords, the lower offset first; another size
or alignment is an access error of kind 0x7. -/
def Dev.hostWriteTlp (x : RegAcc) (d : Dev) : Dev :=
  match x with
  | .dword off v => if off.toNat % 4 == 0 then d.barWrite off.toNat v else d.hostError 7 off.toNat
  | .qword off v =>
    if off.toNat % 8 == 0 then
      (d.barWrite off.toNat (BitVec.ofNat 32 v.toNat)).barWrite (off.toNat + 4) (BitVec.ofNat 32 (v.toNat / 2 ^ 32))
    else d.hostError 7 off.toNat
  | .other off => d.hostError 7 off.toNat
  | .outside => d.unsupported
  | .core _ _ _ => d

/-- A register write: a core's 32-bit access of the register area, or a host write TLP. -/
def Dev.registerWrite (x : RegAcc) (d : Dev) : Dev :=
  match x with
  | .core c addr v => if isRegWord addr.toNat then d.coreRegWrite c addr.toNat (Wr.whole v) else d
  | .dword _ _ | .qword _ _ | .other _ | .outside => if d.d3hot then d.unsupported else d.hostWriteTlp x

def execRegisterWrite (x : RegAcc) (s : State) : Host.Outcome State Fault Refusal := s.onDev (Dev.registerWrite x)

/-! ## HOST_BAR_READ (R46, R51, R331, R336) -/

/-- A read of BAR2 words: region 3, the page whatever its flag (R350); an uncorrectable granule poisons the completion. -/
def Dev.bar2Read (off len : Nat) (d : Dev) : Dev :=
  let n := (off % 2 + len + 1) / 2
  if d.flag R.BOOT_STAT_DEAD then d.emit (.barWin (List.replicate n 0) false)
  else if !d.hostMay 3 false then (d.hostError 4 (0x800000 + off)).emit (.barWin (List.replicate n 0) false)
  else
    let (ws, bad, d) := d.unitReads 0xFB .win (off / 2) n
    d.emit (.barWin (if bad then List.replicate n 0 else ws) bad)

/-- A host read TLP that the function takes. -/
def Dev.hostReadTlp (x : HostRd) (d : Dev) : Dev :=
  match x with
  | .dword off =>
    if off.toNat % 4 == 0 then
      let (v, ep, d) := d.barRead off.toNat
      d.emit (.bar [v] ep)
    else (d.hostError 7 off.toNat).emit (.bar [0] false)
  | .qword off =>
    if off.toNat % 8 == 0 then
      let (v, ep, d) := d.barRead off.toNat
      let (w, ep2, d) := d.barRead (off.toNat + 4)
      d.emit (.bar (if ep || ep2 then [0, 0] else [v, w]) (ep || ep2))
    else (d.hostError 7 off.toNat).emit (.bar [0, 0] false)
  | .other off => (d.hostError 7 off.toNat).emit (.bar [0] false)
  | .bar2 off len => d.bar2Read off.toNat len
  | .outside => d.unsupported.emit (.cfg false 0)

/-- A host read TLP: an Unsupported Request while the function is in D3hot. -/
def Dev.hostBarRead (x : HostRd) (d : Dev) : Dev :=
  if d.d3hot then d.unsupported.emit (.cfg false 0) else d.hostReadTlp x

def execHostBarRead (x : HostRd) (s : State) : Host.Outcome State Fault Refusal := s.onDev (Dev.hostBarRead x)

/-! ## HOST_BAR2_WRITE (R24, R336, R350) -/

/-- The words of a BAR2 write, each with the mask of its byte enables. -/
def barWords (off : Nat) : List (BitVec 16 × BitVec 16) → List StoreWord
  | [] => []
  | x :: xs => (if off < arrSize .win then [(Arr.win, off, x.1, x.2)] else []) ++ barWords (off + 1) xs

/-- A host write TLP to the exchange window from word `off`: discarded in a page whose flag is DEVICE or LOCKED. -/
def Dev.bar2Write (off : Nat) (ws : List (BitVec 16 × BitVec 16)) (d : Dev) : Dev :=
  if d.d3hot then d.unsupported
  else if d.flag R.BOOT_STAT_DEAD then d.hostError 1 (0x800000 + 2 * off)
  else if !d.hostMay 3 true then d.hostError 4 (0x800000 + 2 * off)
  else
    let shut (o : Nat) : Bool := d.get (pageFlagFld (o / 0x800)) == 2 || d.get (pageFlagFld (o / 0x800)) == 3
    let all := barWords off ws
    let d' := d.unitStore 0xFB (all.filter (fun w => !shut w.2.1))
    if all.any (fun w => shut w.2.1) then (d'.satAdd R.WIN_STAT_DISC_CNT 1).hostError 5 (0x800000 + 2 * off) else d'

def execHostBar2Write (off : BitVec 20) (ws : List (BitVec 16 × BitVec 16)) (s : State) : Host.Outcome State Fault Refusal :=
  s.onDev (Dev.bar2Write off.toNat ws)

/-- POISONED_WRITE (R361): Poisoned TLP Received. -/
def execPoisonedWrite (s : State) : Host.Outcome State Fault Refusal := s.onAny (Dev.aer 12)

/-- PCIE_CONFIG_REQUEST (R331). -/
def Dev.configRequest (fn : Nat) (write : Bool) (dw : Nat) (be : BitVec 4) (v : BitVec 32) (d : Dev) : Dev :=
  if fn != 0 then (d.aer 20).emit (.cfg false 0)
  else if write then (d.emit (.cfg true 0)).cfgWrite dw be v
  else d.emit (.cfg true (d.cfgRd dw))

def execPcieConfigRequest (fn : Fin 8) (write : Bool) (dw : Fin 1024) (be : BitVec 4) (v : BitVec 32) (s : State) :
    Host.Outcome State Fault Refusal :=
  s.onAny (Dev.configRequest fn.val write dw.val be v)

/-! ## Doorbells, queues, pages and interrupts -/

/-- CMDQ_TAIL_DOORBELL (R339). -/
def execCmdqTailDoorbell (q : Fin 16) (v : BitVec 32) (s : State) : Host.Outcome State Fault Refusal :=
  s.onDev (Dev.bellOpen (8 * q.val) (Dev.doorbell (8 * q.val) v []))

/-- CPLQ_HEAD_DOORBELL (R342). -/
def execCplqHeadDoorbell (q : Fin 16) (v : BitVec 32) (s : State) : Host.Outcome State Fault Refusal :=
  s.onDev (Dev.bellOpen (8 * q.val + 4) (Dev.doorbell (8 * q.val + 4) v []))

/-- SEGR_DOORBELL (R349). -/
def execSegrDoorbell (g : Fin 16) (v : BitVec 16) (ents : List (List (BitVec 16))) (s : State) :
    Host.Outcome State Fault Refusal :=
  s.onDev (Dev.bellOpen (0x100 + 4 * g.val) (Dev.doorbell (0x100 + 4 * g.val) (BitVec.ofNat 32 v.toNat) ents))

/-- CMDQ_ENA (R338). -/
def execCmdqEna (q : Fin 16) (cplq : Fin 16) (sz : Fin 16) (s : State) : Host.Outcome State Fault Refusal :=
  s.onDev (Dev.wholeCmd .host (R.CMDQ_CFG q.val).addr (BitVec.ofNat 32 (0x80000000 + cplq.val * 65536 + sz.val)))

/-- CMDQ_DIS (R340). -/
def execCmdqDis (q : Fin 16) (s : State) : Host.Outcome State Fault Refusal :=
  s.onDev (Dev.actCmd .host (R.CMDQ_CFG_DIS q.val) 1)

/-- CPLQ_ENA (R338). -/
def execCplqEna (q : Fin 16) (ien : Bool) (iv : Fin 32) (sz : Fin 16) (s : State) : Host.Outcome State Fault Refusal :=
  s.onDev (Dev.wholeCmd .host (R.CPLQ_CFG q.val).addr
    (BitVec.ofNat 32 (0x80000000 + b2n ien * 0x8000 + iv.val * 256 + sz.val)))

/-- CPLQ_DIS (R338). -/
def execCplqDis (q : Fin 16) (s : State) : Host.Outcome State Fault Refusal :=
  s.onDev (Dev.actCmd .host (R.CPLQ_CFG_DIS q.val) 1)

/-- PG_CMD (R351). -/
def execPgCmd (r : Req) (page : Fin 512) (old new : Fin 4) (s : State) : Host.Outcome State Fault Refusal :=
  s.onDev (Dev.wholeCmd r R.PG_CMD.addr (BitVec.ofNat 32 (new.val * 2 ^ 30 + old.val * 2 ^ 28 + page.val)))

/-- HOST_IRQ (R358). -/
def execHostIrq (r : Req) (v : Fin 32) (s : State) : Host.Outcome State Fault Refusal :=
  s.onDev (Dev.wholeCmd r R.HOST_IRQ.addr (BitVec.ofNat 32 v.val))

/-! ## Link events (R359, R364, R527) -/

/-- PCIE_LINK_DOWN (R364). -/
def execPcieLinkDown (s : State) : Host.Outcome State Fault Refusal :=
  s.onAny (fun d => if d.hif.link then (d.updHif (fun h => { h with link := false })).linkReset else d)

/-- PCIE_LINK_UP (R359): the link trains once PERST_N is released (R527). -/
def execPcieLinkUp (s : State) : Host.Outcome State Fault Refusal :=
  s.onAny (fun d => if d.hif.perst && !d.hif.link then (d.updHif (fun h => { h with link := true })).raise 114 else d)

/-- FUNCTION_LEVEL_RESET (R364). -/
def execFunctionLevelReset (s : State) : Host.Outcome State Fault Refusal := s.onAny Dev.linkReset

/-- HOT_RESET (R364). -/
def execHotReset (s : State) : Host.Outcome State Fault Refusal := s.onAny Dev.linkReset

/-- PERST_RELEASE (R527). -/
def execPerstRelease (s : State) : Host.Outcome State Fault Refusal :=
  s.onAny (fun d => d.updHif (fun h => { h with perst := true }))

end Sys2Proof.Machine
end

