-- ==== Sys2Proof/Machine/HostEngine.lean ====
section
/-! DEFINITION. Host commands (14_host_interface.md): descriptor fetches (R339), the checks and the start of a command (R341,
R344, Table 14.5), the transfers of the descriptor engine (R345 to R348, R355, R356), and the firmware handover that a
command starts (22_boot_update.md, R516, R517). -/

namespace Sys2Proof.Machine

/-! ## Descriptors (R343) -/

/-- A descriptor from its 16 words (Table 14.3). -/
def hostCmdOf (ws : List (BitVec 16)) : HostCmd :=
  let w (i : Nat) : Nat := (ws.getD i 0).toNat
  { opc := w 0 % 256, zero := w 0 / 256, cid := w 1, arg0 := w 2 + 65536 * w 3, haddr := ofWords ((ws.drop 4).take 4),
    len := w 8 + 65536 * w 9, daddr := w 10 + 65536 * w 11, arg1 := w 12 + 65536 * w 13, arg2 := w 14 + 65536 * w 15 }

/-- Queue `q` has an entry to fetch (R339, R360). -/
def Dev.canFetch (d : Dev) (q : Nat) : Bool :=
  d.flag (R.CMDQ_STAT_EN q) && !d.flag (R.CMDQ_STAT_ERR q) && d.flag R.HIF_STAT_RDY && !d.d3hot
    && natAt d.hif.fetchIx q != natAt d.hif.tailDb q

/-- An error of a read of host memory, as AER sees it. -/
def Dev.readError (x : HostRead) (d : Dev) : Dev :=
  match x with
  | .poisoned => d.aer 12
  | _ => d

/-- The fetch of the next entry of queue `q` ends (R339). -/
def Dev.descriptorFetch (q : Nat) (x : HostRead) (d : Dev) : Dev :=
  if d.canFetch q then
    let ix := natAt d.hif.fetchIx q
    let d := d.emit (.hostFetch (d.get64 (R.CMDQ_BASE_LO q) (R.CMDQ_BASE_HI q) + 32 * ix) 32)
    match x with
    | .data ws =>
      (d.updHif (fun h => { h with fetchIx := setNat h.fetchIx q ((ix + 1) % d.cmdqSize q) })).setFetched q
        (d.fetchedOf q ++ [hostCmdOf ws])
    | _ => (d.readError x).queueError q 2
  else d

/-! ## Areas and rights -/

/-- A row of Table 14.7: first word, last word, whether WRITE_W may reach it, host region. -/
def areaRows : List (Nat × Nat × Bool × Nat) :=
  [(0x20000, 0x27FFF, false, 2), (0x28000, 0x2FFFF, true, 2), (0x30000, 0x3FFFF, true, 2), (0x40000, 0xBFFFF, true, 2),
    (0xC0000, 0xCFFFF, false, 2), (0xD0000, 0xDFFFF, true, 3), (0x100000, 0x1FFFFF, true, 6), (0x300000, 0x4FFFFF, true, 2)]

/-- The row that holds a range whole. -/
def areaRow (w n : Nat) : Option (Nat × Nat × Bool × Nat) := areaRows.find? (fun r => r.1 ≤ w && w + n ≤ r.2.1 + 1)

/-- The range lies in I, Q, M or instance memory: the command waits while a swap runs (R188, R345), and SNAP_READ reaches
it (R347). -/
def imageArea (w n : Nat) : Bool := [(0x20000, 0x28000), (0x28000, 0x30000), (0x30000, 0x40000), (0x40000, 0xC0000)].any
  (fun a => a.1 ≤ w && w + n ≤ a.2)

/-- The MRAM range lies in the areas that NV_READ, or NV_WRITE, reaches (Table 14.5). -/
def nvArea (write : Bool) (o n : Nat) : Bool :=
  if write then (0x400000 ≤ o && o + n ≤ 0x500000) || (0x600000 ≤ o && o + n ≤ 0x680000)
  else o + n ≤ 0x500000 || (0x600000 ≤ o && o + n ≤ 0x700000)

/-- The opcodes that move words through the transfer pool. -/
def isTransfer (opc : Nat) : Bool := [1, 2, 3, 4, 5, 9, 0xA, 0xB].contains opc

/-- The opcodes that read host memory. -/
def readsHost (opc : Nat) : Bool := [2, 4, 5, 0xA, 0xB].contains opc

/-! ## Checks (R344) -/

/-- FIELD: a reserved field is not 0, or an operand is out of range. -/
def fieldBad (c : HostCmd) : Bool :=
  c.zero != 0 || c.cid == 0xFFFF || 0x1000000 ≤ c.daddr
    || (isTransfer c.opc && (c.haddr % 4 != 0 || c.len == 0 || 0x100000 < c.len))
    || (match c.opc with
      | 3 => 2048 < c.len
      | 4 => c.len % 4 != 0 || 4096 < c.daddr + c.len / 4
      | 5 => c.len % 2 != 0
      | 8 => !tst c.arg0 31 && (c.haddr % 64 != 0 || c.arg1 % 4 != 0
          || !([16, 32, 64, 128, 256, 512, 1024, 2048, 4096].contains c.len))
      | 0xD => c.arg0 != 0x52535421
      | _ => false)

/-- The host region a command reaches, and whether it writes there (Table 14.5). -/
def cmdRegion (c : HostCmd) : Option (Nat × Bool) :=
  match c.opc with
  | 1 => (areaRow c.daddr c.len).map (fun r => (r.2.2.2, false))
  | 2 => (areaRow c.daddr c.len).map (fun r => (r.2.2.2, true))
  | 3 => some (2, false)
  | 4 | 5 | 6 | 7 => some (2, true)
  | 8 => some (3, true)
  | 9 => some (6, false)
  | 0xA => some (6, true)
  | 0xB | 0xC => some (7, true)
  | _ => none

/-- DENIED: the fuses withhold the opcode or the right (R344). -/
def Dev.cmdDenied (d : Dev) (c : HostCmd) : Bool :=
  (c.opc != 0 && !tst (d.rd R.PS_CMDA.addr).toNat c.opc)
    || (match cmdRegion c with
      | some (r, w) => !d.hostMay r w
      | none => false)

/-- AREA: the range is not permitted. -/
def Dev.areaBad (d : Dev) (c : HostCmd) : Bool :=
  match c.opc with
  | 1 => (areaRow c.daddr c.len).isNone
  | 2 => !((areaRow c.daddr c.len).any (fun r => r.2.2.1))
  | 3 => !imageArea c.daddr c.len
  | 5 => 0x200000 < d.get R.STAGE_PTR_PTR + c.len
  | 9 => !nvArea false c.daddr c.len
  | 0xA => !nvArea true c.daddr c.len
  | 0xB => 0x80000 < c.daddr + c.len
  | _ => false

/-- A SCAN_CMD would have no effect (R149). -/
def Dev.scanIdle (d : Dev) (cmd : Nat) : Bool :=
  match cmd with
  | 1 => d.get R.SCAN_STAT_STATE != 0 || (d.scanStart false).get R.SCAN_STAT_STATE == 0
  | 2 => d.get R.SCAN_STAT_STATE != 0 || (d.scanStart true).get R.SCAN_STAT_STATE == 0
  | 4 => d.get R.SCAN_STAT_STATE == 0
  | _ => true

/-- STATE: the target does not accept the command now. A standby carries out six commands (R386). -/
def Dev.stateBad (d : Dev) (c : HostCmd) : Bool :=
  (d.get R.PAIR_STAT_ROLE == 2 && !([0, 1, 9, 0xB, 0xC, 0xD].contains c.opc))
    || (match c.opc with
      | 5 => d.get R.PROG_STAT_STATE != 1
      | 7 => d.scanIdle (c.arg0 % 8)
      | 8 => d.get (R.GROUP_CFG_SRC (c.arg0 % 16)) == 1 && d.flag (R.GROUP_CFG_EN (c.arg0 % 16))
      | 0xB => d.flag R.FW_STAT_PEND_BOOT || d.flag R.FW_STAT_HBUSY
      | _ => false)

/-- The status with which the checks end a command; 0 when it passes (R344). -/
def Dev.cmdCheck (d : Dev) (c : HostCmd) : Nat :=
  if 0xD < c.opc then 1
  else if fieldBad c then 2
  else if d.cmdDenied c then 3
  else if d.areaBad c then 4
  else if d.stateBad c then 5
  else if isTransfer c.opc && !d.poolAny then 9
  else 0

/-! ## Firmware handover, steps 1 and 2 (R517) -/

/-- Words of the staging region. -/
def Dev.stagedWords (d : Dev) (off n : Nat) : List (BitVec 16) := d.nvWords (0x580000 + off) n

/-- The failure code of step 1: PEND_BOOT or HBUSY, header, lengths, uncorrectable granule. -/
def Dev.handoverErr (d : Dev) : Nat :=
  let h := d.stagedWords 0 256
  let code := ofWords ((h.drop 4).take 2)
  let tbl := ofWords ((h.drop 6).take 2)
  if d.flag R.FW_STAT_PEND_BOOT || d.flag R.FW_STAT_HBUSY then 3
  else if !d.nvClean 0x580000 256 then 4
  else if ofWords (h.take 1) != 0x5746 || ofWords ((h.drop 1).take 1) / 256 != 1
      || !((h.drop 8).take 24).all (· == 0) || !((h.drop 128).take 128).all (· == 0) then 1
  else if code < 8 || 131072 < code || code % 8 != 0 || 1048576 < 512 + code + tbl then 2
  else if !d.nvClean 0x580100 (code / 2) then 4
  else 0

/-- A failure sets ERR and raises event 15; else HBUSY, and CODE lies in the other Bellwether bank. -/
def Dev.handoverStart (d : Dev) : Dev :=
  let err := d.handoverErr
  if err != 0 then (d.put R.FW_STAT_ERR err).raise 15
  else
    let code := ofWords ((d.stagedWords 4 2))
    let b := !d.sys.bellBank
    let d := ((d.put R.FW_STAT_ERR 0).setF R.FW_STAT_HBUSY).updHif (fun h => { h with hoRun := true, hoCommit := false })
    (d.clearArr (.bell b)).setMws (.bell b) 0 (d.stagedWords 256 (code / 2))

/-! ## Starting a command (R341) -/

/-- A command of queue `q` may start. -/
def Dev.hostReady (d : Dev) (q : Nat) : Bool :=
  d.flag (R.CMDQ_STAT_EN q) && !d.flag (R.CMDQ_STAT_ERR q) && d.flag R.HIF_STAT_RDY && !d.d3hot && !(d.fetchedOf q).isEmpty
    && !d.hif.running.any (fun r => r.q == q) && d.cplFree (d.get (R.CMDQ_CFG_CPLQ q))

/-- The queue whose turn it is: round-robin over the queues that can start, at most 4 commands running (R341). -/
def Dev.nextQueue (d : Dev) : Option Nat :=
  if 4 ≤ d.hif.running.length then none
  else ((List.range 16).map (fun i => (d.hif.rr + 1 + i) % 16)).find? d.hostReady

/-- A command stays running until what it waits for comes about. -/
def Dev.hostWait (q : Nat) (c : HostCmd) (w : HostWait) (d : Dev) : Dev :=
  d.updHif (fun h => { h with running := h.running ++ [{ q := q, cmd := c, done := 0, bad := none, wait := w, page := none, counts := true }] })

/-- SEG_BIND (R349). -/
def Dev.segBind (c : HostCmd) (d : Dev) : Dev :=
  let g := c.arg0 % 16
  if tst c.arg0 31 then d.setSeg g none
  else d.setSeg g (some { base := c.haddr, size := c.len, ciAddr := c.arg1 + 2 ^ 32 * c.arg2, pIdx := 0, cIdx := 0, ents := [] })

/-- PROG_CMD: CHG_CTRL is written; the Bool says that this command set PROG_STAT.SEQ. -/
def Dev.progCmd (c : HostCmd) (d : Dev) : Bool × Dev :=
  let old := d.flag R.PROG_STAT_SEQ
  let d := (d.clrF R.PROG_STAT_SEQ).chgCmd (c.arg0 % 8)
  let set := d.flag R.PROG_STAT_SEQ
  (set, d.put R.PROG_STAT_SEQ (b2n (old || set)))

/-- SCAN_CTRL is written with the command: a start that its checks refuse leaves their mark there (R149). -/
def Dev.scanCmdReq (cmd : Nat) (d : Dev) : Dev :=
  match cmd with
  | 1 => d.scanStart false
  | 2 => d.scanStart true
  | 4 => d.scanStop
  | _ => d

/-- A command that the checks end with status `st` has no effect, but for a SCAN_CMD without effect under R149, which writes
SCAN_CTRL. -/
def Dev.refusedCmd (c : HostCmd) (st : Nat) (d : Dev) : Dev :=
  if c.opc == 7 && st == 5 && d.get R.PAIR_STAT_ROLE != 2 then d.scanCmdReq (c.arg0 % 8) else d

/-- A command that has passed the checks begins (Table 14.5). -/
def Dev.beginCmd (q : Nat) (c : HostCmd) (d : Dev) : Dev :=
  match c.opc with
  | 0 => d.hostComplete q c.cid 0 0 true
  | 3 => (d.hostWait q c .snap).lockPage q
  | 6 =>
    let (set, d) := d.progCmd c
    if set then d.hostComplete q c.cid 5 (d.rd R.PROG_STAT.addr).toNat true else (d.hostWait q c .prog).hostPoll
  | 7 =>
    let start := c.arg0 % 8 != 4
    let d := (d.hostWait q c (if start then .scanStart else .scanStop))
    (d.scanCmdReq (c.arg0 % 8)).hostPoll
  | 8 => (d.segBind c).hostComplete q c.cid 0 0 true
  | 0xC =>
    if d.handoverErr != 0 then (d.handoverStart).hostComplete q c.cid 5 0 true else (d.handoverStart).hostWait q c .handover
  | 0xD => (d.hostComplete q c.cid 0 0 true).updHif (fun h => { h with resetDue := true })
  | _ => (d.hostWait q c .chunk).lockPage q

/-- The first fetched command of queue `q` starts, when it is that queue's turn and the command has one of the opcodes
`opcs` accepts. -/
def Dev.hostStart (opcs : Nat → Bool) (q : Nat) (d : Dev) : Dev :=
  if d.nextQueue == some q then
    match d.fetchedOf q with
    | [] => d
    | c :: rest =>
      if opcs c.opc then
        let d := (d.setFetched q rest).updHif (fun h => { h with rr := q })
        let st := d.cmdCheck c
        if st != 0 then (d.refusedCmd c st).hostComplete q c.cid st 0 true else d.beginCmd q c
      else d
  else d

/-! ## Transfers (R356) -/

/-- Words of the device as the engine reads them, one access each; the word index of the first uncorrectable granule, whose
four words read as 0 with one machine check (R346). -/
def Dev.engineRead (off : Nat → Loc) (n : Nat) (d : Dev) : List (BitVec 16) × Option Nat × Dev :=
  let r := (List.range n).foldl (fun (acc : List (BitVec 16) × Option Nat × Option (Arr × Nat) × Dev) i =>
    let (ws, bad, last, d) := acc
    match off i with
    | .mem a o =>
      if last == some (a, o / 4) then (0 :: ws, bad, last, d)
      else
        let (w, b, d) := d.unitRead 0xFB a o
        if b then (w :: ws, bad.orElse (fun _ => some i), some (a, o / 4), d) else (w :: ws, bad, last, d)
    | .reg a =>
      if !(tabGran a).isEmpty && last == (tabGran a).head? then (0 :: ws, bad, last, d)
      else
        let (v, b, d) := d.unitRegRead 0xFB .unit (a / 2 * 2)
        let w := BitVec.ofNat 16 (v.toNat / 65536 ^ (a % 2))
        if b then (0 :: ws, bad.orElse (fun _ => some i), (tabGran a).head?, d) else (w :: ws, bad, last, d)
    | .none => (0 :: ws, bad, last, d)) ([], none, none, d)
  (r.1.reverse, r.2.1, r.2.2.2)

/-- A word of the engine to a register of the Mule tables: the bits of its half. -/
def Dev.engineReg (a : Nat) (v : BitVec 16) (d : Dev) : Dev :=
  d.regWrite .host (a / 2 * 2)
    { mask := BitVec.ofNat 32 (0xFFFF * 65536 ^ (a % 2)), val := BitVec.ofNat 32 (v.toNat * 65536 ^ (a % 2)), wo := false }

/-- Words of WRITE_W, each one access (R345). -/
def Dev.engineWrite (off : Nat → Loc) (ws : List (BitVec 16)) (d : Dev) : Dev :=
  (ws.foldl (fun (acc : Nat × Dev) v =>
    (acc.1 + 1,
      match off acc.1 with
      | .mem a o => acc.2.unitStore 0xFB [(a, o, 0xFFFF, v)]
      | .reg a => acc.2.engineReg a v
      | .none => acc.2)) (0, d)).2

/-- The force table: each 8-byte group is one 4-word access, FORCE_LO then FORCE_HI (Table 14.5, R173). It writes its granule
whole (R24). -/
def Dev.engineForce (entry : Nat) : List (BitVec 16) → Dev → Dev
  | a :: b :: c :: e :: rest, d =>
    (((d.setEcc .forceTab (4 * entry) .ok).regWrite .host (R.FORCE_LO entry).addr (Wr.whole (BitVec.ofNat 32 (ofWords [a, b])))).regWrite .host
      (R.FORCE_HI entry).addr (Wr.whole (BitVec.ofNat 32 (ofWords [c, e])))).engineForce (entry + 1) rest
  | _, d => d

/-- Package words at STAGE_PTR (R181). -/
def Dev.engineStage : List (BitVec 16) → Dev → Dev
  | lo :: hi :: rest, d => (d.stageWords 0xFB lo hi).engineStage rest
  | _, d => d

/-- The place in the device of word `i` of a transfer. -/
def Dev.cmdLoc (d : Dev) (c : HostCmd) (i : Nat) : Loc :=
  match c.opc with
  | 9 | 0xA => .mem .mram (c.daddr + i)
  | 0xB => .mem .mram (0x580000 + c.daddr + i)
  | _ => d.sharedLoc (c.daddr + i)

/-- The words of a chunk that go to the device find room in the posted write buffer (R448). -/
def Dev.chunkRoom (d : Dev) (c : HostCmd) (done n : Nat) : Bool :=
  !readsHost c.opc || d.storeRoom ((List.range n).filterMap (fun i =>
    match d.cmdLoc c (done + i) with
    | .mem a o => some (a, o, 0xFFFF, 0)
    | _ => none))

/-- The words pass through the locked page. -/
def Dev.throughPage (p : Nat) (ws : List (BitVec 16)) (d : Dev) : Dev := d.unitStore 0xFB (wholeWords .win (p * 0x800) ws)

/-- The device side of a chunk that goes to the device. -/
def Dev.chunkIn (c : HostCmd) (done : Nat) (ws : List (BitVec 16)) (d : Dev) : Dev :=
  match c.opc with
  | 4 => d.engineForce (c.daddr + done / 4) ws
  | 5 => d.engineStage ws
  | 2 => d.engineWrite (fun i => d.cmdLoc c (done + i)) ws
  | 0xA => d.unitStore 0xFB (wholeWords .mram (c.daddr + done) ws)
  | _ => d.unitStore 0xFB (wholeWords .mram (0x580000 + c.daddr + done) ws)

/-- The end of a transfer: SUCCESS with the words transferred, or POISON with the first bad word (R346); STAGE reports
STAGE_PTR. -/
def Dev.transferEnd (r : HostRun) (d : Dev) : Dev :=
  match r.bad with
  | some i => d.hostFinish r 7 i
  | none => d.hostFinish r 0 (if r.cmd.opc == 5 then d.get R.STAGE_PTR_PTR else r.cmd.len)

/-- Record the progress of a command. -/
def Dev.setRun (r : HostRun) (d : Dev) : Dev :=
  d.updHif (fun h => { h with running := h.running.map (fun x => if x.q == r.q then r else x) })

/-- A chunk has been moved: the page is freed, and the command ends or locks its next page. -/
def Dev.chunkEnd (r : HostRun) (n : Nat) (bad : Option Nat) (d : Dev) : Dev :=
  let d := d.unlockPage r
  let r := { r with done := r.done + n, bad := r.bad.orElse (fun _ => bad.map (· + r.done)), page := none }
  if r.cmd.len ≤ r.done then d.transferEnd r else (d.setRun r).lockPage r.q

/-- A command waits while a swap runs and it reaches an image area or the force table (R188), and while the Q shadow it would
write is being copied (R160): its completion follows its effects (R333). -/
def Dev.swapHolds (d : Dev) (c : HostCmd) : Bool :=
  (d.get R.PROG_STAT_STATE == 5 && (c.opc == 4 || ((c.opc == 1 || c.opc == 2) && imageArea c.daddr c.len)))
    || (d.qHolding && c.opc == 2 && 0x28000 ≤ c.daddr && c.daddr < 0x30000)

/-- Memory read requests for `n` bytes, at most 512 bytes each (Table 14.1). -/
def Dev.hostFetches (addr n : Nat) (d : Dev) : Dev :=
  (List.range ((n + 511) / 512)).foldl (fun d i => d.emit (.hostFetch (addr + 512 * i) (min 512 (n - 512 * i)))) d

/-- A host memory read ended in error: the command stops (R348). -/
def Dev.hostMemError (r : HostRun) (x : HostRead) (d : Dev) : Dev :=
  ((d.readError x).unlockPage r).hostFinish r 6 r.done

/-- One chunk of the running command `r` through page `p`. -/
def Dev.chunkRun (r : HostRun) (p : Nat) (x : HostRead) (d : Dev) : Dev :=
  let c := r.cmd
  let left := min 2048 (c.len - r.done)
  if readsHost c.opc then
    match x with
    | .data ws =>
      let unit := if c.opc == 4 then 4 else if c.opc == 5 then 2 else 1
      let n := min left ws.length / unit * unit
      if n == 0 || !d.chunkRoom c r.done n then d
      else
        let ws := ws.take n
        (((d.hostFetches (c.haddr + 2 * r.done) (2 * n)).throughPage p ws).chunkIn c r.done ws).chunkEnd r n none
    | _ => d.hostMemError r x
  else
    let (ws, bad, d) := d.engineRead (fun i => d.cmdLoc c (r.done + i)) left
    ((d.throughPage p ws).emit (.hostWrite (c.haddr + 2 * r.done) ws)).chunkEnd r left bad

/-- TRANSFER_CHUNK for the running command of queue `q`: it locks a page when it has none, and moves up to 2,048 words. A
SNAP_READ only locks its page here; its words move in HOST_SNAPSHOT_READ. -/
def Dev.transferChunk (q : Nat) (x : HostRead) (d : Dev) : Dev :=
  match d.hif.running.find? (fun r => r.q == q && (r.wait == .chunk || r.wait == .snap)) with
  | none => d
  | some r =>
    if d.swapHolds r.cmd || d.d3hot then d
    else
      let d := if r.page.isNone then d.lockPage q else d
      match (d.hif.running.find? (fun r => r.q == q)).bind (fun r => r.page) with
      | none => d
      | some p => if r.wait == .snap then d else d.chunkRun { r with page := some p } p x

/-- HOST_SNAPSHOT_READ (R347): the SNAP_READ that started first is performed once it has its page, in GAP once per gap, or in
STOP; not while a swap runs (R188). A swap that waited for it goes on. -/
def Dev.snapshotRead (d : Dev) : Dev :=
  if ((d.get R.SCAN_STAT_STATE == 6 && d.hif.snapPend) || d.get R.SCAN_STAT_STATE == 0)
      && d.get R.PROG_STAT_STATE != 5 && !d.d3hot then
    match d.firstSnap with
    | none => d
    | some r =>
      let (ws, bad, d) := d.engineRead (fun i => d.sharedLoc (r.cmd.daddr + i)) r.cmd.len
      let d := ((d.throughPage (r.page.getD 0) ws).emit (.hostWrite r.cmd.haddr ws)).chunkEnd r r.cmd.len bad
      (d.updHif (fun h => { h with snapPend := false })).swapEnter
  else d

/-- HOST_COMPLETION_TIMEOUT (R339, R363): the fetch of queue `q`, or the read of its running command, times out. -/
def Dev.completionTimeout (q : Nat) (fetch : Bool) (d : Dev) : Dev :=
  if fetch then (if d.canFetch q then (d.aer 14).queueError q 2 else d)
  else
    match d.hif.running.find? (fun r => r.q == q && r.wait == .chunk && readsHost r.cmd.opc) with
    | none => d
    | some r => (d.aer 14).hostMemError r .aborted

end Sys2Proof.Machine
end

