-- ==== Sys2Proof/Machine/HostCommands.lean ====
section
/-! DEFINITION. The commands of the host's queues (14_host_interface.md, Table 14.5) and of the descriptor engine. -/

namespace Sys2Proof.Machine

/-- DESCRIPTOR_FETCH (R339). -/
def execDescriptorFetch (q : Fin 16) (x : HostRead) (s : State) : Host.Outcome State Fault Refusal :=
  s.onDev (Dev.descriptorFetch q.val x)
/-- HOST_NOP (Table 14.5). -/
def execHostNop (q : Fin 16) (s : State) : Host.Outcome State Fault Refusal := s.onDev (Dev.hostStart (· == 0) q.val)
/-- READ_W (R345). -/
def execReadW (q : Fin 16) (s : State) : Host.Outcome State Fault Refusal := s.onDev (Dev.hostStart (· == 1) q.val)
/-- WRITE_W (R345). -/
def execWriteW (q : Fin 16) (s : State) : Host.Outcome State Fault Refusal := s.onDev (Dev.hostStart (· == 2) q.val)
/-- SNAP_READ (R347). In STOP the read is performed at once. -/
def execSnapRead (q : Fin 16) (s : State) : Host.Outcome State Fault Refusal :=
  s.onDev (fun d =>
    let n := d.hif.running.length
    let d := d.hostStart (· == 3) q.val
    if n < d.hif.running.length && d.get R.SCAN_STAT_STATE == 0 then d.snapshotRead else d)
/-- FORCE_WR (Table 14.5). -/
def execForceWr (q : Fin 16) (s : State) : Host.Outcome State Fault Refusal := s.onDev (Dev.hostStart (· == 4) q.val)
/-- STAGE (R181). -/
def execStage (q : Fin 16) (s : State) : Host.Outcome State Fault Refusal := s.onDev (Dev.hostStart (· == 5) q.val)
/-- PROG_CMD (R180). -/
def execProgCmd (q : Fin 16) (s : State) : Host.Outcome State Fault Refusal := s.onDev (Dev.hostStart (· == 6) q.val)
/-- SCAN_CMD (R149). -/
def execScanCmd (q : Fin 16) (s : State) : Host.Outcome State Fault Refusal := s.onDev (Dev.hostStart (· == 7) q.val)
/-- SEG_BIND (R349). -/
def execSegBind (q : Fin 16) (s : State) : Host.Outcome State Fault Refusal := s.onDev (Dev.hostStart (· == 8) q.val)
/-- NV_READ (Table 14.5). -/
def execNvRead (q : Fin 16) (s : State) : Host.Outcome State Fault Refusal := s.onDev (Dev.hostStart (· == 9) q.val)
/-- NV_WRITE (Table 14.5). -/
def execNvWrite (q : Fin 16) (s : State) : Host.Outcome State Fault Refusal := s.onDev (Dev.hostStart (· == 0xA) q.val)
/-- FW_STAGE (R516). -/
def execFwStage (q : Fin 16) (s : State) : Host.Outcome State Fault Refusal := s.onDev (Dev.hostStart (· == 0xB) q.val)
/-- FW_HANDOVER (R517). -/
def execFwHandover (q : Fin 16) (s : State) : Host.Outcome State Fault Refusal := s.onDev (Dev.hostStart (· == 0xC) q.val)
/-- DEV_RESET (R499). -/
def execDevReset (q : Fin 16) (s : State) : Host.Outcome State Fault Refusal := s.onDev (Dev.hostStart (· == 0xD) q.val)
/-- RESERVED_COMMAND (R344). -/
def execReservedCommand (q : Fin 16) (s : State) : Host.Outcome State Fault Refusal :=
  s.onDev (Dev.hostStart (fun o => 0xD < o) q.val)
/-- TRANSFER_CHUNK (R356). -/
def execTransferChunk (q : Fin 16) (x : HostRead) (s : State) : Host.Outcome State Fault Refusal :=
  s.onDev (Dev.transferChunk q.val x)
/-- HOST_SNAPSHOT_READ (R347). -/
def execHostSnapshotRead (s : State) : Host.Outcome State Fault Refusal := s.onDev Dev.snapshotRead
/-- HOST_COMPLETION_TIMEOUT (R363). -/
def execHostCompletionTimeout (q : Fin 16) (fetch : Bool) (s : State) : Host.Outcome State Fault Refusal :=
  s.onDev (Dev.completionTimeout q.val fetch)

end Sys2Proof.Machine
end

