-- ==== Sys2Proof/Machine/IsaBit.lean ====
section
/-! DEFINITION. The bit instructions (R65 to R68, R92 to R95, R541). -/

namespace Sys2Proof.Machine

/-- The word and bit that a bit operand addresses (R65, R67). -/
def bitPlace (c : CoreId) (x : BitOpd) : X (Nat × Nat) := do
  let r ← regsX c
  match x with
  | .short b off => return shortBit (r.getA b.val) off
  | .long area b => return longBit (areaBase (r.getA 6) area) b

/-- Read the addressed bit. -/
def readBit (c : CoreId) (x : BitOpd) : X Bool := do
  let (w, i) ← bitPlace c x
  ruleX c false w 1
  farX c w 1
  return tst (← peekWord c w).toNat i

/-- The mask of bit `i` of a word. -/
def bitMask (i : Nat) : BitVec 16 := BitVec.ofNat 16 (2 ^ i)

/-- A bit load, AND, OR or XOR (R92): CB takes `f` of CB and the bit. -/
def bitIn (c : CoreId) (x : BitOpd) (f : Bool → Bool → Bool) : X Unit := do
  let b ← readBit c x
  setCb c (f (← getCb c) b)

/-- STB and STBN: the bit takes `f` of CB. -/
def bitOut (c : CoreId) (x : BitOpd) (f : Bool → Bool) : X Unit := do
  let (w, i) ← bitPlace c x
  ruleX c true w 1 true
  storeBits c w (bitMask i) (if f (← getCb c) then bitMask i else 0)

/-- SETB and CLRB: the rules are checked whatever CB holds; with CB 0 no access is made (R93). -/
def bitIfCb (c : CoreId) (x : BitOpd) (v : Bool) : X Unit := do
  let (w, i) ← bitPlace c x
  ruleX c true w 1 true
  if ← getCb c then storeBits c w (bitMask i) (if v then bitMask i else 0) else pure ()

/-- EDGR and EDGF (R94): one read of the word, one masked write of the cell's two bits. -/
def edgeX (c : CoreId) (x : BitOpd) (falling : Bool) : X Unit := do
  let (w, i) ← bitPlace c x
  emuIf (i % 2 == 1)
  ruleX c true w 1 true
  ruleX c false w 1
  farX c w 1
  let cell := (← peekWord c w).toNat
  let cb ← getCb c
  let prev := tst cell i
  let primed := tst cell (i + 1)
  setCb c (primed && (if falling then prev && !cb else !prev && cb))
  storeBits c w (bitMask i ||| bitMask (i + 1)) ((if cb then bitMask i else 0) ||| bitMask (i + 1))

def execLdb (c : CoreId) (x : BitOpd) (s : State) : Host.Outcome State Fault Refusal :=
  s.onDev (Dev.bitInstr c (bitLen x) (bitIn c x (fun _ b => b)))
def execLdbn (c : CoreId) (x : BitOpd) (s : State) : Host.Outcome State Fault Refusal :=
  s.onDev (Dev.bitInstr c (bitLen x) (bitIn c x (fun _ b => !b)))
def execAndb (c : CoreId) (x : BitOpd) (s : State) : Host.Outcome State Fault Refusal :=
  s.onDev (Dev.bitInstr c (bitLen x) (bitIn c x (fun a b => a && b)))
def execAndbn (c : CoreId) (x : BitOpd) (s : State) : Host.Outcome State Fault Refusal :=
  s.onDev (Dev.bitInstr c (bitLen x) (bitIn c x (fun a b => a && !b)))
def execOrb (c : CoreId) (x : BitOpd) (s : State) : Host.Outcome State Fault Refusal :=
  s.onDev (Dev.bitInstr c (bitLen x) (bitIn c x (fun a b => a || b)))
def execOrbn (c : CoreId) (x : BitOpd) (s : State) : Host.Outcome State Fault Refusal :=
  s.onDev (Dev.bitInstr c (bitLen x) (bitIn c x (fun a b => a || !b)))
def execXorb (c : CoreId) (x : BitOpd) (s : State) : Host.Outcome State Fault Refusal :=
  s.onDev (Dev.bitInstr c (bitLen x) (bitIn c x (fun a b => a != b)))
def execXorbn (c : CoreId) (x : BitOpd) (s : State) : Host.Outcome State Fault Refusal :=
  s.onDev (Dev.bitInstr c (bitLen x) (bitIn c x (fun a b => a != !b)))
def execStb (c : CoreId) (x : BitOpd) (s : State) : Host.Outcome State Fault Refusal :=
  s.onDev (Dev.bitInstr c (bitLen x) (bitOut c x (fun b => b)))
def execStbn (c : CoreId) (x : BitOpd) (s : State) : Host.Outcome State Fault Refusal :=
  s.onDev (Dev.bitInstr c (bitLen x) (bitOut c x (fun b => !b)))
def execSetb (c : CoreId) (x : BitOpd) (s : State) : Host.Outcome State Fault Refusal :=
  s.onDev (Dev.bitInstr c (bitLen x) (bitIfCb c x true))
def execClrb (c : CoreId) (x : BitOpd) (s : State) : Host.Outcome State Fault Refusal :=
  s.onDev (Dev.bitInstr c (bitLen x) (bitIfCb c x false))
def execEdgr (c : CoreId) (x : BitOpd) (s : State) : Host.Outcome State Fault Refusal :=
  s.onDev (Dev.bitInstr c (bitLen x) (edgeX c x false))
def execEdgf (c : CoreId) (x : BitOpd) (s : State) : Host.Outcome State Fault Refusal :=
  s.onDev (Dev.bitInstr c (bitLen x) (edgeX c x true))

/-! ## Bit stack and condition bit (R95, R60) -/

/-- CPUSH. -/
def cpushX (c : CoreId) : X Unit := do
  let r ← regsX c
  let n := srBsp r.sr
  emuIf (n == 16)
  let b := if srBit r.sr srCb then setBit r.bstk.toNat n else clrBit r.bstk.toNat n
  modR c (fun r => { r with bstk := BitVec.ofNat 16 b, sr := srPutBsp r.sr (n + 1) })

/-- CPAND, CPOR and CPXOR: CB takes `f` of the popped bit and CB. -/
def cpopX (c : CoreId) (f : Bool → Bool → Bool) : X Unit := do
  let r ← regsX c
  let n := srBsp r.sr
  emuIf (n == 0)
  let v := f (tst r.bstk.toNat (n - 1)) (srBit r.sr srCb)
  setSr c (srPut (srPutBsp r.sr (n - 1)) srCb v)

def execCpush (c : CoreId) (s : State) : Host.Outcome State Fault Refusal := s.onDev (Dev.bitInstr c 1 (cpushX c))
def execCpand (c : CoreId) (s : State) : Host.Outcome State Fault Refusal :=
  s.onDev (Dev.bitInstr c 1 (cpopX c (fun a b => a && b)))
def execCpor (c : CoreId) (s : State) : Host.Outcome State Fault Refusal :=
  s.onDev (Dev.bitInstr c 1 (cpopX c (fun a b => a || b)))
def execCpxor (c : CoreId) (s : State) : Host.Outcome State Fault Refusal :=
  s.onDev (Dev.bitInstr c 1 (cpopX c (fun a b => a != b)))
def execCnot (c : CoreId) (s : State) : Host.Outcome State Fault Refusal :=
  s.onDev (Dev.bitInstr c 1 (do setCb c (!(← getCb c))))
def execCset (c : CoreId) (s : State) : Host.Outcome State Fault Refusal := s.onDev (Dev.bitInstr c 1 (setCb c true))
def execCclr (c : CoreId) (s : State) : Host.Outcome State Fault Refusal := s.onDev (Dev.bitInstr c 1 (setCb c false))

/-- MOVB. -/
def movbX (c : CoreId) (toCb : Bool) (n : Fin 8) (b : Fin 16) : X Unit := do
  let v ← getD c n.val
  if toCb then setCb c (tst v b.val)
  else setD c n.val (if ← getCb c then setBit v b.val else clrBit v b.val)

def execMovb (c : CoreId) (toCb : Bool) (n : Fin 8) (b : Fin 16) (s : State) : Host.Outcome State Fault Refusal :=
  s.onDev (Dev.native c 1 (movbX c toCb n b))

end Sys2Proof.Machine
end

