-- ==== Sys2Proof/Machine/IsaControl.lean ====
section
/-! DEFINITION. Group 0x0 (Table 3.4, R104 to R110), branches, calls and returns (R79, R102, R103, R117, R123), and the
ends of waits. -/

namespace Sys2Proof.Machine

/-! ## System and control -/

/-- NOP (R63). -/
def execNop (c : CoreId) (s : State) : Host.Outcome State Fault Refusal := s.onDev (Dev.runInstr c 1 none (pure ()))

/-- WFE (R105): a set wake latch is cleared; else the core waits. In T4 mode it breaks the contract. -/
def wfeX (c : CoreId) : X Unit := do
  modify (fun d => d.t4Break c 3)
  if (← coreX c).wake then modC c (fun s => { s with wake := false }) else waitX c .wfe

def execWfe (c : CoreId) (s : State) : Host.Outcome State Fault Refusal := s.onDev (Dev.runInstr c 1 none (wfeX c))

/-- WFE_WAKE (R105): a core in WFE whose wake latch is set goes on and clears it. -/
def Dev.wfeWake (c : CoreId) (d : Dev) : Dev :=
  if d.waiting c == .wfe && (d.core c).wake then (d.updCore c (fun s => { s with wake := false })).endWait c else d

def execWfeWake (c : CoreId) (s : State) : Host.Outcome State Fault Refusal := s.onDev (Dev.wfeWake c)

/-- SEV (R106). -/
def execSev (c : CoreId) (n : Fin 8) (s : State) : Host.Outcome State Fault Refusal :=
  s.onDev (Dev.runInstr c 1 none (modify (fun d => d.raise (120 + n.val))))

/-- No store of the core waits in the Q shadow (R160). -/
def Dev.noneHeld (d : Dev) (c : CoreId) : Bool := d.scan.heldQ.all (fun h => h.by_ != some c)

/-- What a fence waits for is complete: loads when `r`; stores when `w`, the held ones too (R108, R130); in T4 mode nothing
is outstanding to wait for (R140). -/
def Dev.fenceMet (d : Dev) (c : CoreId) (r w : Bool) : Bool :=
  d.t4On c || ((!r || (d.core c).loads.isEmpty) && (!w || ((d.core c).sbuf.isEmpty && d.noneHeld c)))

/-- A fence (R108). -/
def fenceX (c : CoreId) (r w : Bool) : X Unit := do
  if (← get).fenceMet c r w then pure () else waitX c (.fence r w)

/-- SEVF (R106). -/
def sevfX (c : CoreId) (n : Nat) : X Unit := do
  if (← get).fenceMet c true true then modify (fun d => d.raise (120 + n)) else waitX c (.sevf n)

def execSevf (c : CoreId) (n : Fin 8) (s : State) : Host.Outcome State Fault Refusal :=
  s.onDev (Dev.runInstr c 1 none (sevfX c n.val))
def execFenceR (c : CoreId) (s : State) : Host.Outcome State Fault Refusal :=
  s.onDev (Dev.runInstr c 1 none (fenceX c true false))
def execFenceW (c : CoreId) (s : State) : Host.Outcome State Fault Refusal :=
  s.onDev (Dev.runInstr c 1 none (fenceX c false true))

/-- FENCE.ALL (R108): in T4 mode an event may enter at it (R141, R143). -/
def fenceAllX (c : CoreId) : X Unit := do
  let t := (← get).time
  modC c (fun s => if s.inSet1 then s else { s with t4Fence := t })
  fenceX c true true

def execFenceAll (c : CoreId) (s : State) : Host.Outcome State Fault Refusal :=
  s.onDev (Dev.runInstr c 1 none (fenceAllX c))

/-- FENCE_DONE: the accesses that a fence or SEVF waits for are complete (R108, R106). -/
def Dev.fenceDone (c : CoreId) (d : Dev) : Dev :=
  match d.waiting c with
  | .fence r w => if d.fenceMet c r w then d.endWait c else d
  | .sevf n => if d.fenceMet c true true then (d.endWait c).raise (120 + n) else d
  | _ => d

def execFenceDone (c : CoreId) (s : State) : Host.Outcome State Fault Refusal := s.onDev (Dev.fenceDone c)

/-- WUNT (R107): the 4-word operand is read once. -/
def wuntX (c : CoreId) (an : Fin 8) : X Unit := do
  let v ← read4 c (← getA c an.val)
  let d ← get
  if v ≤ d.time.toNat then pure () else waitX c (.wunt (BitVec.ofNat 64 v))

def execWunt (c : CoreId) (an : Fin 8) (s : State) : Host.Outcome State Fault Refusal :=
  s.onDev (Dev.runInstr c 1 none (wuntX c an))

/-- WUNT_DONE: the timebase has reached the operand. -/
def Dev.wuntDone (c : CoreId) (d : Dev) : Dev :=
  match d.waiting c with
  | .wunt t => if t.toNat ≤ d.time.toNat then d.endWait c else d
  | _ => d

def execWuntDone (c : CoreId) (s : State) : Host.Outcome State Fault Refusal := s.onDev (Dev.wuntDone c)

/-- TRAP (R109). -/
def execTrap (c : CoreId) (u : BitVec 8) (s : State) : Host.Outcome State Fault Refusal :=
  s.onDev (Dev.runInstr c 1 none (endX (.trap u.toNat)))

/-- MODE (R110, R64): target 1 needs PRIV or FACTORY; target 0 leaves stack mode. An access trap in stack mode clears MODE
with entries on the tile, and no rule says what becomes of them: DESIGN CHOICE, they stay there unused, and the next entry
into stack mode, which begins with none (R87), drops them (log entry 67). -/
def modeX (c : CoreId) (m : Bool) : X Unit := do
  let sr ← getSr c
  if m then
    emuIf (!srBit sr srPriv && (← get).get R.LC_STAT_STATE != 0)
    if srBit sr srMode then pure ()
    else modR c (fun r => { r with sr := srPut r.sr srMode true, opstk := [] })
  else
    leaveStack c
    setSr c (srPut sr srMode false)

def execMode (c : CoreId) (m : Bool) (s : State) : Host.Outcome State Fault Refusal :=
  s.onDev (Dev.runInstr c 1 none (modeX c m))

/-- An instruction word that traps to the emulation vector (R61). -/
def execReservedEncoding (c : CoreId) (s : State) : Host.Outcome State Fault Refusal :=
  s.onDev (Dev.runInstr c 1 none (endX .emu))

/-! ## Branches and calls -/

/-- An indirect target (R102). -/
def targetX (c : CoreId) (an : Fin 8) : X Nat := do
  let a ← getA c an.val
  if 0x200000 ≤ a then endX (.acc 8 a false) else return a

/-- The frame of a call: plain, or with the instance base when `a6` is the new one (R79). PC is already the return
address. -/
def callX (c : CoreId) (target : Nat) (a6 : Option Nat) : X Unit := do
  let r ← regsX c
  let ret := r.pc.toNat
  let ws :=
    match a6 with
    | none => [ret % 65536, ret / 65536]
    | some _ => [ret % 65536, ret / 65536 + 0x8000, r.getA 6 % 65536, r.getA 6 / 65536]
  let base := r.frameBase ws.length
  spanX c true base ws.length
  frameFarX c base ws.length
  storeFrame c base ws
  setA c 7 base
  match a6 with
  | none => pure ()
  | some v => setA c 6 v
  setPc c target

def execJmpAn (c : CoreId) (an : Fin 8) (s : State) : Host.Outcome State Fault Refusal :=
  s.onDev (Dev.runInstr c 1 none (do setPc c (← targetX c an)))

def execCallAn (c : CoreId) (an : Fin 8) (s : State) : Host.Outcome State Fault Refusal :=
  s.onDev (Dev.runInstr c 1 none (do callX c (← targetX c an) none))

/-- A short or long branch (R102). -/
def branchX (c : CoreId) (k : Cond) (t : Target) : X Unit := do
  if condHolds (← getSr c) k then setPc c (targetAddr (← getPc c) t) else pure ()

def execBranch (c : CoreId) (cnd : Cond) (t : Target) (s : State) : Host.Outcome State Fault Refusal :=
  s.onDev (Dev.native c (targetLen t) (branchX c cnd t))

def execCall (c : CoreId) (t : Target) (s : State) : Host.Outcome State Fault Refusal :=
  s.onDev (Dev.native c (targetLen t) (do callX c (targetAddr (← getPc c) t) none))

/-- CALLI (R103): the new A6 from A5 in the short form, from An in the long form. -/
def calliX (c : CoreId) (x : CalliOpd) : X Unit := do
  match x with
  | .short d => callX c (targetAddr (← getPc c) (.short d)) (some (← getA c 5))
  | .long an t => callX c t.toNat (some (← getA c an.val))

/-- The length of CALLI in words. -/
def calliLen : CalliOpd → Nat
  | .short _ => 1
  | .long .. => 2

def execCalli (c : CoreId) (x : CalliOpd) (s : State) : Host.Outcome State Fault Refusal :=
  s.onDev (Dev.native c (calliLen x) (calliX c x))

/-! ## Returns -/

/-- A RET in set 0 of a tile with A7 = STK.SP − 2 ends the strand (R117). -/
def Dev.strandEndHere (d : Dev) (c : CoreId) : Bool :=
  c.val < 16 && !(d.core c).inSet1
    && (d.core c).s0.getA 7 == (d.get (R.TILE_STK_SP c.val) + 0xFFFFFE) % 0x1000000

/-- Strand end: A7 takes STK.SP, set 0 is idle, the tile reports scan end (R117, R118, R156). -/
def Dev.strandEnd (c : CoreId) (d : Dev) : Dev :=
  if h : c.val < 16 then
    let d := d.updCore c (fun s => { s with s0 := s.s0.setA 7 (d.get (R.TILE_STK_SP c.val)), run0 := .idle })
    (d.put (R.TILE_STATE_T4_ACT c.val) 0).reportEnd ⟨c.val, h⟩
  else d

/-- RET (R79). -/
def retX (c : CoreId) : X Unit := do
  let d ← get
  if d.strandEndHere c then modify (fun d => d.strandEnd c)
  else
    let a7 ← getA c 7
    spanX c false a7 2
    frameFarX c a7 2
    let f ← readFrame c a7 2
    let lo := f.headD 0
    let hi := (f.drop 1).headD 0
    if tst hi 15 then
      spanX c false (a7 + 2) 2
      frameFarX c (a7 + 2) 2
      let g ← readFrame c (a7 + 2) 2
      setA c 6 (g.headD 0 + 65536 * ((g.drop 1).headD 0 % 256))
      setA c 7 (a7 + 4)
    else setA c 7 (a7 + 2)
    setPc c (lo + 65536 * (hi % 32))

def execRet (c : CoreId) (s : State) : Host.Outcome State Fault Refusal := s.onDev (Dev.runInstr c 1 none (retX c))

/-- RETI over an access, emulation or TRAP frame (R83, R104, R126). -/
def retiTrap (c : CoreId) (kind : Nat) : X Unit := do
  let a7 ← getA c 7
  let f ← readFrame c (a7 + 3) 3
  let sr := BitVec.ofNat 16 ((f.drop 2).headD 0)
  modR c (fun r =>
    { (r.setA 7 (a7 + (if kind = 1 then 8 else 6))) with
      pc := BitVec.ofNat 21 (f.headD 0 + 65536 * ((f.drop 1).headD 0 % 32))
      sr := srReload r.sr sr })

/-- Set 1 returns to set 0 (R123, steps 2 to 4). `f`: words +1 to +7 of the frame. -/
def CoreSt.eventReturn (f : List Nat) (s : CoreSt) : CoreSt :=
  let g (i : Nat) : Nat := (f.drop i).headD 0
  let s := { s with s1 := s.s1.setA 7 (s.s1.getA 7 + 8), inSet1 := false, curTask := none }
  if s.strandSince then { s with latch := .empty, strandSince := false }
  else
    let s := { s with latch := PairLatch.ofFrame (g 0) (g 1) (g 5 + 65536 * (g 6 % 256)) }
    if s.run0 == .active then
      { s with s0 := { s.s0 with
          pc := BitVec.ofNat 21 (g 2 + 65536 * (g 3 % 32))
          sr := srReload s.s0.sr (BitVec.ofNat 16 (g 4)) } }
    else s

/-- RETI in set 1 over an event frame (R123): it waits until the stores of set 1 are visible, those held in the Q shadow
too. The task of the handler has ended. -/
def retiEvent (c : CoreId) : X Unit := do
  let d ← get
  stallIf ((d.core c).sbuf.any (fun e => e.set1) || !d.noneHeld c)
  let f ← readFrame c ((← getA c 7) + 1) 7
  modC c (CoreSt.eventReturn f)
  modC c (fun s => { s with t4Fence := d.time })
  modify Dev.swapEnter

/-- RETI (R104): by the kind of the frame at A7. -/
def retiX (c : CoreId) : X Unit := do
  let a7 ← getA c 7
  spanX c false a7 1
  frameFarX c a7 1
  let k := (← readFrame c a7 1).headD 0
  let n := if k == 1 || k == 4 then 8 else 6
  if k == 1 || k == 2 || k == 3 then
    spanX c false a7 n
    frameFarX c a7 n
    retiTrap c k
  else if k == 4 && (← coreX c).inSet1 then
    spanX c false a7 n
    retiEvent c
  else endX .emu

def execReti (c : CoreId) (s : State) : Host.Outcome State Fault Refusal := s.onDev (Dev.runInstr c 1 none (retiX c))

/-! ## Event entry -/

/-- EVENT_ENTRY (R122). -/
def execEventEntry (t : Fin 16) (s : State) : Host.Outcome State Fault Refusal := s.onDev (Dev.eventEntry t)

end Sys2Proof.Machine
end

