-- ==== Sys2Proof/Machine/IsaData.lean ====
section
/-! DEFINITION. Register moves (R70, R96), the data ALU and immediates (R74, R75, R98, R99, R113), the accumulators (R76,
R100), and address arithmetic (R77, R101). -/

namespace Sys2Proof.Machine

/-! ## Moves -/

/-- A part of an accumulator: bits 15:0, 31:16, or the guard sign-extended (Table 3.9). -/
def accPart (a : BitVec 40) (part : Nat) : Nat :=
  match part with
  | 0 => a.toNat % 65536
  | 1 => a.toNat / 65536 % 65536
  | _ => toU 16 (sx 8 (a.toNat / 2 ^ 32))

/-- An accumulator with one part written (R96). -/
def accSetPart (a : BitVec 40) (part v : Nat) : BitVec 40 :=
  BitVec.ofNat 40 (match part with
    | 0 => v % 65536 + a.toNat / 65536 * 65536
    | 1 => a.toNat % 65536 + v % 65536 * 65536 + a.toNat / 2 ^ 32 * 2 ^ 32
    | _ => a.toNat % 2 ^ 32 + v % 256 * 2 ^ 32)

/-- Read accumulator `k` whole. -/
def accRaw (c : CoreId) (k : Nat) : X (BitVec 40) := do
  let s ← coreX c
  stallIf (s.busyAcc (k % 4))
  return s.act.acc[k % 4]

/-- MOVE (Table 3.9): every other combination is reserved. -/
def moveX (c : CoreId) (dst src : MoveOpd) : X Unit := do
  match dst, src with
  | .d n, .d m => setD c n.val (← getD c m.val)
  | .d n, .a m => setD c n.val ((← getA c m.val) % 65536)
  | .d n, .acc k p => setD c n.val (accPart (← accRaw c k.val) p.val)
  | .d n, .sr => setD c n.val (← getSr c).toNat
  | .d n, .bstk => setD c n.val (← regsX c).bstk.toNat
  | .a n, .d m => setA c n.val (← getD c m.val)
  | .a n, .a m => setA c n.val (← getA c m.val)
  | .acc k p, .d m =>
    let v ← getD c m.val
    let a ← accRaw c k.val
    modR c (fun r => { r with acc := r.acc.set k.val (accSetPart a p.val v) })
  | .sr, .d m =>
    let v ← getD c m.val
    setSr c (srMove (← getSr c) (BitVec.ofNat 16 v))
  | .bstk, .d m =>
    let v ← getD c m.val
    modR c (fun r => { r with bstk := BitVec.ofNat 16 v })
  | _, _ => endX .emu

def execMove (c : CoreId) (dst src : MoveOpd) (s : State) : Host.Outcome State Fault Refusal :=
  s.onDev (Dev.native c 1 (moveX c dst src))

/-! ## Data ALU -/

/-- One data operation on operands `a` and `b` into Dn; CMP writes no result (R98). -/
def aluX (c : CoreId) (op : AluOp) (n a b : Nat) : X Unit := do
  let sr ← getSr c
  let o := alu op a b (b2n (srBit sr srC))
  if op == .cmp then pure () else setD c n o.r
  setSr c (srAlu sr o)

/-- Group 0x7: NOT and NEG take Ds, every other operation Dd and Ds. -/
def alu2 (c : CoreId) (op : AluOp) (dd ds : Fin 16) : X Unit := do
  let b ← getD c ds.val
  let a ← getD c dd.val
  aluX c op dd.val (if op == .not || op == .neg then b else a) b

def execAdd (c : CoreId) (dd ds : Fin 16) (s : State) : Host.Outcome State Fault Refusal :=
  s.onDev (Dev.native c 1 (alu2 c .add dd ds))
def execAdc (c : CoreId) (dd ds : Fin 16) (s : State) : Host.Outcome State Fault Refusal :=
  s.onDev (Dev.native c 1 (alu2 c .adc dd ds))
def execSub (c : CoreId) (dd ds : Fin 16) (s : State) : Host.Outcome State Fault Refusal :=
  s.onDev (Dev.native c 1 (alu2 c .sub dd ds))
def execSbc (c : CoreId) (dd ds : Fin 16) (s : State) : Host.Outcome State Fault Refusal :=
  s.onDev (Dev.native c 1 (alu2 c .sbc dd ds))
def execCmp (c : CoreId) (dd ds : Fin 16) (s : State) : Host.Outcome State Fault Refusal :=
  s.onDev (Dev.native c 1 (alu2 c .cmp dd ds))
def execAnd (c : CoreId) (dd ds : Fin 16) (s : State) : Host.Outcome State Fault Refusal :=
  s.onDev (Dev.native c 1 (alu2 c .and dd ds))
def execOr (c : CoreId) (dd ds : Fin 16) (s : State) : Host.Outcome State Fault Refusal :=
  s.onDev (Dev.native c 1 (alu2 c .or dd ds))
def execXor (c : CoreId) (dd ds : Fin 16) (s : State) : Host.Outcome State Fault Refusal :=
  s.onDev (Dev.native c 1 (alu2 c .xor dd ds))
def execNot (c : CoreId) (dd ds : Fin 16) (s : State) : Host.Outcome State Fault Refusal :=
  s.onDev (Dev.native c 1 (alu2 c .not dd ds))
def execNeg (c : CoreId) (dd ds : Fin 16) (s : State) : Host.Outcome State Fault Refusal :=
  s.onDev (Dev.native c 1 (alu2 c .neg dd ds))
def execLsl (c : CoreId) (dd ds : Fin 16) (s : State) : Host.Outcome State Fault Refusal :=
  s.onDev (Dev.native c 1 (alu2 c .lsl dd ds))
def execLsr (c : CoreId) (dd ds : Fin 16) (s : State) : Host.Outcome State Fault Refusal :=
  s.onDev (Dev.native c 1 (alu2 c .lsr dd ds))
def execAsr (c : CoreId) (dd ds : Fin 16) (s : State) : Host.Outcome State Fault Refusal :=
  s.onDev (Dev.native c 1 (alu2 c .asr dd ds))
def execRor (c : CoreId) (dd ds : Fin 16) (s : State) : Host.Outcome State Fault Refusal :=
  s.onDev (Dev.native c 1 (alu2 c .ror dd ds))
def execAdds (c : CoreId) (dd ds : Fin 16) (s : State) : Host.Outcome State Fault Refusal :=
  s.onDev (Dev.native c 1 (alu2 c .adds dd ds))
def execSubs (c : CoreId) (dd ds : Fin 16) (s : State) : Host.Outcome State Fault Refusal :=
  s.onDev (Dev.native c 1 (alu2 c .subs dd ds))

/-! ## Immediates -/

/-- The sign-extended s6 as a 16-bit value. -/
def imm6 (i : BitVec 6) : Nat := toU 16 (sx 6 i.toNat)

/-- MOVQ (R99). -/
def movqX (c : CoreId) (n : Fin 16) (i : BitVec 6) : X Unit := do
  setD c n.val (imm6 i)
  setSr c (srAlu (← getSr c) { r := imm6 i, c := none, v := false })

/-- ADDQ and CMPQ. -/
def aluQ (c : CoreId) (op : AluOp) (n : Fin 16) (i : BitVec 6) : X Unit := do
  aluX c op n.val (← getD c n.val) (imm6 i)

def execMovq (c : CoreId) (n : Fin 16) (s : BitVec 6) (st : State) : Host.Outcome State Fault Refusal :=
  st.onDev (Dev.native c 1 (movqX c n s))
def execAddq (c : CoreId) (n : Fin 16) (s : BitVec 6) (st : State) : Host.Outcome State Fault Refusal :=
  st.onDev (Dev.native c 1 (aluQ c .add n s))
def execCmpq (c : CoreId) (n : Fin 16) (s : BitVec 6) (st : State) : Host.Outcome State Fault Refusal :=
  st.onDev (Dev.native c 1 (aluQ c .cmp n s))
def execMovqA (c : CoreId) (an : Fin 8) (u : BitVec 6) (s : State) : Host.Outcome State Fault Refusal :=
  s.onDev (Dev.native c 1 (setA c an.val u.toNat))

def execLdi (c : CoreId) (n : Fin 16) (v : BitVec 16) (s : State) : Host.Outcome State Fault Refusal :=
  s.onDev (Dev.native c 2 (setD c n.val v.toNat))

/-- ALUI (R113): codes 0x8 and 0x9 are reserved. -/
def aluiX (c : CoreId) (n : Fin 16) (op : AluOp) (v : BitVec 16) : X Unit := do
  emuIf (op == .not || op == .neg)
  aluX c op n.val (← getD c n.val) v.toNat

def execAlui (c : CoreId) (n : Fin 16) (op : AluOp) (v : BitVec 16) (s : State) : Host.Outcome State Fault Refusal :=
  s.onDev (Dev.native c 2 (aluiX c n op v))
def execLdiA (c : CoreId) (an : Fin 8) (v : BitVec 24) (s : State) : Host.Outcome State Fault Refusal :=
  s.onDev (Dev.native c 2 (setA c an.val v.toNat))

/-! ## Accumulators -/

/-- Accumulator `k` takes a result; OVS and SAT are sticky (R57). -/
def accOut (c : CoreId) (k : Nat) (o : AccOut) : X Unit := do
  setAcc c k o.v
  setSr c (srAcc (← getSr c) o)

/-- The product of Dx and Dy. -/
def prodX (c : CoreId) (dx dy : Fin 16) : X Int := do
  let x ← getD c dx.val
  let y ← getD c dy.val
  return sx 16 x * sx 16 y

def execMac (c : CoreId) (k : Fin 4) (dx dy : Fin 16) (s : State) : Host.Outcome State Fault Refusal :=
  s.onDev (Dev.native c 1 (do accOut c k.val (lim40 ((← getAcc c k.val) + (← prodX c dx dy)))))
def execMsu (c : CoreId) (k : Fin 4) (dx dy : Fin 16) (s : State) : Host.Outcome State Fault Refusal :=
  s.onDev (Dev.native c 1 (do accOut c k.val (lim40 ((← getAcc c k.val) - (← prodX c dx dy)))))
def execMpy (c : CoreId) (k : Fin 4) (dx dy : Fin 16) (s : State) : Host.Outcome State Fault Refusal :=
  s.onDev (Dev.native c 1 (do setAcc c k.val (← prodX c dx dy)))
def execAccClr (c : CoreId) (k : Fin 4) (s : State) : Host.Outcome State Fault Refusal :=
  s.onDev (Dev.native c 1 (setAcc c k.val 0))
def execAddacc (c : CoreId) (k : Fin 4) (o : BitVec 4) (s : State) : Host.Outcome State Fault Refusal :=
  s.onDev (Dev.native c 1 (do accOut c k.val (lim40 ((← getAcc c k.val) + (← getAcc c (o.toNat % 4))))))
def execSubacc (c : CoreId) (k : Fin 4) (o : BitVec 4) (s : State) : Host.Outcome State Fault Refusal :=
  s.onDev (Dev.native c 1 (do accOut c k.val (lim40 ((← getAcc c k.val) - (← getAcc c (o.toNat % 4))))))
def execNegacc (c : CoreId) (k : Fin 4) (s : State) : Host.Outcome State Fault Refusal :=
  s.onDev (Dev.native c 1 (do accOut c k.val (lim40 (-(← getAcc c k.val)))))
def execAsl (c : CoreId) (k : Fin 4) (o : BitVec 4) (s : State) : Host.Outcome State Fault Refusal :=
  s.onDev (Dev.native c 1 (do accOut c k.val (lim40 ((← getAcc c k.val) * (2 ^ (o.toNat + 1) : Nat)))))
def execAccAsr (c : CoreId) (k : Fin 4) (o : BitVec 4) (s : State) : Host.Outcome State Fault Refusal :=
  s.onDev (Dev.native c 1 (do setAcc c k.val ((← getAcc c k.val) / (2 ^ (o.toNat + 1) : Nat))))
def execRnd (c : CoreId) (k : Fin 4) (s : State) : Host.Outcome State Fault Refusal :=
  s.onDev (Dev.native c 1 (do accOut c k.val (accRnd (← getAcc c k.val))))
def execSat32 (c : CoreId) (k : Fin 4) (s : State) : Host.Outcome State Fault Refusal :=
  s.onDev (Dev.native c 1 (do accOut c k.val (accSat32 (← getAcc c k.val))))

/-! ## Addresses and modifiers -/

def execAddaImm (c : CoreId) (an : Fin 8) (u : BitVec 6) (s : State) : Host.Outcome State Fault Refusal :=
  s.onDev (Dev.native c 1 (do setA c an.val ((← getA c an.val) + u.toNat)))
def execSuba (c : CoreId) (an : Fin 8) (u : BitVec 6) (s : State) : Host.Outcome State Fault Refusal :=
  s.onDev (Dev.native c 1 (do setA c an.val ((← getA c an.val) + 0x1000000 - u.toNat)))

/-- ADDA An, Dm: the low 4 bits of Dm, sign-extended (R77, log entry 30). -/
def addaDX (c : CoreId) (an : Fin 8) (m : Fin 16) : X Unit := do
  let v ← getD c m.val
  setA c an.val (toU 24 ((← getA c an.val) + sx 4 v))

def execAddaD (c : CoreId) (an : Fin 8) (m : Fin 16) (s : State) : Host.Outcome State Fault Refusal :=
  s.onDev (Dev.native c 1 (addaDX c an m))
def execAddaA (c : CoreId) (an am : Fin 8) (s : State) : Host.Outcome State Fault Refusal :=
  s.onDev (Dev.native c 1 (do setA c an.val ((← getA c an.val) + (← getA c am.val))))

/-- MSET: an odd m is reserved (R77). -/
def msetX (c : CoreId) (k : Fin 4) (m : Fin 16) : X Unit := do
  emuIf (m.val % 2 == 1)
  let lo ← getD c m.val
  let hi ← getD c (m.val + 1)
  modR c (fun r => { r with m := r.m.set k.val (BitVec.ofNat 32 (lo + 65536 * hi)) })

/-- MGET. -/
def mgetX (c : CoreId) (k : Fin 4) (m : Fin 16) : X Unit := do
  emuIf (m.val % 2 == 1)
  let v := (← regsX c).m[k.val].toNat
  setD c m.val (v % 65536)
  setD c (m.val + 1) (v / 65536)

def execMset (c : CoreId) (k : Fin 4) (m : Fin 16) (s : State) : Host.Outcome State Fault Refusal :=
  s.onDev (Dev.native c 1 (msetX c k m))
def execMget (c : CoreId) (k : Fin 4) (m : Fin 16) (s : State) : Host.Outcome State Fault Refusal :=
  s.onDev (Dev.native c 1 (mgetX c k m))

end Sys2Proof.Machine
end

