-- ==== Sys2Proof/Machine/IsaMem.lean ====
section
/-! DEFINITION. Loads and stores (R71, R72, R97, R113), the timebase and timer primitives (R80, R111, R112), the returns
of loads and the draining of buffered stores (R91, R130). -/

namespace Sys2Proof.Machine

/-- A memory operand is well formed: an even register for a pair (Table 3.11). -/
def memOpdOk : MemOpd → Bool
  | .pair d => d.val % 2 == 0
  | _ => true

/-- The destination of a load. -/
def loadDst : MemOpd → LoadDst
  | .word d => .word d
  | .pair d => .pair d
  | .accPair k => .accPair k
  | .accWord k => .accWord k

/-- The destination is not that of an outstanding load. -/
def dstFree (c : CoreId) (x : MemOpd) : X Unit := do
  let s ← coreX c
  stallIf (match x with
    | .word d => s.busyD d.val
    | .pair d => s.busyD d.val || s.busyD (d.val + 1)
    | .accPair k => s.busyAcc k.val
    | .accWord k => s.busyAcc k.val)

/-- The words a store takes from its registers, and whether an accumulator was limited (R57). -/
def storeVal (c : CoreId) (x : MemOpd) : X (List (BitVec 16) × Bool) := do
  match x with
  | .word d => return ([BitVec.ofNat 16 (← getD c d.val)], false)
  | .pair d => return ([BitVec.ofNat 16 (← getD c d.val), BitVec.ofNat 16 (← getD c (d.val + 1))], false)
  | .accPair k =>
    let (v, l) := accStore 32 (← getAcc c k.val)
    return ([BitVec.ofNat 16 v, BitVec.ofNat 16 (v / 65536)], l)
  | .accWord k =>
    let (v, l) := accStore 16 (← getAcc c k.val)
    return ([BitVec.ofNat 16 v], l)

/-- The effective address and the updated An of an address mode; the reserved forms trap (Table 3.10, R73). -/
def modeAddr (c : CoreId) (an : Fin 8) (mode : AddrMode) (size : Nat) : X (Nat × Nat) := do
  emuIf (mode == .modif && 4 ≤ an.val)
  let r ← regsX c
  match effAddr mode (r.getA an.val) size (r.m[an.val % 4]).toNat with
  | some p => return p
  | none => endX .emu

/-- A load at an address. -/
def loadAt (c : CoreId) (w : Nat) (x : MemOpd) : X Unit := do
  dstFree c x
  loadX c w (memSize x) (loadDst x)

/-- A store at an address. -/
def storeAt (c : CoreId) (w : Nat) (x : MemOpd) : X Unit := do
  let (vs, l) ← storeVal c x
  storeX c w vs
  setSr c (srAcc (← getSr c) { v := 0, ovs := false, sat := l })

/-- LOAD (R97). -/
def loadModeX (c : CoreId) (an : Fin 8) (mode : AddrMode) (x : MemOpd) : X Unit := do
  emuIf (!memOpdOk x)
  let (w, a) ← modeAddr c an mode (memSize x)
  loadAt c w x
  setA c an.val a

/-- STORE (R97). -/
def storeModeX (c : CoreId) (an : Fin 8) (mode : AddrMode) (x : MemOpd) : X Unit := do
  emuIf (!memOpdOk x)
  let (w, a) ← modeAddr c an mode (memSize x)
  storeAt c w x
  setA c an.val a

def execLoad (c : CoreId) (an : Fin 8) (mode : AddrMode) (x : MemOpd) (s : State) : Host.Outcome State Fault Refusal :=
  s.onDev (Dev.native c 1 (loadModeX c an mode x))
def execStore (c : CoreId) (an : Fin 8) (mode : AddrMode) (x : MemOpd) (s : State) : Host.Outcome State Fault Refusal :=
  s.onDev (Dev.native c 1 (storeModeX c an mode x))

/-- LDD and STD take D registers alone (Table 3.15). -/
def dispOpdOk : MemOpd → Bool
  | .word _ => true
  | .pair d => d.val % 2 == 0
  | _ => false

def lddX (c : CoreId) (an : Fin 8) (x : MemOpd) (disp : BitVec 16) : X Unit := do
  emuIf (!dispOpdOk x)
  loadAt c (dispAddr (← getA c an.val) disp) x

def stdX (c : CoreId) (an : Fin 8) (x : MemOpd) (disp : BitVec 16) : X Unit := do
  emuIf (!dispOpdOk x)
  storeAt c (dispAddr (← getA c an.val) disp) x

def execLdd (c : CoreId) (an : Fin 8) (x : MemOpd) (disp : BitVec 16) (s : State) : Host.Outcome State Fault Refusal :=
  s.onDev (Dev.native c 2 (lddX c an x disp))
def execStd (c : CoreId) (an : Fin 8) (x : MemOpd) (disp : BitVec 16) (s : State) : Host.Outcome State Fault Refusal :=
  s.onDev (Dev.native c 2 (stdX c an x disp))

/-! ## Timebase and timers -/

/-- TBR (R111). -/
def tbrX (c : CoreId) (p : Fin 4) : X Unit := do
  let t := (← get).time.toNat
  setD c (4 * p.val) (t % 65536)
  setD c (4 * p.val + 1) (t / 65536)
  setD c (4 * p.val + 2) (t / 2 ^ 32)
  setD c (4 * p.val + 3) (t / 2 ^ 48)

def execTbr (c : CoreId) (p : Fin 4) (s : State) : Host.Outcome State Fault Refusal :=
  s.onDev (Dev.native c 1 (tbrX c p))

/-- TBST (R111): one access of 4 words at a multiple of 4, else two accesses. -/
def tbstX (c : CoreId) (an : Fin 8) : X Unit := do
  let w ← getA c an.val
  let t := (← get).time.toNat
  let v (i : Nat) : BitVec 16 := BitVec.ofNat 16 (t / 65536 ^ i)
  let w1 := (w + 1) % 0x1000000
  let w2 := (w + 2) % 0x1000000
  let w3 := (w + 3) % 0x1000000
  ruleX c true w 2
  ruleX c true w2 2
  farX c w 4
  if w % 4 = 0 && !isRegWord w then
    storeAccess c [(w, 0xFFFF, v 0), (w1, 0xFFFF, v 1), (w2, 0xFFFF, v 2), (w3, 0xFFFF, v 3)]
  else
    storePair c w (v 0) (v 1)
    storePair c w2 (v 2) (v 3)

def execTbst (c : CoreId) (an : Fin 8) (s : State) : Host.Outcome State Fault Refusal :=
  s.onDev (Dev.native c 1 (tbstX c an))

/-- The divisor of a unit: ns, µs, ms, s (R80). -/
def unitDiv (u : Fin 4) : Nat := 1000 ^ u.val

/-- The time elapsed since the stamp at An (R112). -/
def elapsedX (c : CoreId) (unit : Fin 4) (an : Fin 8) : X Nat := do
  let now := (← get).time.toNat
  let st ← read4 c (← getA c an.val)
  return if st ≤ now then (now - st) / unitDiv unit else 0

def telapX (c : CoreId) (unit : Fin 4) (an p : Fin 8) : X Unit := do
  let e := min (← elapsedX c unit an) 0xFFFFFFFF
  setD c (2 * p.val) (e % 65536)
  setD c (2 * p.val + 1) (e / 65536)

def tcmpX (c : CoreId) (unit : Fin 4) (an p : Fin 8) : X Unit := do
  let e ← elapsedX c unit an
  let lo ← getD c (2 * p.val)
  let hi ← getD c (2 * p.val + 1)
  setCb c (decide (lo + 65536 * hi ≤ e))

def execTelap (c : CoreId) (unit : Fin 4) (an p : Fin 8) (s : State) : Host.Outcome State Fault Refusal :=
  s.onDev (Dev.native c 1 (telapX c unit an p))
def execTcmp (c : CoreId) (unit : Fin 4) (an p : Fin 8) (s : State) : Host.Outcome State Fault Refusal :=
  s.onDev (Dev.native c 1 (tcmpX c unit an p))

/-! ## Drains and returns -/

/-- STORE_BUFFER_DRAIN: entry `i` of the buffer becomes visible, where the order of R130 and R131 lets it. -/
def Dev.sbufDrain (c : CoreId) (i : Nat) (d : Dev) : Dev := if d.canDrain c i then d.drainEntry c i else d

def execStoreBufferDrain (c : CoreId) (i : Nat) (s : State) : Host.Outcome State Fault Refusal :=
  s.onDev (Dev.sbufDrain c i)

/-- LOAD_RETURN: outstanding load `i` returns its value, where the order of R131 lets it. -/
def Dev.loadReturn (c : CoreId) (i : Nat) (d : Dev) : Dev := if d.canReturn c i then d.returnLoad c i else d

def execLoadReturn (c : CoreId) (i : Nat) (s : State) : Host.Outcome State Fault Refusal :=
  s.onDev (Dev.loadReturn c i)

end Sys2Proof.Machine
end

