-- ==== Sys2Proof/Machine/IsaStack.lean ====
section
/-! DEFINITION. The instructions of stack mode (R85 to R87, R114, R115). -/

namespace Sys2Proof.Machine

/-- A binary operation: pop b, then a, and push `f a b`. -/
def binX (c : CoreId) (f : Nat → Nat → Nat) : X Unit := do
  let b ← pop c
  let a ← pop c
  push c (f a b)

/-- A unary operation. -/
def unX (c : CoreId) (f : Nat → Nat) : X Unit := do push c (f (← pop c))

/-- A comparison pushes 0xFFFF or 0x0000. -/
def truth (b : Bool) : Nat := if b then 0xFFFF else 0

def execLit (c : CoreId) (u : BitVec 12) (s : State) : Host.Outcome State Fault Refusal :=
  s.onDev (Dev.stackInstr c (push c u.toNat))
def execLith (c : CoreId) (u : BitVec 12) (s : State) : Host.Outcome State Fault Refusal :=
  s.onDev (Dev.stackInstr c (unX c (fun t => (t * 4096 + u.toNat) % 65536)))
def execStkAdd (c : CoreId) (s : State) : Host.Outcome State Fault Refusal :=
  s.onDev (Dev.stackInstr c (binX c (fun a b => (a + b) % 65536)))
def execStkSub (c : CoreId) (s : State) : Host.Outcome State Fault Refusal :=
  s.onDev (Dev.stackInstr c (binX c (fun a b => (a + 65536 - b) % 65536)))
def execStkAnd (c : CoreId) (s : State) : Host.Outcome State Fault Refusal :=
  s.onDev (Dev.stackInstr c (binX c (fun a b => a &&& b)))
def execStkOr (c : CoreId) (s : State) : Host.Outcome State Fault Refusal :=
  s.onDev (Dev.stackInstr c (binX c (fun a b => a ||| b)))
def execStkXor (c : CoreId) (s : State) : Host.Outcome State Fault Refusal :=
  s.onDev (Dev.stackInstr c (binX c (fun a b => a ^^^ b)))
def execStkShl (c : CoreId) (s : State) : Host.Outcome State Fault Refusal :=
  s.onDev (Dev.stackInstr c (binX c (fun a b => a * 2 ^ (b % 16) % 65536)))
def execStkShr (c : CoreId) (s : State) : Host.Outcome State Fault Refusal :=
  s.onDev (Dev.stackInstr c (binX c (fun a b => a / 2 ^ (b % 16))))
def execStkAsr (c : CoreId) (s : State) : Host.Outcome State Fault Refusal :=
  s.onDev (Dev.stackInstr c (binX c (fun a b => toU 16 (sx 16 a / (2 ^ (b % 16) : Nat)))))
def execStkMul (c : CoreId) (s : State) : Host.Outcome State Fault Refusal :=
  s.onDev (Dev.stackInstr c (binX c (fun a b => a * b % 65536)))
def execStkEq (c : CoreId) (s : State) : Host.Outcome State Fault Refusal :=
  s.onDev (Dev.stackInstr c (binX c (fun a b => truth (a == b))))
def execStkLts (c : CoreId) (s : State) : Host.Outcome State Fault Refusal :=
  s.onDev (Dev.stackInstr c (binX c (fun a b => truth (decide (sx 16 a < sx 16 b)))))
def execStkLtu (c : CoreId) (s : State) : Host.Outcome State Fault Refusal :=
  s.onDev (Dev.stackInstr c (binX c (fun a b => truth (decide (a < b)))))
def execStkNot (c : CoreId) (s : State) : Host.Outcome State Fault Refusal :=
  s.onDev (Dev.stackInstr c (unX c (fun a => 65535 - a)))
def execStkNeg (c : CoreId) (s : State) : Host.Outcome State Fault Refusal :=
  s.onDev (Dev.stackInstr c (unX c (fun a => (65536 - a) % 65536)))

def execDup (c : CoreId) (s : State) : Host.Outcome State Fault Refusal :=
  s.onDev (Dev.stackInstr c (do
    let a ← pop c
    push c a
    push c a))
def execDrop (c : CoreId) (s : State) : Host.Outcome State Fault Refusal :=
  s.onDev (Dev.stackInstr c (do
    let _ ← pop c
    pure ()))
def execSwap (c : CoreId) (s : State) : Host.Outcome State Fault Refusal :=
  s.onDev (Dev.stackInstr c (do
    let b ← pop c
    let a ← pop c
    push c b
    push c a))
def execOver (c : CoreId) (s : State) : Host.Outcome State Fault Refusal :=
  s.onDev (Dev.stackInstr c (do
    let b ← pop c
    let a ← pop c
    push c a
    push c b
    push c a))
def execRot (c : CoreId) (s : State) : Host.Outcome State Fault Refusal :=
  s.onDev (Dev.stackInstr c (do
    let z ← pop c
    let b ← pop c
    let a ← pop c
    push c b
    push c z
    push c a))

/-! ## Address registers -/

/-- Ak takes `f` of its value and the popped entry. -/
def popA (c : CoreId) (k : Fin 8) (f : Nat → Nat → Nat) : X Unit := do
  let v ← pop c
  setA c k.val (f (← getA c k.val) v)

def execPopaL (c : CoreId) (k : Fin 8) (s : State) : Host.Outcome State Fault Refusal :=
  s.onDev (Dev.stackInstr c (popA c k (fun a v => a / 65536 * 65536 + v)))
def execPopaH (c : CoreId) (k : Fin 8) (s : State) : Host.Outcome State Fault Refusal :=
  s.onDev (Dev.stackInstr c (popA c k (fun a v => a % 65536 + v % 256 * 65536)))
def execPushaL (c : CoreId) (k : Fin 8) (s : State) : Host.Outcome State Fault Refusal :=
  s.onDev (Dev.stackInstr c (do push c ((← getA c k.val) % 65536)))
def execPushaH (c : CoreId) (k : Fin 8) (s : State) : Host.Outcome State Fault Refusal :=
  s.onDev (Dev.stackInstr c (do push c ((← getA c k.val) / 65536)))
def execInca (c : CoreId) (k : Fin 8) (s : State) : Host.Outcome State Fault Refusal :=
  s.onDev (Dev.stackInstr c (popA c k (fun a v => toU 24 ((a : Int) + sx 16 v))))

/-! ## Memory -/

/-- LD and LD+: push the word at Ak. Where the operation names A4 and also spills or refills, R86 does not say which A4 it
uses: DESIGN CHOICE, LD and PUSHA take A4 as it stands before the spill of their push, ST, POPA and INCA as it stands after
the refill of their pop (log entry 66). -/
def stkLd (c : CoreId) (k : Fin 8) (inc : Nat) : X Unit := do
  let a ← getA c k.val
  ruleX c false a 1
  farX c a 1
  let v ← readWord c a
  push c v.toNat
  setA c k.val ((← getA c k.val) + inc)

/-- ST and ST+: store the popped entry at Ak. -/
def stkSt (c : CoreId) (k : Fin 8) (inc : Nat) : X Unit := do
  let v ← pop c
  let a ← getA c k.val
  storeX c a [BitVec.ofNat 16 v]
  setA c k.val (a + inc)

def execLd (c : CoreId) (k : Fin 8) (s : State) : Host.Outcome State Fault Refusal := s.onDev (Dev.stackInstr c (stkLd c k 0))
def execLdInc (c : CoreId) (k : Fin 8) (s : State) : Host.Outcome State Fault Refusal := s.onDev (Dev.stackInstr c (stkLd c k 1))
def execSt (c : CoreId) (k : Fin 8) (s : State) : Host.Outcome State Fault Refusal := s.onDev (Dev.stackInstr c (stkSt c k 0))
def execStInc (c : CoreId) (k : Fin 8) (s : State) : Host.Outcome State Fault Refusal := s.onDev (Dev.stackInstr c (stkSt c k 1))

/-! ## Control flow -/

/-- The target of a stack-mode BRA, BZ or CALL (R102); PC is already the next address. -/
def stkTarget (c : CoreId) (d : BitVec 12) : X Nat := do return toU 21 (((← getPc c : Nat) : Int) + sx 12 d.toNat)

def execStkBra (c : CoreId) (s : BitVec 12) (st : State) : Host.Outcome State Fault Refusal :=
  st.onDev (Dev.stackInstr c (do setPc c (← stkTarget c s)))
def execBz (c : CoreId) (s : BitVec 12) (st : State) : Host.Outcome State Fault Refusal :=
  st.onDev (Dev.stackInstr c (do
    let v ← pop c
    if v == 0 then setPc c (← stkTarget c s) else pure ()))
def execStkCall (c : CoreId) (s : BitVec 12) (st : State) : Host.Outcome State Fault Refusal :=
  st.onDev (Dev.stackInstr c (do callX c (← stkTarget c s) none))

end Sys2Proof.Machine
end

