-- ==== Sys2Proof/Machine/Firmware.lean ====
section
/-! DEFINITION. Firmware (22_boot_update.md): the firmware record (R508), the verification of an image (R509), the copy of a
staged image, and the end of a handover (R517). -/

namespace Sys2Proof.Machine

/-! ## Regions and the firmware record -/

/-- The first word of the firmware region that SRC names: 1 staging, else active. -/
def fwBase (src : Nat) : Nat := if src = 1 then 0x580000 else 0x500000

/-- SRC of the firmware record; NONE counts as 0. -/
def Dev.fwSrc (d : Dev) : Nat :=
  match d.recRead 0x700100 4 with
  | some (w :: _) => if w = 1 then 1 else 0
  | _ => 0

/-- Write the firmware record. -/
def Dev.writeFwRec (src ver : Nat) (d : Dev) : Dev := d.recUpdate 0x700100 (wordsLE 1 src ++ wordsLE 2 ver ++ [0])

/-- VERSION of the image at `base`. -/
def Dev.fwVersion (d : Dev) (base : Nat) : Nat := ofWords (d.nvWords (base + 2) 2)

/-- CODE_LEN and TBL_LEN in bytes. -/
def Dev.fwCodeLen (d : Dev) (base : Nat) : Nat := ofWords (d.nvWords (base + 4) 2)
def Dev.fwTblLen (d : Dev) (base : Nat) : Nat := ofWords (d.nvWords (base + 6) 2)

/-- The bytes of the image from `lo` up to `hi`; `lo` is even. -/
def Dev.fwBytes (d : Dev) (base lo hi : Nat) : List (BitVec 8) :=
  (wordBytes (d.nvWords (base + lo / 2) ((hi - lo + 1) / 2))).take (hi - lo)

/-! ## Verification (R509) -/

/-- MRAM granules of a range of words that hold an error. -/
def Dev.nvErrors (d : Dev) (off n : Nat) : List (Nat × Ecc) := d.arrErrors .mram (off / 4) ((off + n + 3) / 4)

/-- The ROM on the Bellwether reads a range (R455, Table 1.5). -/
def Dev.romRead (off n : Nat) (d : Dev) : Dev := d.readErrors 0xF0 .mram (d.nvErrors off n)

/-- MAGIC, FMT, the reserved bytes and the lengths of an image header. -/
def Dev.fwHeaderOk (d : Dev) (base : Nat) : Bool :=
  let w (i : Nat) : Nat := (d.nvWord (base + i)).toNat
  w 0 == 0x5746 && w 1 / 256 == 1
    && (d.nvWords (base + 8) 24).all (· == 0) && (d.nvWords (base + 128) 128).all (· == 0)
    && 8 ≤ d.fwCodeLen base && d.fwCodeLen base ≤ 131072 && d.fwCodeLen base % 8 == 0
    && 512 + d.fwCodeLen base + d.fwTblLen base ≤ 1048576

/-- The words of the image at `base` that the verification reads: the header, and the image where the header holds. -/
def Dev.fwWords (d : Dev) (base : Nat) : Nat :=
  if d.fwHeaderOk base then (512 + d.fwCodeLen base + d.fwTblLen base + 1) / 2 else 256

/-- OPK_HASH as bytes: byte 4k + j in bits [8j + 7:8j] of OPK_HASH[k]. -/
def Dev.opkBytes (d : Dev) : List (BitVec 8) := (List.range 12).flatMap (fun k => bytesLE 4 (d.rd (R.OPK_HASH k).addr).toNat)

/-- DFAIL of the image at `base`: the first condition that fails, 0 when it verifies. -/
def Dev.fwFail (d : Dev) (base : Nat) : Nat :=
  if !d.fwHeaderOk base then 1
  else
    let len := 512 + d.fwCodeLen base + d.fwTblLen base
    let pub := d.fwBytes base 64 160
    if bytesBE 48 (Config.sha384 (4 :: pub)).toNat != d.opkBytes then 2
    else if !Config.ecdsaVerify pub (Config.sha384 (d.fwBytes base 0 160 ++ d.fwBytes base 256 len)) (d.fwBytes base 160 256) then 3
    else if (d.nvErrors base ((len + 1) / 2)).any (fun e => e.2 == .unc) then 4
    else 0

/-! ## Copying and loading (Table 22.3, steps 4 and 5) -/

/-- The active region becomes a copy of the staging region. -/
def Dev.fwCopy (d : Dev) : Dev :=
  let active (k : Nat) : Bool := k % 64 == arrCode .mram && 0x500000 ≤ k / 64 && k / 64 < 0x580000
  let activeG (k : Nat) : Bool := k % 64 == arrCode .mram && 0x140000 ≤ k / 64 && k / 64 < 0x160000
  let d1 := { d with mem := d.mem.filter (fun e => !active e.1), ecc := d.ecc.filter (fun e => !activeG e.1) }
  (d.mem.filter (fun e => e.1 % 64 == arrCode .mram && 0x580000 ≤ e.1 / 64 && e.1 / 64 < 0x600000)).foldl
    (fun d e => d.setMw .mram (e.1 / 64 - 0x80000) e.2) d1

/-- CODE of the active region is loaded into the running bank, and the Bellwether continues there. -/
def Dev.fwLoad (d : Dev) : Dev :=
  let code := d.nvWords 0x500100 (d.fwCodeLen 0x500000 / 2)
  let d := (d.setMws (.bell d.sys.bellBank) 0 code).put R.FW_VER (d.fwVersion 0x500000)
  d.updCore 16 (fun c => { c with s0 := { c.s0 with pc := 0, sr := c.s0.sr &&& 0xBFFF } })

/-! ## The end of a handover (Table 22.5, steps 3 to 6) -/

/-- Every command that runs is the handover itself. -/
def Dev.handoverQuiet (d : Dev) : Bool := d.hif.running.all (fun r => r.wait == .handover)

/-- HANDOVER_POINT: ID 0 has been accepted in this Goose period, so the fetching of commands stops; when the running
commands have completed, the write of the firmware record starts. -/
def Dev.handoverPoint (d : Dev) : Dev :=
  if d.hif.hoRun && !d.hif.hoCommit then
    let d := if tst (d.get R.GOOSE_SEEN) 0 then d.clrF R.HIF_STAT_RDY else d
    if !d.flag R.HIF_STAT_RDY && d.handoverQuiet then d.updHif (fun h => { h with hoCommit := true }) else d
  else d

/-- FW_COMMIT_POINT: the firmware record names the staged image, the banks exchange roles, and the new image takes over. -/
def Dev.fwCommit (d : Dev) : Dev :=
  if d.hif.hoCommit then
    let ver := d.fwVersion 0x580000
    let d := d.writeFwRec 1 ver
    let d := { d with sys := { d.sys with bellBank := !d.sys.bellBank } }
    let d := d.updCore 16 (fun c => { c with s0 := { c.s0 with pc := 0 }, wait := .none, latch := .empty })
    let d := ((d.put R.FW_VER ver).setF R.FW_STAT_PEND_BOOT).raise 15
    let d := match d.hif.running.find? (fun r => r.wait == .handover) with
      | some r => d.hostFinish r 0 0
      | none => d
    ((d.hostServe.clrF R.FW_STAT_HBUSY).updHif (fun h => { h with hoRun := false, hoCommit := false }))
  else d

end Sys2Proof.Machine
end

