-- ==== Sys2Proof/Machine/Boot.lean ====
section
/-! DEFINITION. The boot sequence (22_boot_update.md, R504, Table 22.3), autorun (R514, R515), what a reset keeps (Table 22.2)
and the internal reset (R502, R503). A boot runs whole in the command that releases the device from reset: log entry 42. -/

namespace Sys2Proof.Machine

/-! ## Steps 1 and 2: fuses and root -/

/-- A root drawn after `bad` failed draws (R489): none when the repeats are used up. -/
def Dev.drawRoot (bad : Nat) (d : Dev) : Option (BitVec 256) × Dev :=
  let n := d.key.draws + 4 * bad
  if bad < 9 then
    (some (Config.sha256 ((List.range 4).flatMap (fun i => bytesLE 32 (Config.trng (n + i)).toNat))),
      d.updKey (fun k => { k with draws := n + 4 }))
  else (none, d.updKey (fun k => { k with draws := n }))

/-- Step 2 on the live bank: the root in use, or a root generated into the first unprogrammed field. -/
def Bank.withRoot (v : Option (BitVec 256)) (b : Bank) : Bank :=
  match v with
  | none => b
  | some v =>
    if !b.rootA.prog then { b with rootA := b.rootA.program .root v 0 }
    else if !b.rootB.prog then { b with rootB := b.rootB.program .root v 0 }
    else b

/-- The bank needs a root and has a field for one. -/
def Bank.needsRoot (b : Bank) : Bool := b.root.isNone && (!b.rootA.prog || !b.rootB.prog)

/-- The key inputs of a state (Table 21.1, R493, R495). -/
def keyInputs (st : Nat) (b : Option Bank) (k : KeySt) : KeySt :=
  match st, b with
  | 0, _ => { k with root := .test, pair := .test, fab := .test, dbg := .test }
  | _, some b =>
    { k with
      root := match b.root with
        | some r => .val r.2
        | none => .absent
      pair := b.keyIn 0, fab := b.keyIn 1, dbg := b.keyIn 2 }
  | _, none => { k with root := .absent, pair := .absent, fab := .absent, dbg := .absent }

/-- The torn transition is completed (R485, R487). -/
def Fuses.complete (f : Fuses) : Fuses := (f.burnLc (lcCode (lcState f.lc))).burnBanks (lcState f.lc)

/-- Steps 1 and 2. The Hen records tagged before a transition carry a key that no longer exists (R445). -/
def State.bootKeys (env : BootEnv) (s : State) : State :=
  let f := s.fuses.complete
  let torn := f != s.fuses
  let st := lcState f.lc
  let d := s.dev
  let d := if d.get R.LC_STAT_STATE != st then d.updHen (fun h => { h with oldSeq := d.get R.HEN_SEQ }) else d
  let d := d.showProt f
  let d := upTo 12 (fun k d => d.wrReg (R.OPK_HASH k).addr (BitVec.ofNat 32 (f.opk.toNat / 2 ^ (32 * k)))) d
  let d := (d.wrReg R.UID_LO.addr (BitVec.ofNat 32 f.uid.toNat)).wrReg R.UID_HI.addr (BitVec.ofNat 32 (f.uid.toNat / 2 ^ 32))
  let gen := (f.bank st).any Bank.needsRoot
  let (v, d) := if gen then d.drawRoot env.badDraws.val else (none, d)
  let bank := (f.bank st).map (Bank.withRoot v)
  let f := match bank with
    | some b => f.setBank st b
    | none => f
  let root := match bank with
    | some b => match b.root with
      | some r => r.1
      | none => 2
    | none => 2
  let lc := f.lc.toNat + st * 2 ^ 16 + b2n (st == 0) * 2 ^ 21 + root * 2 ^ 22 + b2n v.isSome * 2 ^ 24
  let d := (d.wrReg R.LC_STAT.addr (BitVec.ofNat 32 lc)).showSlots bank
  let d := d.put R.BOOT_STAT_TORN (b2n torn)
  { s with fuses := f, dev := d.updKey (keyInputs st bank) }

/-! ## Step 7: autorun (R515) -/

/-- The result of autorun from the program-store copy at `off`, and the device with bank A loaded when it succeeds. The
package is copied verbatim; a copy whose length or granules cannot be read has no correct CRC. -/
def Dev.autorunLoad (copy : Nat) (d : Dev) : Nat × Dev :=
  let off := copy * 0x200000
  let len := ofWords (d.nvWords (off + 2) 2)
  if len < 64 || 0x200000 < len then (4, d.romRead off 4)
  else if (d.nvErrors off len).any (fun e => e.2 == .unc) then (4, d.romRead off len)
  else
    let d := d.romRead off len
    let d1 := d.setMws (.prog false) 0 (d.nvWords off len)
    if !d1.checkCrc false then (4, d)
    else if (d1.put R.PROG_ID (d1.pd false 6)).packageErr false != 0 then (5, d)
    else
      let d1 := (d1.regList false).foldl (fun d r => d.listWrite r) d1
      let d1 := (d1.put R.PROG_STAT_ACTIVE 0).put R.PROG_ID (d1.pkgId false)
      (1, { d1 with prog := { d1.prog with loaded := true, storeB := copy == 1 } })

/-- Step 7: BOOT_ARUN takes MODE from the boot record; the stored program is loaded and started as it says. -/
def Dev.autorun (d : Dev) : Dev :=
  let mode := match d.recRead 0x700200 2 with
    | some (w :: _) => w.toNat % 4
    | _ => 0
  let d := (d.recMark 0x700200 2).put R.BOOT_ARUN_MODE mode
  if mode == 1 || mode == 2 then
    let rec_ := d.commitRec
    let d := d.recMark 0x700000 6
    match rec_ with
    | none => d.put R.BOOT_STAT_PRG 3
    | some (copy, _) =>
      let (res, d) := d.autorunLoad (copy % 2)
      if res != 1 || mode == 1 then d.put R.BOOT_STAT_PRG res
      else if d.get R.PAIR_STAT_ROLE == 2 then d.put R.BOOT_STAT_PRG 6
      else (d.scanStart true).put R.BOOT_STAT_PRG 2
  else d

/-! ## Steps 3 to 6 -/

/-- The Dead state is entered (R510). -/
def Dev.bootDead (dfail : Nat) (d : Dev) : Dev := (d.put R.BOOT_STAT_DFAIL dfail).setF R.BOOT_STAT_DEAD

/-- Steps 5 to 7, from a verified image in the active region. -/
def Dev.bootLoad (d : Dev) : Dev :=
  let d := d.fwLoad.loadPairCfg
  let d := if d.henUnflushed == 0 then d else d.henFlush false
  d.hostServe.autorun

/-- Step 4: the staging region is copied, once more when the copy differs; then the firmware record names the active
region. -/
def Dev.bootCopy (env : BootEnv) (d : Dev) : Dev :=
  let ver := d.fwVersion 0x580000
  let d := d.fwCopy
  let bad := if env.copyBad then env.copyErr.filter (fun e => e.2 != .ok) else []
  let d := bad.foldl (fun d e => d.setEcc .mram (0x500000 + 4 * e.1.val) e.2) d
  if !bad.isEmpty then d.bootDead 5
  else ((d.writeFwRec 0 ver).clrF R.FW_STAT_PEND_BOOT).bootLoad

/-- Steps 4 to 7, after the image of region `src` has verified. -/
def Dev.bootFrom (env : BootEnv) (src : Nat) (d : Dev) : Dev :=
  let d := (d.put R.BOOT_STAT_SRC src).put R.FW_STAT_PEND_BOOT src
  if src == 1 then d.bootCopy env else d.bootLoad

/-- Step 3: the image of the region that the firmware record names is verified. -/
def Dev.bootVerify (env : BootEnv) (d : Dev) : Dev :=
  let src := d.fwSrc
  let d := (d.recMark 0x700100 4).romRead (fwBase src) (d.fwWords (fwBase src))
  match d.fwFail (fwBase src) with
  | 0 => d.bootFrom env src
  | e => (d.put R.FW_STAT_PEND_BOOT src).bootDead e

/-- The boot (R504). -/
def State.boot (env : BootEnv) (s : State) : State :=
  let s := s.bootKeys env
  { s with dev := s.dev.bootVerify env }

/-! ## What a reset keeps (Table 22.2) -/

/-- Registers and bits that every reset but a power-on reset keeps: RESET_CAUSE, MC_STATUS, MC_ADDR, the W1C flags of
GOOSE_STAT, GOOSE_MISSING, GOOSE_DUP, HEN_SEQ, NV_PF, and SUP_STAT but for TJ_CORE (R30, R425, R426, R539). -/
def keptRegs : List (Nat × BitVec 32) :=
  [(R.RESET_CAUSE.addr, 0xFFFFFFFF), (R.MC_STATUS.addr, 0xFFFFFFFF), (R.MC_ADDR.addr, 0xFFFFFFFF), (R.GOOSE_STAT.addr, 0x1F0),
    (R.GOOSE_MISSING.addr, 0xFFFFFFFF), (R.GOOSE_DUP.addr, 0xFFFFFFFF), (R.HEN_SEQ.addr, 0xFFFFFFFF),
    (R.NV_PF.addr, 0xFFFFFFFF), (R.SUP_STAT.addr, 0x00FFFFFF)]

/-- Bits that show a pin or the fuses, and follow them through every reset: NV_STAT.PFW, FIO_STAT.VFLD_OK, PAIR_STAT.PACT,
LC_STAT.STATE until the boot decodes it again, BK_IF.LOCKED, which shows the supply (DEDUCED, log entry 75). -/
def pinRegs : List (Nat × BitVec 32) :=
  [(R.NV_STAT.addr, 0x200), (R.FIO_STAT.addr, 0x2), (R.PAIR_STAT.addr, rangeMask R.PAIR_STAT_PACT.hi R.PAIR_STAT_PACT.lo),
    (R.LC_STAT.addr, 0x30000), (R.BK_IF.addr, 0x2)]

/-- A register of the backup domain (R469). BK_IF, on the core die, resets with the device. -/
def backupReg (a : Nat) : Bool := 0xE2800 ≤ a && a < 0xE2C00 && a != R.BK_IF.addr

/-- An array that a reset keeps: MRAM, and the Hen buffer but for a power-on reset. -/
def keptArr (powerOn : Bool) (key : Nat) : Bool :=
  key % 64 == arrCode .mram || (!powerOn && key % 64 == arrCode .henBuf)

/-- The registers of `d` under the masks laid over those of `d0`. -/
def Dev.keepRegs (d : Dev) (ks : List (Nat × BitVec 32)) (d0 : Dev) : Dev :=
  ks.foldl (fun d0 k => d0.wrReg k.1 ((d0.rd k.1 &&& ~~~k.2) ||| (d.rd k.1 &&& k.2))) d0

/-- The granules with an error among those of the SEQ words of the record slots. -/
def Dev.henErrors (d : Dev) : List (Nat × Ecc) :=
  (d.nvErrors 0x680000 0x28000).filter (fun e => e.1 % 16 == 0 || e.1 % 16 == 15)

/-- HEN_SEQ after a power-on reset (R442): a slot whose SEQ words cannot be read is not used. -/
def Dev.henRebuild (d : Dev) : Nat :=
  let bad := (d.henErrors.filter (fun e => e.2 == .unc)).map (fun e => e.1 / 16)
  (List.range 2560).foldl (fun m i =>
    let a := ofWords (d.nvWords (slotMram i) 2)
    if a == ofWords (d.nvWords (slotMram i + 62) 2) && !bad.contains (slotMram i / 64) then max m a else m) 0

/-- The device after an internal reset (Table 22.2), before the boot. `clear`: the timebase becomes 0. -/
def Dev.afterReset (powerOn clear : Bool) (d : Dev) : Dev :=
  let time := if clear then 0 else d.time
  let d0 : Dev := { Dev.reset with
    time := time
    regs := d.regs.filter (fun e => backupReg e.1)
    mem := d.mem.filter (fun e => keptArr powerOn e.1)
    ecc := d.ecc.filter (fun e => keptArr powerOn e.1)
    hen := { HenSt.zero with floor := d.hen.floor, oldSeq := d.hen.oldSeq }
    nv := { NvSt.zero with armed := d.nv.armed }
    key := { KeySt.zero with draws := d.key.draws, damaged := d.key.damaged, refusedAt := if clear then none else d.key.refusedAt }
    hif := if powerOn then HifSt.zero
      else { HifSt.zero with
        link := d.hif.link, perst := d.hif.perst, cfg := d.hif.cfg, msixEn := d.hif.msixEn, fmask := d.hif.fmask
        tbl := d.hif.tbl, pba := d.hif.pba }
    pair := { PairSt.zero with pactAt := d.pair.pactAt }
    fio := { FioSt.zero with loss := d.fio.loss, lockout := d.fio.lockout, hot := d.fio.hot, relAt := time }
    bk := { d.bk with hostLat := 0 }
    fab := { (default : FabSt) with nPpb := d.fab.nPpb }
    sys := { SysSt.zero with pinLow := d.sys.pinLow, fenceLow := d.sys.fenceLow, boRails := d.sys.boRails }
    out := d.out }
  let d0 := d.keepRegs pinRegs d0
  let d0 := d0.put R.FIO_STAT_FIO_FAULT (b2n (d.fio.hot || d.fio.loss))
  if powerOn then
    let seq := d0.henRebuild
    ((d0.put R.HEN_SEQ seq).updHen (fun h => { h with floor := seq })).readErrors 0xF8 .mram d0.henErrors
  else d.keepRegs keptRegs d0

/-- The RESET_CAUSE bit of a source. -/
def causeFld : Cause → Fld
  | .powerOn => R.RESET_CAUSE_POWER_ON
  | .pin => R.RESET_CAUSE_PIN
  | .goose => R.RESET_CAUSE_GOOSE
  | .machineCheck => R.RESET_CAUSE_MACHINE_CHECK
  | .host => R.RESET_CAUSE_HOST
  | .pairFence => R.RESET_CAUSE_PAIR_FENCE
  | .brownout => R.RESET_CAUSE_BROWNOUT
  | .deadExit => R.RESET_CAUSE_DEAD_EXIT_DENIED

/-- Set the RESET_CAUSE bit of a source (R426). -/
def Dev.setCause (c : Cause) (d : Dev) : Dev := d.setF (causeFld c)

/-- Something holds the device in reset (R389, R501, R524). -/
def Dev.mustHold (d : Dev) : Bool := d.sys.pinLow || d.sys.fenceLow || d.sys.boRails != 0

/-- The device with the causes of this reset, and after a fatal machine check with FATAL and, for an escalation, ESC (R27,
R29). -/
def Dev.markCauses (cs : List Cause) (old d : Dev) : Dev :=
  let d := cs.foldl (fun d c => d.setCause c) d
  if cs.contains .machineCheck then
    let d := d.setF R.MC_STATUS_FATAL
    if old.sys.fatalEsc then d.setF R.MC_STATUS_ESC else d
  else d

/-- The internal reset (R502, R503): what is kept, its causes, and the boot unless something holds the device in reset. -/
def State.internalReset (cs : List Cause) (lc : BitVec 16) (env : BootEnv) (s : State) : State :=
  let powerOn := cs == [Cause.powerOn]
  let s := s.cutBurn lc
  let old := s.dev
  let clear := powerOn || (cs.contains .machineCheck && old.sys.fatalClock && !cs.contains .brownout)
  let d := Dev.markCauses cs old (old.afterReset powerOn clear)
  let s := { s with dev := d }
  if d.mustHold then { s with dev := { d with sys := { d.sys with held := true } } } else s.boot env

/-- The device leaves reset when nothing holds it any longer. -/
def State.release (env : BootEnv) (s : State) : State :=
  if s.dev.sys.held && !s.dev.mustHold then
    let d := s.dev
    { s with dev := { d with sys := { d.sys with held := false }, fio := { d.fio with relAt := d.time } } }.boot env
  else s

end Sys2Proof.Machine
end

