-- ==== Sys2Proof/Machine/KeyCommands.lean ====
section
/-! DEFINITION. The commands of the key engine, the debug port, the Dead exit and the firmware handover
(21_keys_lifecycle.md, 22_boot_update.md). -/

namespace Sys2Proof.Machine

/-! ## The Dead exit (R513) -/

/-- DEAD_EXIT: the region that the firmware record does not name boots when it verifies and debug is enabled; else the
device resets. BOOT_STAT shows the verification that the exit makes. -/
def State.deadExit (lc : BitVec 16) (env : BootEnv) (s : State) : State :=
  let d := s.dev
  if !d.flag R.BOOT_STAT_DEAD then s
  else
    let src := 1 - d.fwSrc
    if d.flag R.LC_STAT_DBG_EN && d.fwFail (fwBase src) == 0 then
      let d := (d.romRead (fwBase src) 0x80000).writeFwRec src (d.fwVersion (fwBase src))
      { s with dev := ((d.clrF R.BOOT_STAT_DEAD).put R.BOOT_STAT_DFAIL 0).bootFrom env src }
    else s.internalReset (d.sys.due ++ [Cause.deadExit]) lc env

/-! ## The commands -/

/-- LC_CMD (R486). -/
def execLcCmd (r : Req) (key : BitVec 16) (target : Fin 4) (s : State) : Host.Outcome State Fault Refusal :=
  s.onDev (fun d => d.wholeCmd r R.LC_CMD.addr (BitVec.ofNat 32 (key.toNat * 65536 + target.val)))

/-- LC_BURN_DONE (R487). -/
def execLcBurnDone (s : State) : Host.Outcome State Fault Refusal := s.onAll State.lcBurnDone

/-- KS_PROG (R490). -/
def execKsProg (r : Req) (key : BitVec 16) (attr : BitVec 3) (slot : Fin 32) (s : State) : Host.Outcome State Fault Refusal :=
  s.onDev (fun d => d.wholeCmd r R.KS_PROG.addr (BitVec.ofNat 32 (key.toNat * 65536 + attr.toNat * 256 + slot.val)))

/-- KS_PROG_DONE (R490). -/
def execKsProgDone (s : State) : Host.Outcome State Fault Refusal := s.onAll State.ksProgDone

/-- PS_BURN (R498). -/
def execPsBurn (r : Req) (key : BitVec 16) (s : State) : Host.Outcome State Fault Refusal :=
  s.onDev (fun d => d.wholeCmd r R.PS_BURN.addr (BitVec.ofNat 32 (key.toNat * 65536)))

/-- PS_BURN_DONE (R498). -/
def execPsBurnDone (s : State) : Host.Outcome State Fault Refusal := s.onAll State.psBurnDone

/-- DEBUG_ENABLE_REQUEST (R505). -/
def execDebugEnableRequest (s : State) : Host.Outcome State Fault Refusal := s.onDev Dev.debugRequest

/-- DEBUG_RESPONSE (R497). -/
def execDebugResponse (resp : BitVec 256) (s : State) : Host.Outcome State Fault Refusal := s.onDev (Dev.debugResponse resp)

/-- DEAD_EXIT (R513). -/
def execDeadExit (lc : BitVec 16) (env : BootEnv) (s : State) : Host.Outcome State Fault Refusal :=
  s.onAll (State.deadExit lc env)

/-- HANDOVER_POINT (R517). -/
def execHandoverPoint (s : State) : Host.Outcome State Fault Refusal := s.onDev Dev.handoverPoint

/-- FW_COMMIT_POINT (R517). -/
def execFwCommitPoint (s : State) : Host.Outcome State Fault Refusal := s.onDev Dev.fwCommit

/-- BOOT_ARUN_STORE: a write of BOOT_ARUN with MODE and STORE (R514). -/
def execBootArunStore (r : Req) (m : Fin 4) (s : State) : Host.Outcome State Fault Refusal :=
  s.onDev (fun d => d.wholeCmd r R.BOOT_ARUN.addr (BitVec.ofNat 32 (0x80000000 + m.val)))

end Sys2Proof.Machine
end

