-- ==== Sys2Proof/Machine/MuleCommands.lean ====
section
/-! DEFINITION. The commands of the Mule and of the motion groups: register writes with an effect of their own
(08_mule_loops.md, 09_trajectory.md). What they set in motion takes place at t_n, in RING_CYCLE_START. -/

namespace Sys2Proof.Machine

/-- AXIS_ENABLE: AXIS[n].CMD.ENABLE (R212, R214). -/
def execAxisEnable (r : Req) (n : Fin 128) (s : State) : Host.Outcome State Fault Refusal :=
  s.onDev (fun d => d.actCmd r (R.AXIS_CMD_ENABLE n.val) 1)

/-- AXIS_DISABLE: AXIS[n].CMD.DISABLE (R212). -/
def execAxisDisable (r : Req) (n : Fin 128) (s : State) : Host.Outcome State Fault Refusal :=
  s.onDev (fun d => d.actCmd r (R.AXIS_CMD_DISABLE n.val) 1)

/-- CLR_FAULT: AXIS[n].CMD.CLR_FAULT (R212). -/
def execClrFault (r : Req) (n : Fin 128) (s : State) : Host.Outcome State Fault Refusal :=
  s.onDev (fun d => d.actCmd r (R.AXIS_CMD_CLR_FAULT n.val) 1)

/-- AXIS_SWAP: AXIS[n].CMD.SWAP (R211). -/
def execAxisSwap (r : Req) (n : Fin 128) (s : State) : Host.Outcome State Fault Refusal :=
  s.onDev (fun d => d.actCmd r (R.AXIS_CMD_SWAP n.val) 1)

/-- PEAK_CLR: AXIS[n].CMD.PEAK_CLR. -/
def execPeakClr (r : Req) (n : Fin 128) (s : State) : Host.Outcome State Fault Refusal :=
  s.onDev (fun d => d.actCmd r (R.AXIS_CMD_PEAK_CLR n.val) 1)

/-- DIS_ALL: MULE_CMD.DIS_ALL. -/
def execDisAll (r : Req) (s : State) : Host.Outcome State Fault Refusal := s.onDev (fun d => d.actCmd r R.MULE_CMD_DIS_ALL 1)

/-- SWAP_LIST: MULE_CMD.SWAP_LIST (R211). -/
def execSwapList (r : Req) (s : State) : Host.Outcome State Fault Refusal := s.onDev (fun d => d.actCmd r R.MULE_CMD_SWAP_LIST 1)

/-- COEFFICIENT_WRITE (R209, R210). -/
def execCoefficientWrite (r : Req) (n : Fin 128) (bank : Bool) (i : Fin 32) (v : BitVec 32) (s : State) :
    Host.Outcome State Fault Refusal := s.onDev (fun d => d.wholeCmd r (R.COEF n.val (b2n bank) i.val).addr v)

/-- The address of a guarded register of axis `n`. -/
def axisCfgAddr (n : Nat) : AxisCfgReg → Nat
  | .ctrl => (R.AXIS_CTRL n).addr
  | .map => (R.AXIS_MAP n).addr
  | .fbCfg => (R.AXIS_FB_CFG n).addr
  | .posOfs => (R.AXIS_POS_OFS n).addr
  | .posSp => (R.AXIS_POS_SP n).addr
  | .velSp => (R.AXIS_VEL_SP n).addr
  | .accSp => (R.AXIS_ACC_SP n).addr

/-- AXIS_CONFIG_WRITE (R226). -/
def execAxisConfigWrite (r : Req) (n : Fin 128) (reg : AxisCfgReg) (v : BitVec 32) (s : State) :
    Host.Outcome State Fault Refusal := s.onDev (fun d => d.wholeCmd r (axisCfgAddr n.val reg) v)

/-- GANTRY_CTRL_WRITE (R222). -/
def execGantryCtrlWrite (r : Req) (g : Fin 16) (v : BitVec 32) (s : State) : Host.Outcome State Fault Refusal :=
  s.onDev (fun d => d.wholeCmd r (R.GANTRY_CTRL g.val).addr v)

/-- GANTRY_OFS_WRITE. -/
def execGantryOfsWrite (r : Req) (g : Fin 16) (v : BitVec 32) (s : State) : Host.Outcome State Fault Refusal :=
  s.onDev (fun d => d.wholeCmd r (R.GANTRY_OFS g.val).addr v)

/-- GROUP_ENABLE: a CFG write whose EN is 1 (R227). -/
def execGroupEnable (r : Req) (g : Fin 16) (v : BitVec 32) (s : State) : Host.Outcome State Fault Refusal :=
  s.onDev (fun d => d.wholeCmd r (R.GROUP_CFG g.val).addr (v ||| 0x80000000))

/-- GROUP_CFG_WRITE (R228). -/
def execGroupCfgWrite (r : Req) (g : Fin 16) (v : BitVec 32) (s : State) : Host.Outcome State Fault Refusal :=
  s.onDev (fun d => d.wholeCmd r (R.GROUP_CFG g.val).addr v)

/-- MEMBER_WRITE: MEMBER[k].AXIS (R228). -/
def execMemberWrite (r : Req) (g : Fin 16) (k : Fin 8) (v : BitVec 32) (s : State) : Host.Outcome State Fault Refusal :=
  s.onDev (fun d => d.wholeCmd r (R.GROUP_MEMBER_AXIS g.val k.val).addr v)

/-- GO (R239). -/
def execGo (r : Req) (g : Fin 16) (s : State) : Host.Outcome State Fault Refusal :=
  s.onDev (fun d => d.actCmd r (R.GROUP_CMD_GO g.val) 1)

/-- STOP (R239). -/
def execStop (r : Req) (g : Fin 16) (s : State) : Host.Outcome State Fault Refusal :=
  s.onDev (fun d => d.actCmd r (R.GROUP_CMD_STOP g.val) 1)

/-- QSTOP (R239). -/
def execQstop (r : Req) (g : Fin 16) (s : State) : Host.Outcome State Fault Refusal :=
  s.onDev (fun d => d.actCmd r (R.GROUP_CMD_QSTOP g.val) 1)

/-- FLUSH (R239). -/
def execFlush (r : Req) (g : Fin 16) (s : State) : Host.Outcome State Fault Refusal :=
  s.onDev (fun d => d.actCmd r (R.GROUP_CMD_FLUSH g.val) 1)

/-- RESUME (R239). -/
def execResume (r : Req) (g : Fin 16) (s : State) : Host.Outcome State Fault Refusal :=
  s.onDev (fun d => d.actCmd r (R.GROUP_CMD_RESUME g.val) 1)

/-- QPTR_WRITE (R233). -/
def execQptrWrite (r : Req) (g : Fin 16) (v : BitVec 32) (s : State) : Host.Outcome State Fault Refusal :=
  s.onDev (fun d => d.wholeCmd r (R.GROUP_QPTR g.val).addr v)


/-- QUEUE_ENTRY_WRITE: word `i` of a group's queue (R233). A core's access obeys its rules, the host's its permissions. -/
def execQueueEntryWrite (r : Req) (g : Fin 16) (i : Fin 1024) (v : BitVec 16) (s : State) : Host.Outcome State Fault Refusal :=
  let a := (R.SEGQ g.val (i.val / 2)).addr
  let w : Wr := if i.val % 2 = 0 then { mask := 0xFFFF, val := BitVec.ofNat 32 v.toNat, wo := true } else Wr.high v
  s.onDev (fun d => d.regCmd r a w)

end Sys2Proof.Machine
end

