-- ==== Sys2Proof/Machine/NvCommands.lean ====
section
/-! DEFINITION. The commands of the non-volatile store (19_nonvolatile.md): drains, record-engine and wear-ring operations,
and the power-fail sequence. `bad`: granules of a page whose read-back does not match. -/

namespace Sys2Proof.Machine

/-- BUFFER_DRAIN (R448, R452). -/
def execBufferDrain (s : State) : Host.Outcome State Fault Refusal := s.onDev Dev.bufferDrain

/-- VERIFY_PASS_DONE (R453, R454). -/
def execVerifyPassDone (bad : List (Fin 32 × Ecc)) (s : State) : Host.Outcome State Fault Refusal :=
  s.onDev (Dev.verifyPassDone bad)

/-- NVR_READ: NVR_CMD with OP 0b01 (R459, R460). -/
def execNvrRead (r : Req) (s : State) : Host.Outcome State Fault Refusal := s.onDev (fun d => d.actCmd r R.NVR_CMD_OP 1)

/-- NVR_WRITE: NVR_CMD with OP 0b10 (R458, R460). -/
def execNvrWrite (r : Req) (s : State) : Host.Outcome State Fault Refusal := s.onDev (fun d => d.actCmd r R.NVR_CMD_OP 2)

/-- NVR_DONE (R460). -/
def execNvrDone (bad : List (Fin 32 × Ecc)) (s : State) : Host.Outcome State Fault Refusal := s.onDev (Dev.nvrDone bad)

/-- WRING_ENABLE: a CFG write whose EN is 1 (R462). -/
def execWringEnable (r : Req) (k : Fin 16) (v : BitVec 32) (s : State) : Host.Outcome State Fault Refusal :=
  s.onDev (fun d => d.wholeCmd r (R.WRING_CFG k.val).addr (v ||| 0x80000000))

/-- WRING_LOAD_DONE (R462). -/
def execWringLoadDone (k : Fin 16) (s : State) : Host.Outcome State Fault Refusal := s.onDev (Dev.wringLoadDone k.val)

/-- WRING_TRIGGER (R463). -/
def execWringTrigger (k : Fin 16) (s : State) : Host.Outcome State Fault Refusal := s.onDev (Dev.wringTrigger k.val)

/-- WRING_UPDATE_DONE (R463). -/
def execWringUpdateDone (k : Fin 16) (bad : List (Fin 32 × Ecc)) (s : State) : Host.Outcome State Fault Refusal :=
  s.onDev (Dev.wringUpdateDone k.val bad)

/-- POWER_FAIL (R465, R529). -/
def execPowerFail (s : State) : Host.Outcome State Fault Refusal := s.onAny Dev.powerFail

/-- POWER_FAIL_DONE (Table 19.4). -/
def execPowerFailDone (s : State) : Host.Outcome State Fault Refusal := s.onDev Dev.powerFailDone

/-- POWER_FAIL_RECOVER (R467). -/
def execPowerFailRecover (s : State) : Host.Outcome State Fault Refusal := s.onDev Dev.powerFailRecover

/-- PFW_N_DEASSERT (R529). -/
def execPfwNDeassert (s : State) : Host.Outcome State Fault Refusal := s.onAny Dev.pfwHigh

end Sys2Proof.Machine
end

