-- ==== Sys2Proof/Machine/PairStream.lean ====
section
/-! DEFINITION. The mirror streams as the standby takes them (16_pair_redundancy.md): the Mule stream (R392, R393), the
logic stream (R394 to R396), changes (R194, R195) and resynchronization (R405). -/

namespace Sys2Proof.Machine

/-- This member is the standby of a stream that flows. -/
def Dev.receiving (d : Dev) : Bool := d.get R.PAIR_STAT_ROLE == 2 && d.streamOk && d.get R.PAIR_STAT_SYNC != 0

/-! ## The Mule stream -/

/-- MULE_WR_RECEIVE: the writes wait for the record of their cycle. -/
def Dev.muleWrReceive (ws : List MuleWr) (d : Dev) : Dev :=
  if d.receiving then d.updPair (fun p => { p with mwIn := p.mwIn ++ ws }) else d

/-- Work as if the rings that the partner runs ran here: the Mule of a standby computes their axes (R393). -/
def Dev.asPartner (f : Dev → Dev) (d : Dev) : Dev :=
  let xs := d.partnerRings
  let old := (List.range 4).map (fun x => d.get (R.RING_STAT_STATE x))
  let d := f (xs.foldl (fun d x => d.put (R.RING_STAT_STATE x) 5) d)
  upTo 4 (fun x d => d.put (R.RING_STAT_STATE x) (old.getD x 0)) d

/-- A queue word of a group whose segments come from a host ring (R234). -/
def Dev.ringSegWord (d : Dev) (a : Nat) : Bool :=
  0xD8000 ≤ a && a < 0xDC000 && d.get (R.GROUP_CFG_SRC ((a - 0xD8000) / 0x400)) == 1

/-- The mirrored writes of a cycle are taken: entries of host segment rings wait for their group's copy, every other write
reaches its register. -/
def Dev.takeMuleWr (w : MuleWr) (d : Dev) : Dev :=
  let a := w.addr.toNat
  if d.ringSegWord a then
    let g := (a - 0xD8000) / 0x400
    let r := (Store.get (fun _ => (none : Option SegRing)) d.hif.segs g).getD default
    let two : List (BitVec 16) := [BitVec.ofNat 16 w.val.toNat, BitVec.ofNat 16 (w.val.toNat / 65536)]
    let ents := if a % 16 == 0 then r.ents ++ [two] else r.ents.dropLast ++ [(r.ents.getLastD []) ++ two]
    d.updHif (fun h => { h with segs := Store.set (fun _ => none) h.segs g (some { r with ents := ents }) })
  else if 0xD0000 ≤ a && a < 0xE0000 then
    d.unitRegWrite 0xFF (a / 2 * 2) { mask := w.mask, val := w.val, wo := w.mask &&& 0xFFFF != 0 }
  else d

/-- The sample of one axis record; whether its check values agree. -/
def Dev.recSample (x t : Nat) (r : AxisRec) (d : Dev) : Dev :=
  let n := r.n.val
  let d := d.liveW x (nodeOff (d.mapFld R.AXIS_MAP_NODE n)) [BitVec.ofNat 16 r.age.toNat]
  let d := d.updAxis n (fun a => { a with age := r.age.toNat, fbPos := r.fbPos, fbVel := r.fbVel, fbStat := r.stat })
  d.axisReady n t

/-- The samples of a complete record of a ring in RUN (R393). `t`: t_n of its cycle. -/
def Dev.recWork (m : MuleRec) (t : Nat) (d : Dev) : Dev :=
  let ws := d.pair.mwIn
  let d := ws.foldl (fun d w => d.takeMuleWr w) (d.updPair (fun p => { p with mwIn := [] }))
  let d := d.muleBoundary t
  (m.recs.foldl (fun d r => d.recSample m.x.val t r) d).flushMev

/-- t_n of cycle `cyc` of ring `x`: the latest one at or before now. -/
def Dev.cycTime (d : Dev) (x cyc : Nat) : Nat :=
  let T := d.ringT x
  let n := d.time.toNat / T
  (n - (n + 2 ^ 32 - cyc) % 2 ^ 32) * T

/-- MULE_RECORD_RECEIVE: a complete record is computed and checked; a difference ends the synchronization. The header of a
ring that has left RUN ends its axes (Table 8.6). -/
def Dev.muleRecord (m : MuleRec) (d : Dev) : Dev :=
  if !d.receiving || !m.ok || d.get R.PAIR_STAT_SYNC != 2 then d
  else
    let x := m.x.val
    let ran := d.partnerRings.contains x
    let setRing := fun (d : Dev) => d.updPair (fun p =>
      { p with pRings := Store.set (fun _ => 0) p.pRings x (2 * m.state.val + b2n m.healed) })
    if m.state != 5 then (if ran then setRing (d.asPartner (Dev.ringLeft x)) else setRing d)
    else
      let t := d.cycTime x m.cyc.toNat
      let d := (setRing d).asPartner (Dev.recWork m t)
      let d := (d.put R.MIR_CYC m.cyc.toNat).updPair (fun p => { p with recAt := Store.set (fun _ => 0) p.recAt x (t + 1) })
      if m.recs.all (fun r => d.axisChecks r.n.val == r.checks) then d else (d.unsync 3).raise 8

/-! ## The logic stream -/

/-- A word of a line is applied where the standby holds it. -/
def Dev.poke (w : Nat) (v : BitVec 16) (d : Dev) : Dev :=
  match d.sharedLoc w with
  | .mem .mram off => d.writeNvArr off [v]
  | .mem a off => (d.setMw a off v).setEcc a off .ok
  | .reg r =>
    if 0xE4000 ≤ r && r < 0xE8000 then
      let a := r / 2 * 2
      let old := (d.rd a).toNat
      d.wrReg a (BitVec.ofNat 32 (if r % 2 == 0 then old / 65536 * 65536 + v.toNat else v.toNat * 65536 + old % 65536))
    else d
  | .none => d

/-- A line lies in one of the memories that the pair mirrors: M, instance memory, the retain window, the Q shadow, the
force table (R394). -/
def lineOk (w : Nat) : Bool :=
  w % 64 == 0 && ((0x28000 ≤ w && w < 0xC0000) || (0xE4000 ≤ w && w < 0xE8000) || (0x100000 ≤ w && w < 0x200000))

/-- LINE_RECEIVE: a line is staged for its point (R395). -/
def Dev.lineReceive (w n : Nat) (ws : List (BitVec 16)) (d : Dev) : Dev :=
  if d.receiving && lineOk w && ws.length == 64 then d.updPair (fun p => { p with stage := p.stage ++ [(n, w, ws)] }) else d

/-- A staged line is applied. -/
def Dev.applyLine (w : Nat) (ws : List (BitVec 16)) (d : Dev) : Dev :=
  upTo ws.length (fun i d => d.poke (w + i) (ws.getD i 0)) d

/-- POINT_END_RECEIVE: the lines of a point that has ended are applied, and it is acknowledged (R395). With a committed
image the Q image of the point is the committed one (R402). -/
def Dev.pointEnd (n scan : Nat) (image : Bool) (hand : Option Nat) (cold : Bool) (d : Dev) : Dev :=
  if d.receiving then
    let mine := d.pair.stage.filter (fun e => e.1 == n)
    let d := mine.foldl (fun d e => d.applyLine e.2.1 e.2.2) d
    let d := if image then d.copyArr (.qHalf (!d.scan.qShadow)) (.qHalf d.scan.qShadow) else d
    let d := ((d.put R.MIR_PT n).put R.MIR_LAG_LINES (satU 16 mine.length)).put R.SCAN_CNT_CNT scan
    let T := d.partnerRings.foldl (fun m x => max m (d.ringT x)) 0
    let t (h : Nat) : Nat := if T == 0 then h else
      let k := d.time.toNat / T
      (k + (h + 2 ^ 32 - k % 2 ^ 32) % 2 ^ 32) * T
    let d := d.updPair (fun p => { p with
      stage := p.stage.filter (fun e => e.1 != n), cold := cold, image := p.image || image, copied := true
      hand := hand.map (fun h => (n, t h)) })
    d.emit (.pair 0x27 [n])
  else d

/-! ## Changes -/

/-- CHANGE_RECEIVE (R194, R195, R197): the standby stages and checks what the active member does, and switches programs at
the change marker; the active member learns the standby's result. -/
def Dev.changeReceive (f : ChangeFrame) (d : Dev) : Dev :=
  match f with
  | .result ok =>
    if d.get R.PAIR_STAT_ROLE == 1 && d.streamOk then ({ d with prog := { d.prog with pairRes := some ok } }).checkGoOn else d
  | _ =>
    if !d.receiving then d
    else
      match f with
      | .opened => d.chgOpen
      | .words p ws =>
        if d.get R.PROG_STAT_STATE == 1 then
          (d.setMws (.prog d.inactive) p.toNat ws).put R.STAGE_PTR_PTR (p.toNat + ws.length)
        else d
      | .prepare => d.chgPrepare
      | .marker id =>
        if d.get R.PROG_STAT_STATE == 3 && d.pkgId d.inactive == id.toNat then
          ({ d with prog := { d.prog with swapAt := d.time } }).swapCommit
        else d
      | .abort => d.chgAbort
      | .result _ => d

/-! ## Resynchronization (R405) -/

/-- The words of the active package, as the active member sends them. -/
def Dev.packageSend (d : Dev) : Dev :=
  let b := d.get R.PROG_STAT_ACTIVE == 1
  (d.emit (.pair 0x28 [0])).emits [.pair 0x28 (1 :: 0 :: (d.mws (.prog b) 0 (d.pkgLen b)).map (·.toNat)), .pair 0x28 [2],
    .pair 0x28 [4, d.pkgId b]]

/-- Every line of the copy: M, instance memory, the Q image, the force table and the retain window, by line number. -/
def copyLines : List Nat :=
  (List.range 0x2600).map (· + 0xA00) ++ (List.range 0x100).map (· + 0x3900) ++ (List.range 0x4000).map (· + 0x4000)

/-- The registers of the Mule tables. -/
def Dev.muleTabSend (d : Dev) : Dev :=
  d.emit (.pair 0x29 (3 :: (d.regs.filter (fun e => 0xD0000 ≤ e.1 && e.1 < 0xE0000)).flatMap (fun e => [e.1, e.2.toNat])))

/-- RESYNC_START: the standby meets the conditions and enters SYNCING, and the active member begins the copy. `pid`: the
partner's PROG_ID. -/
def Dev.resyncStart (pid : Nat) (d : Dev) : Dev :=
  if !d.streamOk || !d.verOk || d.get R.PAIR_STAT_SYNC != 0 then d
  else if d.get R.PAIR_STAT_ROLE == 2 && d.pair.pRole == 1 then
    let d := (d.put R.PAIR_STAT_SYNC 1).updPair (fun p => { p with stage := [], mwIn := [], copied := false })
    let d := { d with prog := { d.prog with fullLoad := pid != d.get R.PROG_ID } }
    d.emit (.pair 0x29 [0, d.get R.PROG_ID])
  else if d.get R.PAIR_STAT_ROLE == 1 && d.pair.pRole == 2 then
    let d := d.put R.PAIR_STAT_SYNC 1
    let d := if pid != d.get R.PROG_ID && d.prog.loaded then d.packageSend else d
    let d := upTo 4 (fun x d => d.ringCopySend x) d
    d.muleTabSend.updPair (fun p => { p with lines := copyLines, unsent := false, late := none, mwOut := [], copied := false })
  else d

/-- The registers of the rings that a copy may write. -/
def ringReg (a : Nat) : Bool := (List.range 4).any (fun x => (ringCopyRegs x).contains a)

/-- The registers that a copy may write. -/
def copyReg (a : Nat) : Bool := (0xD0000 ≤ a && a < 0xE0000 && a % 2 == 0) || ringReg a

/-- Registers of the copy that lie in `p`, and each LAT_k, reach the standby (R405 step 2). -/
def Dev.takeCopyRegs (c : SyncCopy) (p : Nat → Bool) (d : Dev) : Dev :=
  let d := (c.regs.filter (fun e => p e.1)).foldl (fun d e => d.wrReg e.1 e.2) d
  c.lat.foldl (fun d e => d.updRing (e.1 / 32 % 4) (fun s => { s with lat := Store.set (fun _ => 0) s.lat (e.1 % 32) e.2 })) d

/-- The copy reaches the standby (R405 steps 2 and 3). -/
def Dev.takeCopy (c : SyncCopy) (d : Dev) : Dev :=
  let d := d.takeCopyRegs c copyReg
  { d with axes := c.axes, groups := c.groups, mule := c.mule }

/-- RESYNC_DONE: the first point after the copy has ended, and SYNC becomes SYNCED. On a SYNCED standby the command carries the
configuration and schedule of rings that the active member sends again when one of them enters RUN (R405 step 2; DESIGN CHOICE,
log entry 81). -/
def Dev.resyncDone (c : SyncCopy) (d : Dev) : Dev :=
  if d.get R.PAIR_STAT_SYNC == 2 && d.get R.PAIR_STAT_ROLE == 2 && d.streamOk then d.takeCopyRegs c ringReg
  else if d.get R.PAIR_STAT_SYNC != 1 || !d.streamOk then d
  else if d.get R.PAIR_STAT_ROLE == 2 then
    if d.pair.copied then ((d.takeCopy c).put R.PAIR_STAT_SYNC 2).raise 8 else d
  else if d.get R.PAIR_STAT_ROLE == 1 && d.pair.copied && !d.pair.unsent then (d.put R.PAIR_STAT_SYNC 2).raise 8
  else d

end Sys2Proof.Machine
end

