-- ==== Sys2Proof/Machine/PairCommands.lean ====
section
/-! DEFINITION. The commands of the redundant pair (16_pair_redundancy.md): received frames, timers and pin events, register
writes. An event whose conditions do not hold changes nothing. -/

namespace Sys2Proof.Machine

/-- HEARTBEAT_SEND (R391). -/
def execHeartbeatSend (s : State) : Host.Outcome State Fault Refusal := s.onDev Dev.heartbeatSend

/-- HEARTBEAT_RECEIVE (R391, R494). -/
def execHeartbeatReceive (h : Heartbeat) (s : State) : Host.Outcome State Fault Refusal := s.onDev (Dev.heartbeat h)

/-- HEARTBEAT_MISS (R400). -/
def execHeartbeatMiss (s : State) : Host.Outcome State Fault Refusal := s.onDev Dev.heartbeatMiss

/-- NOTICE_RECEIVE (R400). -/
def execNoticeReceive (s : State) : Host.Outcome State Fault Refusal := s.onDev Dev.noticeReceive

/-- PARTNER_ACT_LOW (R400). -/
def execPartnerActLow (s : State) : Host.Outcome State Fault Refusal := s.onDev Dev.partnerActLow

/-- MASTER_FRAME_ABSENT (R400). -/
def execMasterFrameAbsent (x : Fin 4) (s : State) : Host.Outcome State Fault Refusal := s.onDev (Dev.masterAbsent x.val)

/-- TAKEOVER (R401, R402). -/
def execTakeover (s : State) : Host.Outcome State Fault Refusal := s.onDev Dev.takeover

/-- FENCE_TIMEOUT (R401). -/
def execFenceTimeout (s : State) : Host.Outcome State Fault Refusal := s.onDev Dev.fenceTimeout

/-- FENCE_RELEASE (R401). -/
def execFenceRelease (s : State) : Host.Outcome State Fault Refusal := s.onDev Dev.fenceRelease

/-- DUAL_ACTIVE (R408). -/
def execDualActive (s : State) : Host.Outcome State Fault Refusal := s.onDev Dev.dualActive

/-- MULE_WR_RECEIVE (R392). -/
def execMuleWrReceive (ws : List MuleWr) (s : State) : Host.Outcome State Fault Refusal := s.onDev (Dev.muleWrReceive ws)

/-- MULE_RECORD_RECEIVE (R393). -/
def execMuleRecordReceive (m : MuleRec) (s : State) : Host.Outcome State Fault Refusal := s.onDev (Dev.muleRecord m)

/-- LINE_RECEIVE (R394). -/
def execLineReceive (w : BitVec 24) (n : BitVec 32) (ws : List (BitVec 16)) (s : State) : Host.Outcome State Fault Refusal :=
  s.onDev (Dev.lineReceive w.toNat n.toNat ws)

/-- POINT_END_RECEIVE (R395). -/
def execPointEndReceive (n scan : BitVec 32) (image : Bool) (hand : Option (BitVec 32)) (cold : Bool) (s : State) :
    Host.Outcome State Fault Refusal := s.onDev (Dev.pointEnd n.toNat scan.toNat image (hand.map (·.toNat)) cold)

/-- ACK_RECEIVE (R397). -/
def execAckReceive (n : BitVec 32) (s : State) : Host.Outcome State Fault Refusal := s.onDev (Dev.ackReceive n.toNat)

/-- MIRROR_POINT_TIMER (R395). -/
def execMirrorPointTimer (s : State) : Host.Outcome State Fault Refusal := s.onDev Dev.mirrorTimer

/-- CHANGE_RECEIVE (R194, R195). -/
def execChangeReceive (f : ChangeFrame) (s : State) : Host.Outcome State Fault Refusal := s.onDev (Dev.changeReceive f)

/-- RESYNC_START (R405). -/
def execResyncStart (pid : BitVec 32) (s : State) : Host.Outcome State Fault Refusal := s.onDev (Dev.resyncStart pid.toNat)

/-- RESYNC_DONE (R405). -/
def execResyncDone (c : SyncCopy) (s : State) : Host.Outcome State Fault Refusal := s.onDev (Dev.resyncDone c)

/-- PAIR_TIME_EXCHANGE (R391). -/
def execPairTimeExchange (t1 t2 t3 : BitVec 64) (s : State) : Host.Outcome State Fault Refusal :=
  s.onDev (Dev.pairTime t1 t2 t3)

/-- PAIR_LANE_LOSS (R391). -/
def execPairLaneLoss (lane : Fin 2) (s : State) : Host.Outcome State Fault Refusal := s.onDev (Dev.pairLaneLoss lane.val)

/-- PAIR_BLOCK_LOCK (R391, R494). -/
def execPairBlockLock (lane : Fin 2) (s : State) : Host.Outcome State Fault Refusal := s.onDev (Dev.pairLock lane.val)

/-- GO_ACTIVE: PAIR_CTRL.GO_ACTIVE (R387). -/
def execGoActive (r : Req) (s : State) : Host.Outcome State Fault Refusal := s.onDev (fun d => d.actCmd r R.PAIR_CTRL_GO_ACTIVE 1)

/-- SWITCH: PAIR_CTRL.SWITCH (R407). -/
def execSwitch (r : Req) (s : State) : Host.Outcome State Fault Refusal := s.onDev (fun d => d.actCmd r R.PAIR_CTRL_SWITCH 1)

/-- SWITCHOVER_ACK_TIMEOUT (R407). -/
def execSwitchoverAckTimeout (s : State) : Host.Outcome State Fault Refusal := s.onDev Dev.switchTimeout

/-- SWITCHOVER_HANDOFF (R407). -/
def execSwitchoverHandoff (s : State) : Host.Outcome State Fault Refusal := s.onDev Dev.switchHandoff

end Sys2Proof.Machine
end

