-- ==== Sys2Proof/Machine/ResetCommands.lean ====
section
/-! DEFINITION. The reset sources as commands (22_boot_update.md, R499 to R502; 16_pair_redundancy.md, R389;
23_package_electrical.md, R524, R526, R539), and the core-die temperature. -/

namespace Sys2Proof.Machine

/-! ## The shutdown sequence (R500) -/

/-- A source arises while the device is out of reset: the shutdown sequence starts, or the source joins the sequence in
progress (R502). -/
def Dev.shutdown (c : Cause) (d : Dev) : Dev :=
  if d.sys.due.isEmpty then
    (({ d with sys := { d.sys with outsOff := true, ringsOff := true } }).fioAllOff.pairNotice).addDue c
  else d.addDue c

/-- A pin that resets goes low: in reset its bit is set at once. -/
def Dev.pinReset (c : Cause) (d : Dev) : Dev := if d.sys.held then d.setCause c else d.shutdown c

/-- RESET_N has been low for 1 µs (R501). -/
def Dev.resetPin (d : Dev) : Dev :=
  if d.sys.pinLow then d else ({ d with sys := { d.sys with pinLow := true } }).pinReset .pin

/-- FENCE_N has been low for 1 µs (R389). -/
def Dev.fencePin (d : Dev) : Dev :=
  if d.sys.fenceLow then d else ({ d with sys := { d.sys with fenceLow := true } }).pinReset .pairFence

/-- 100 µs after the completion of DEV_RESET (R499). -/
def Dev.devResetDelay (d : Dev) : Dev :=
  if d.hif.resetDue then (d.updHif (fun h => { h with resetDue := false })).shutdown .host else d

/-- What the NV port and the Hen still write before the internal reset (R500, Table 1.6, R424). -/
def Dev.resetDrain (d : Dev) : Dev := d.nvFinish.henDrain

/-- INTERNAL_RESET: the end of the sequence in progress, and of a power-fail sequence that runs beside it (R500). -/
def State.endSequence (lc : BitVec 16) (env : BootEnv) (s : State) : State :=
  if s.dev.sys.due.isEmpty || s.dev.nv.pfRun then s
  else { s with dev := s.dev.resetDrain }.internalReset s.dev.sys.due lc env

/-! ## Loss of supply (R502) -/

/-- The first `n` words of a write of `ws` at `off`, in the order `order`. -/
def Dev.tearWords (off : Nat) (ws : List (BitVec 16)) (order : List Nat) (n : Nat) (d : Dev) : Dev :=
  (order.take n).foldl (fun d i => d.setNvArr (off + i) (ws.getD i 0)) d

/-- The order of a record write: words 2 onward, the SEQ words last (R458). -/
def recordOrder (n : Nat) : List Nat := (List.range (n - 2)).map (· + 2) ++ [0, 1]

/-- The order of a Hen record (R440). -/
def henOrder : List Nat := [62, 63] ++ (List.range 60).map (· + 2) ++ [0, 1]

/-- A record write is torn after `n` words. -/
def Dev.tearRecord (off seq : Nat) (payload : List (BitVec 16)) (n : Nat) (d : Dev) : Dev :=
  d.tearWords off (recordWords seq payload) (recordOrder (payload.length + 6)) n

/-- A Hen flush on the direct path is torn after `n` words of its records. -/
def Dev.tearHen (n : Nat) (d : Dev) : Dev :=
  upTo (d.hen.flushTo - d.hen.floor) (fun i d =>
    let s := d.hen.floor + 1 + i
    d.tearWords (slotMram (seqSlot s)) (d.mws .henBuf (64 * (s % 512)) 64) henOrder (n - 64 * i)) d

/-- The MRAM write of the running swap or of CHECKING is torn: the commit record (R192), or the program-store copy. -/
def Dev.tearProg (n : Nat) (d : Dev) : Dev :=
  let b := d.inactive
  let len := d.pkgLen b
  if d.get R.PROG_STAT_STATE == 5 then
    let t := d.recTarget 0x700000 6
    d.tearRecord t.1 t.2 (commitPayload (b2n d.prog.storeB) (d.pkgId b) len) n
  else if d.get R.PROG_STAT_STATE == 2 && d.packageErr b == 0 then
    d.writeNvArr (d.freeCopy * 0x200000) (d.mws (.prog b) 0 (min n len))
  else d

/-- The MRAM write that the NV port has in progress is torn: of the record engine, a wear ring, the firmware record of a
handover, a Hen flush, a change package, in this order; and a verified page is left as it stands. -/
def Dev.nvTear (cut : Cut) (d : Dev) : Dev :=
  let d := match d.nv.vpage with
    | some (page, _) => cut.page.foldl (fun (d : Dev) (b : Fin 32 × Ecc) => d.setEcc .mram (128 * page + 4 * b.1.val) b.2) d
    | none => d
  match d.nv.op with
  | some o =>
    if o.write then
      let t := d.recTarget o.addr o.len
      d.tearRecord t.1 t.2 (d.wRead 0xF9 o.buf o.len).1 cut.words
    else d
  | none =>
    match (List.range 16).find? (fun k => (d.wr k).busy) with
    | some k =>
      let i := match (d.wr k).slot with
        | none => 0
        | some i => (i + 1) % slotCount (d.get (R.WRING_CFG_N k))
      d.tearRecord (d.slotOff k i) ((d.get (R.WRING_SEQ k) + 1) % 2 ^ 32) (d.wr k).data cut.words
    | none =>
      if d.hif.hoCommit then
        let t := d.recTarget 0x700100 4
        d.tearRecord t.1 t.2 (wordsLE 1 1 ++ wordsLE 2 (d.fwVersion 0x580000) ++ [0]) cut.words
      else if d.flag R.HEN_STAT_FLUSHING && d.hen.flushDirect then d.tearHen cut.words
      else d.tearProg cut.words

/-- BROWN_OUT: core-rail monitors trip (R524, R539). In reset the bits are set at once. -/
def State.brownOut (rails : BitVec 6) (cut : Cut) (s : State) : State :=
  let d := s.dev
  if rails == 0 then s
  else
    let d := d.wrReg R.SUP_STAT.addr (d.rd R.SUP_STAT.addr ||| rails.setWidth 32)
    let d := { d with sys := { d.sys with boRails := d.sys.boRails ||| rails } }
    if d.sys.held then { s with dev := d.setCause .brownout }
    else { s with dev := d.nvTear cut }.internalReset (s.dev.sys.due ++ [Cause.brownout]) cut.lc default

/-- POWER_ON_RESET: the core rails, RESET_N and the reference clock meet the release conditions (R526). -/
def State.powerOnReset (cut : Cut) (env : BootEnv) (s : State) : State :=
  let d := s.dev.nvTear cut
  { s with dev := { d with sys := { d.sys with pinLow := false, boRails := 0 } } }.internalReset [Cause.powerOn] cut.lc env

/-- A monitor releases (R524). -/
def State.railRelease (rail : Fin 6) (env : BootEnv) (s : State) : State :=
  let d := s.dev
  { s with dev := { d with sys := { d.sys with
    boRails := d.sys.boRails &&& ~~~(BitVec.ofNat 6 (2 ^ rail.val)) } } }.release env

/-- RESET_N goes high (R501). -/
def State.pinRelease (env : BootEnv) (s : State) : State :=
  let d := s.dev
  { s with dev := { d with sys := { d.sys with pinLow := false } } }.release env

/-- FENCE_N goes high (R389). -/
def State.fenceRelease (env : BootEnv) (s : State) : State :=
  let d := s.dev
  { s with dev := { d with sys := { d.sys with fenceLow := false } } }.release env

/-- TJ_CORE is sampled (R539). -/
def Dev.tjUpdate (t : BitVec 8) (d : Dev) : Dev :=
  let d := d.put R.SUP_STAT_TJ_CORE t.toNat
  let d := if d.getS R.SUP_STAT_TJ_MAX < t.toInt then d.put R.SUP_STAT_TJ_MAX t.toNat else d
  if 105 < t.toInt then d.setF R.SUP_STAT_THOT else d

/-! ## The commands -/

/-- POWER_ON_RESET (R526). -/
def execPowerOnReset (cut : Cut) (env : BootEnv) (s : State) : Host.Outcome State Fault Refusal := .next (s.powerOnReset cut env)

/-- BROWN_OUT (R524). -/
def execBrownOut (rails : BitVec 6) (cut : Cut) (s : State) : Host.Outcome State Fault Refusal := .next (s.brownOut rails cut)

/-- RESET_PIN (R501). -/
def execResetPin (s : State) : Host.Outcome State Fault Refusal := s.onAny Dev.resetPin

/-- FENCE_N_RESET (R389). -/
def execFenceNReset (s : State) : Host.Outcome State Fault Refusal := s.onAny Dev.fencePin

/-- DEV_RESET_DELAY (R499). -/
def execDevResetDelay (s : State) : Host.Outcome State Fault Refusal := s.onDev Dev.devResetDelay

/-- INTERNAL_RESET (R503). -/
def execInternalReset (lc : BitVec 16) (env : BootEnv) (s : State) : Host.Outcome State Fault Refusal :=
  .next (s.endSequence lc env)

/-- RESET_N_RELEASE (R501). -/
def execResetNRelease (env : BootEnv) (s : State) : Host.Outcome State Fault Refusal := .next (s.pinRelease env)

/-- FENCE_N_RELEASE (R389). -/
def execFenceNRelease (env : BootEnv) (s : State) : Host.Outcome State Fault Refusal := .next (s.fenceRelease env)

/-- BROWN_OUT_RELEASE (R524). -/
def execBrownOutRelease (rail : Fin 6) (env : BootEnv) (s : State) : Host.Outcome State Fault Refusal :=
  .next (s.railRelease rail env)

/-- TJ_CORE_UPDATE (R539). -/
def execTjCoreUpdate (t : BitVec 8) (s : State) : Host.Outcome State Fault Refusal := s.onDev (Dev.tjUpdate t)

end Sys2Proof.Machine
end

