-- ==== Sys2Proof/Machine/RingCommands.lean ====
section
/-! DEFINITION. The commands of the ring controllers (10_purok_ring.md, 11_ring_timing_faults.md): cycle events, received
frames, and register writes. An event whose moment has not come changes nothing. -/

namespace Sys2Proof.Machine

/-- RING_CYCLE_START (R248, R204). -/
def execRingCycleStart (x : Fin 4) (s : State) : Host.Outcome State Fault Refusal := s.onDev (Dev.ringCycleStart x.val)

/-- NODE_FRAME_RECEIVE (R274, R278). -/
def execNodeFrameReceive (x : Fin 4) (port : RingPort) (f : RxFrame) (s : State) : Host.Outcome State Fault Refusal :=
  s.onDev (Dev.ringFrame x.val (port == .outp) f)

/-- WINDOW_CLOSE (R275). -/
def execWindowClose (x : Fin 4) (k : Fin 32) (s : State) : Host.Outcome State Fault Refusal :=
  s.onDev (Dev.windowClose x.val k.val)

/-- CYCLE_POINT (R266). -/
def execCyclePoint (x : Fin 4) (p : Fin 8) (s : State) : Host.Outcome State Fault Refusal := s.onDev (Dev.cyclePoint x.val p.val)

/-- RING_Q_PICKUP (R268). -/
def execRingQPickup (x : Fin 4) (s : State) : Host.Outcome State Fault Refusal := s.onDev (Dev.ringQPickup x.val)

/-- RING_START: CMD.START (R263). -/
def execRingStart (r : Req) (x : Fin 4) (s : State) : Host.Outcome State Fault Refusal :=
  s.onDev (fun d => d.actCmd r (R.RING_CMD_START x.val) 1)

/-- RING_STOP: CMD.STOP (R264). -/
def execRingStop (r : Req) (x : Fin 4) (s : State) : Host.Outcome State Fault Refusal :=
  s.onDev (fun d => d.actCmd r (R.RING_CMD_STOP x.val) 1)

/-- LINK_SYNCHRONIZED (Table 10.10). -/
def execLinkSynchronized (x : Fin 4) (port : RingPort) (s : State) : Host.Outcome State Fault Refusal :=
  s.onDev (Dev.linkUp x.val (port == .outp))

/-- START_STEP_TIMEOUT (Table 10.10). -/
def execStartStepTimeout (x : Fin 4) (s : State) : Host.Outcome State Fault Refusal := s.onDev (Dev.stepTimeout x.val)

/-- ENUM_FRAME_SEND (R254). -/
def execEnumFrameSend (x : Fin 4) (s : State) : Host.Outcome State Fault Refusal := s.onDev (Dev.enumSend x.val)

/-- ENUM_FRAME_RETURN (R256). -/
def execEnumFrameReturn (x : Fin 4) (count dly eseq : Nat) (s : State) : Host.Outcome State Fault Refusal :=
  s.onDev (Dev.enumReturn x.val count dly eseq)

/-- RING_SYNC_DONE (Table 10.10). -/
def execRingSyncDone (x : Fin 4) (s : State) : Host.Outcome State Fault Refusal := s.onDev (Dev.syncDone x.val)

/-- RING_STOP_DONE (R264). -/
def execRingStopDone (x : Fin 4) (s : State) : Host.Outcome State Fault Refusal := s.onDev (Dev.stopDone x.val)

/-- LINK_DELAY_REQUEST (R255). -/
def execLinkDelayRequest (x : Fin 4) (port : RingPort) (lseq turn : Nat) (s : State) : Host.Outcome State Fault Refusal :=
  s.onDev (Dev.linkDelay x.val (port == .outp) lseq turn)

/-- MF_LOST (Table 11.3, R283). -/
def execMfLost (x : Fin 4) (s : State) : Host.Outcome State Fault Refusal := s.onDev (Dev.mfLost x.val)

/-- RING_PCS_LOSS (R283). -/
def execRingPcsLoss (x : Fin 4) (port : RingPort) (s : State) : Host.Outcome State Fault Refusal :=
  s.onDev (Dev.linkLost x.val (port == .outp))

/-- PCS_SYNC_REGAINED: the port may send again (R284). -/
def execPcsSyncRegained (x : Fin 4) (port : RingPort) (s : State) : Host.Outcome State Fault Refusal :=
  s.onDev (Dev.linkUp x.val (port == .outp))

/-- HEAL_CLOSE (R286). -/
def execHealClose (x : Fin 4) (s : State) : Host.Outcome State Fault Refusal := s.onDev (Dev.healClose x.val)

/-- RING_DEAD_TIMEOUT (R287). -/
def execRingDeadTimeout (x : Fin 4) (s : State) : Host.Outcome State Fault Refusal := s.onDev (Dev.ringDead x.val)

/-- SVC_GO: SVC_CTRL with GO (R272). -/
def execSvcGo (r : Req) (x : Fin 4) (node : Fin 32) (op : Fin 4) (index : BitVec 16) (s : State) :
    Host.Outcome State Fault Refusal :=
  s.onDev (fun d => d.wholeCmd r (R.RING_SVC_CTRL x.val).addr
    (BitVec.ofNat 32 (2 ^ 31 + node.val * 2 ^ 24 + op.val * 2 ^ 16 + index.toNat)))

/-- SVC_TIMEOUT (R257). -/
def execSvcTimeout (x : Fin 4) (s : State) : Host.Outcome State Fault Refusal := s.onDev (Dev.svcTimeout x.val)

/-- CNT_CLR (R291). -/
def execCntClr (r : Req) (x : Fin 4) (s : State) : Host.Outcome State Fault Refusal :=
  s.onDev (fun d => d.actCmd r (R.RING_CNT_CLR_CLR x.val) 1)

/-- CPT_WRITE (R265, R266). -/
def execCptWrite (r : Req) (x : Fin 4) (p : Fin 8) (v : BitVec 32) (s : State) : Host.Outcome State Fault Refusal :=
  s.onDev (fun d => d.wholeCmd r (R.RING_CPT x.val p.val).addr v)

/-- The address of a guarded ring register. -/
def ringCfgAddr (x : Nat) : RingCfgReg → Nat
  | .cfg => (R.RING_CFG x).addr
  | .sched k hi => if hi then (R.RING_SCHED_HI x k.val).addr else (R.RING_SCHED_LO x k.val).addr

/-- RING_CONFIG_WRITE (R265). -/
def execRingConfigWrite (r : Req) (x : Fin 4) (reg : RingCfgReg) (v : BitVec 32) (s : State) :
    Host.Outcome State Fault Refusal := s.onDev (fun d => d.wholeCmd r (ringCfgAddr x.val reg) v)

/-- STANDBY_RING_FRAME (R290). -/
def execStandbyRingFrame (x : Fin 4) (port : RingPort) (f : RxFrame) (s : State) : Host.Outcome State Fault Refusal :=
  s.onDev (Dev.passFrame x.val port f)

end Sys2Proof.Machine
end

