-- ==== Sys2Proof/Machine/ScanCommands.lean ====
section
/-! DEFINITION. The commands of the scan (06_scan.md) and of online change (07_online_change.md). -/

namespace Sys2Proof.Machine

/-- SCAN_CTRL written with a command and STOP_OUT. -/
def Dev.scanCmd (r : Req) (cmd : Nat) (stopOut : Bool) (d : Dev) : Dev :=
  d.wholeCmd r R.SCAN_CTRL.addr (R.SCAN_CTRL_STOP_OUT.ins (R.SCAN_CTRL_CMD.ins 0 cmd) (b2n stopOut))

/-- START_WARM (R149). -/
def execStartWarm (r : Req) (stopOut : Bool) (s : State) : Host.Outcome State Fault Refusal :=
  s.onDev (Dev.scanCmd r 1 stopOut)
/-- START_COLD (R149). -/
def execStartCold (r : Req) (stopOut : Bool) (s : State) : Host.Outcome State Fault Refusal :=
  s.onDev (Dev.scanCmd r 2 stopOut)
/-- SCAN_STOP (R149). -/
def execScanStop (r : Req) (stopOut : Bool) (s : State) : Host.Outcome State Fault Refusal :=
  s.onDev (Dev.scanCmd r 4 stopOut)
/-- MAX_CLR (R149). -/
def execMaxClr (r : Req) (s : State) : Host.Outcome State Fault Refusal := s.onDev (Dev.actCmd r R.SCAN_CTRL_MAX_CLR 1)

/-- INIT_DONE (R151). -/
def execInitDone (s : State) : Host.Outcome State Fault Refusal := s.onDev Dev.initDone
/-- I_FLIP (R153). -/
def execIFlip (s : State) : Host.Outcome State Fault Refusal := s.onDev Dev.iFlip
/-- I_COPY_FORWARD_DONE (R154). -/
def execICopyForwardDone (s : State) : Host.Outcome State Fault Refusal := s.onDev Dev.copyFwdAll
/-- BARRIER_START (R156). -/
def execBarrierStart (s : State) : Host.Outcome State Fault Refusal := s.onDev Dev.barrierStart
/-- BARRIER_END (R156). -/
def execBarrierEnd (s : State) : Host.Outcome State Fault Refusal := s.onDev Dev.barrierEnd
/-- Q_FLIP (R159). -/
def execQFlip (s : State) : Host.Outcome State Fault Refusal := s.onDev Dev.qFlip
/-- COMMIT_END (R158). -/
def execCommitEnd (s : State) : Host.Outcome State Fault Refusal := s.onDev Dev.commitEnd
/-- ROLLBACK_END (R165). -/
def execRollbackEnd (s : State) : Host.Outcome State Fault Refusal := s.onDev Dev.rollbackEnd
/-- SCAN_OVERRUN (R163). -/
def execScanOverrun (s : State) : Host.Outcome State Fault Refusal := s.onDev Dev.scanOverrun
/-- GAP_END (R162). -/
def execGapEnd (s : State) : Host.Outcome State Fault Refusal := s.onDev Dev.gapEnd

/-- CTASK_ENABLE (R168). -/
def execCtaskEnable (r : Req) (k : Fin 8) (ring : Fin 4) (point : Fin 8) (tile : Fin 16) (pc : BitVec 21) (s : State) :
    Host.Outcome State Fault Refusal :=
  s.onDev (Dev.wholeCmd r (R.CTASK k.val).addr
    (BitVec.ofNat 32 (0x80000000 + ring.val * 2 ^ 29 + point.val * 2 ^ 26 + tile.val * 2 ^ 22 + pc.toNat)))

/-- CLR_ALL (R174). -/
def execClrAll (r : Req) (s : State) : Host.Outcome State Fault Refusal := s.onDev (Dev.actCmd r R.FORCE_CTRL_CLR_ALL 1)
/-- CLR_ORPH (R174). -/
def execClrOrph (r : Req) (s : State) : Host.Outcome State Fault Refusal := s.onDev (Dev.actCmd r R.FORCE_CTRL_CLR_ORPH 1)

/-! ## Online change -/

/-- OPEN (R180). -/
def execOpen (r : Req) (s : State) : Host.Outcome State Fault Refusal := s.onDev (Dev.actCmd r R.CHG_CTRL_CMD 1)
/-- PREPARE (R184). -/
def execPrepare (r : Req) (s : State) : Host.Outcome State Fault Refusal := s.onDev (Dev.actCmd r R.CHG_CTRL_CMD 2)
/-- CHG_COMMIT (R186). -/
def execChgCommit (r : Req) (s : State) : Host.Outcome State Fault Refusal := s.onDev (Dev.actCmd r R.CHG_CTRL_CMD 3)
/-- ABORT (R180). -/
def execAbort (r : Req) (s : State) : Host.Outcome State Fault Refusal := s.onDev (Dev.actCmd r R.CHG_CTRL_CMD 4)

/-- CHECKING_DONE (R184). `copyFail`: the MRAM copy did not read back. -/
def execCheckingDone (copyFail : Bool) (s : State) : Host.Outcome State Fault Refusal := s.onDev (Dev.checkingEnd copyFail)

/-- STAGE_DATA_WRITE (R181). -/
def execStageDataWrite (r : Req) (v : BitVec 32) (s : State) : Host.Outcome State Fault Refusal :=
  s.onDev (Dev.wholeCmd r R.STAGE_DATA.addr v)
/-- STAGE_PTR_WRITE (R181). -/
def execStagePtrWrite (r : Req) (v : BitVec 21) (s : State) : Host.Outcome State Fault Refusal :=
  s.onDev (Dev.wholeCmd r R.STAGE_PTR.addr (BitVec.ofNat 32 v.toNat))

/-- COMMIT_POINT (R192): the commit-word write of a swap that has entered ends. -/
def Dev.commitPoint (d : Dev) : Dev := if d.get R.PROG_STAT_STATE == 5 && !d.sys.fatal then d.swapCommit else d

def execCommitPoint (s : State) : Host.Outcome State Fault Refusal := s.onDev Dev.commitPoint

end Sys2Proof.Machine
end

