-- ==== Sys2Proof/Machine/TimeCommands.lean ====
section
/-! DEFINITION. The commands of the timebase, the host's event acknowledgement and the Goose (17_time_events_goose.md). -/

namespace Sys2Proof.Machine

/-- TB_STEP: TB_CTRL.STEP (R414). -/
def execTbStep (r : Req) (s : State) : Host.Outcome State Fault Refusal := s.onDev (fun d => d.actCmd r R.TB_CTRL_STEP 1)

/-- TIME_LO_READ: the reader's latch takes TIME_HI (R410). -/
def execTimeLoRead (r : Req) (s : State) : Host.Outcome State Fault Refusal := s.onDev (fun d => d.readCmd r R.TIME_LO.addr)

/-- EV_HPEND_CLEAR: a write of EV_HPEND[k] (R418). -/
def execEvHpendClear (r : Req) (k : Fin 4) (v : BitVec 32) (s : State) : Host.Outcome State Fault Refusal :=
  s.onDev (fun d => d.wholeCmd r (R.EV_HPEND k.val).addr v)

/-- GOOSE_CHECK_IN: a write of GOOSE_CHK (R422). -/
def execGooseCheckIn (r : Req) (key : BitVec 16) (id : Fin 16) (s : State) : Host.Outcome State Fault Refusal :=
  s.onDev (fun d => d.wholeCmd r R.GOOSE_CHK.addr (BitVec.ofNat 32 (key.toNat * 65536 + id.val)))

/-- GOOSE_PERIOD_CLOSE (R423, R424). -/
def execGoosePeriodClose (s : State) : Host.Outcome State Fault Refusal := s.onDev Dev.gooseClose

/-- GOOSE_CONFIG_WRITE: PERIOD, OPEN or REG (R421). -/
def execGooseConfigWrite (r : Req) (reg : Fin 3) (v : BitVec 32) (s : State) : Host.Outcome State Fault Refusal :=
  let a := match reg with
    | 0 => R.GOOSE_PERIOD.addr
    | 1 => R.GOOSE_OPEN.addr
    | _ => R.GOOSE_REG.addr
  s.onDev (fun d => d.wholeCmd r a v)

end Sys2Proof.Machine
end

