-- ==== Sys2Proof/Machine/Dispatch.lean ====
section
/-! DEFINITION. The dispatch: one arm per command, each one call of its meaning. -/

namespace Sys2Proof.Machine

def exec (i : Instr) (s : State) : Host.Outcome State Fault Refusal :=
  match i with
  | .nop c => Sys2Proof.Machine.execNop c s
  | .wfe c => Sys2Proof.Machine.execWfe c s
  | .wfeWake c => Sys2Proof.Machine.execWfeWake c s
  | .sev c n => Sys2Proof.Machine.execSev c n s
  | .sevf c n => Sys2Proof.Machine.execSevf c n s
  | .wunt c an => Sys2Proof.Machine.execWunt c an s
  | .wuntDone c => Sys2Proof.Machine.execWuntDone c s
  | .fenceR c => Sys2Proof.Machine.execFenceR c s
  | .fenceW c => Sys2Proof.Machine.execFenceW c s
  | .fenceAll c => Sys2Proof.Machine.execFenceAll c s
  | .fenceDone c => Sys2Proof.Machine.execFenceDone c s
  | .ret c => Sys2Proof.Machine.execRet c s
  | .reti c => Sys2Proof.Machine.execReti c s
  | .trap c u => Sys2Proof.Machine.execTrap c u s
  | .mode c m => Sys2Proof.Machine.execMode c m s
  | .jmpAn c an => Sys2Proof.Machine.execJmpAn c an s
  | .callAn c an => Sys2Proof.Machine.execCallAn c an s
  | .reservedEncoding c => Sys2Proof.Machine.execReservedEncoding c s
  | .ldb c x => Sys2Proof.Machine.execLdb c x s
  | .ldbn c x => Sys2Proof.Machine.execLdbn c x s
  | .andb c x => Sys2Proof.Machine.execAndb c x s
  | .andbn c x => Sys2Proof.Machine.execAndbn c x s
  | .orb c x => Sys2Proof.Machine.execOrb c x s
  | .orbn c x => Sys2Proof.Machine.execOrbn c x s
  | .xorb c x => Sys2Proof.Machine.execXorb c x s
  | .xorbn c x => Sys2Proof.Machine.execXorbn c x s
  | .stb c x => Sys2Proof.Machine.execStb c x s
  | .stbn c x => Sys2Proof.Machine.execStbn c x s
  | .setb c x => Sys2Proof.Machine.execSetb c x s
  | .clrb c x => Sys2Proof.Machine.execClrb c x s
  | .edgr c x => Sys2Proof.Machine.execEdgr c x s
  | .edgf c x => Sys2Proof.Machine.execEdgf c x s
  | .cpush c => Sys2Proof.Machine.execCpush c s
  | .cpand c => Sys2Proof.Machine.execCpand c s
  | .cpor c => Sys2Proof.Machine.execCpor c s
  | .cpxor c => Sys2Proof.Machine.execCpxor c s
  | .cnot c => Sys2Proof.Machine.execCnot c s
  | .cset c => Sys2Proof.Machine.execCset c s
  | .cclr c => Sys2Proof.Machine.execCclr c s
  | .movb c toCb n b => Sys2Proof.Machine.execMovb c toCb n b s
  | .move c dst src => Sys2Proof.Machine.execMove c dst src s
  | .load c an mode x => Sys2Proof.Machine.execLoad c an mode x s
  | .store c an mode x => Sys2Proof.Machine.execStore c an mode x s
  | .movq c n q => Sys2Proof.Machine.execMovq c n q s
  | .addq c n q => Sys2Proof.Machine.execAddq c n q s
  | .cmpq c n q => Sys2Proof.Machine.execCmpq c n q s
  | .movqA c an u => Sys2Proof.Machine.execMovqA c an u s
  | .add c dd ds => Sys2Proof.Machine.execAdd c dd ds s
  | .adc c dd ds => Sys2Proof.Machine.execAdc c dd ds s
  | .sub c dd ds => Sys2Proof.Machine.execSub c dd ds s
  | .sbc c dd ds => Sys2Proof.Machine.execSbc c dd ds s
  | .cmp c dd ds => Sys2Proof.Machine.execCmp c dd ds s
  | .and c dd ds => Sys2Proof.Machine.execAnd c dd ds s
  | .or c dd ds => Sys2Proof.Machine.execOr c dd ds s
  | .xor c dd ds => Sys2Proof.Machine.execXor c dd ds s
  | .not c dd ds => Sys2Proof.Machine.execNot c dd ds s
  | .neg c dd ds => Sys2Proof.Machine.execNeg c dd ds s
  | .lsl c dd ds => Sys2Proof.Machine.execLsl c dd ds s
  | .lsr c dd ds => Sys2Proof.Machine.execLsr c dd ds s
  | .asr c dd ds => Sys2Proof.Machine.execAsr c dd ds s
  | .ror c dd ds => Sys2Proof.Machine.execRor c dd ds s
  | .adds c dd ds => Sys2Proof.Machine.execAdds c dd ds s
  | .subs c dd ds => Sys2Proof.Machine.execSubs c dd ds s
  | .mac c k dx dy => Sys2Proof.Machine.execMac c k dx dy s
  | .msu c k dx dy => Sys2Proof.Machine.execMsu c k dx dy s
  | .mpy c k dx dy => Sys2Proof.Machine.execMpy c k dx dy s
  | .accClr c k => Sys2Proof.Machine.execAccClr c k s
  | .addacc c k o => Sys2Proof.Machine.execAddacc c k o s
  | .subacc c k o => Sys2Proof.Machine.execSubacc c k o s
  | .negacc c k => Sys2Proof.Machine.execNegacc c k s
  | .asl c k o => Sys2Proof.Machine.execAsl c k o s
  | .accAsr c k o => Sys2Proof.Machine.execAccAsr c k o s
  | .rnd c k => Sys2Proof.Machine.execRnd c k s
  | .sat32 c k => Sys2Proof.Machine.execSat32 c k s
  | .addaImm c an u => Sys2Proof.Machine.execAddaImm c an u s
  | .suba c an u => Sys2Proof.Machine.execSuba c an u s
  | .addaD c an m => Sys2Proof.Machine.execAddaD c an m s
  | .addaA c an am => Sys2Proof.Machine.execAddaA c an am s
  | .mset c k m => Sys2Proof.Machine.execMset c k m s
  | .mget c k m => Sys2Proof.Machine.execMget c k m s
  | .branch c cnd t => Sys2Proof.Machine.execBranch c cnd t s
  | .call c t => Sys2Proof.Machine.execCall c t s
  | .calli c x => Sys2Proof.Machine.execCalli c x s
  | .tbr c p => Sys2Proof.Machine.execTbr c p s
  | .tbst c an => Sys2Proof.Machine.execTbst c an s
  | .telap c unit an p => Sys2Proof.Machine.execTelap c unit an p s
  | .tcmp c unit an p => Sys2Proof.Machine.execTcmp c unit an p s
  | .ldi c n v => Sys2Proof.Machine.execLdi c n v s
  | .alui c n op v => Sys2Proof.Machine.execAlui c n op v s
  | .ldd c an x disp => Sys2Proof.Machine.execLdd c an x disp s
  | .std c an x disp => Sys2Proof.Machine.execStd c an x disp s
  | .ldiA c an v => Sys2Proof.Machine.execLdiA c an v s
  | .lit c u => Sys2Proof.Machine.execLit c u s
  | .lith c u => Sys2Proof.Machine.execLith c u s
  | .stkAdd c => Sys2Proof.Machine.execStkAdd c s
  | .stkSub c => Sys2Proof.Machine.execStkSub c s
  | .stkAnd c => Sys2Proof.Machine.execStkAnd c s
  | .stkOr c => Sys2Proof.Machine.execStkOr c s
  | .stkXor c => Sys2Proof.Machine.execStkXor c s
  | .stkShl c => Sys2Proof.Machine.execStkShl c s
  | .stkShr c => Sys2Proof.Machine.execStkShr c s
  | .stkAsr c => Sys2Proof.Machine.execStkAsr c s
  | .stkMul c => Sys2Proof.Machine.execStkMul c s
  | .stkEq c => Sys2Proof.Machine.execStkEq c s
  | .stkLts c => Sys2Proof.Machine.execStkLts c s
  | .stkLtu c => Sys2Proof.Machine.execStkLtu c s
  | .stkNot c => Sys2Proof.Machine.execStkNot c s
  | .stkNeg c => Sys2Proof.Machine.execStkNeg c s
  | .dup c => Sys2Proof.Machine.execDup c s
  | .drop c => Sys2Proof.Machine.execDrop c s
  | .swap c => Sys2Proof.Machine.execSwap c s
  | .over c => Sys2Proof.Machine.execOver c s
  | .rot c => Sys2Proof.Machine.execRot c s
  | .popaL c k => Sys2Proof.Machine.execPopaL c k s
  | .popaH c k => Sys2Proof.Machine.execPopaH c k s
  | .pushaL c k => Sys2Proof.Machine.execPushaL c k s
  | .pushaH c k => Sys2Proof.Machine.execPushaH c k s
  | .inca c k => Sys2Proof.Machine.execInca c k s
  | .ld c k => Sys2Proof.Machine.execLd c k s
  | .ldInc c k => Sys2Proof.Machine.execLdInc c k s
  | .st c k => Sys2Proof.Machine.execSt c k s
  | .stInc c k => Sys2Proof.Machine.execStInc c k s
  | .stkBra c q => Sys2Proof.Machine.execStkBra c q s
  | .bz c q => Sys2Proof.Machine.execBz c q s
  | .stkCall c q => Sys2Proof.Machine.execStkCall c q s
  | .eventEntry t => Sys2Proof.Machine.execEventEntry t s
  | .t4ModeWrite r t v => Sys2Proof.Machine.execT4ModeWrite r t v s
  | .t4EventTimeout t => Sys2Proof.Machine.execT4EventTimeout t s
  | .patrolScrub a granule found => Sys2Proof.Machine.execPatrolScrub a granule found s
  | .clockLoss => Sys2Proof.Machine.execClockLoss s
  | .dieLinkTimeout => Sys2Proof.Machine.execDieLinkTimeout s
  | .mcStatusWrite r v => Sys2Proof.Machine.execMcStatusWrite r v s
  | .ceClr r => Sys2Proof.Machine.execCeClr r s
  | .inj r => Sys2Proof.Machine.execInj r s
  | .setupLockSet r => Sys2Proof.Machine.execSetupLockSet r s
  | .aeClr r => Sys2Proof.Machine.execAeClr r s
  | .aeLogClear r => Sys2Proof.Machine.execAeLogClear r s
  | .registerWrite x => Sys2Proof.Machine.execRegisterWrite x s
  | .powerOnReset cut env => Sys2Proof.Machine.execPowerOnReset cut env s
  | .brownOut rails cut => Sys2Proof.Machine.execBrownOut rails cut s
  | .resetPin => Sys2Proof.Machine.execResetPin s
  | .fenceNReset => Sys2Proof.Machine.execFenceNReset s
  | .devResetDelay => Sys2Proof.Machine.execDevResetDelay s
  | .internalReset lc env => Sys2Proof.Machine.execInternalReset lc env s
  | .startWarm r stopOut => Sys2Proof.Machine.execStartWarm r stopOut s
  | .startCold r stopOut => Sys2Proof.Machine.execStartCold r stopOut s
  | .scanStop r stopOut => Sys2Proof.Machine.execScanStop r stopOut s
  | .maxClr r => Sys2Proof.Machine.execMaxClr r s
  | .initDone => Sys2Proof.Machine.execInitDone s
  | .iFlip => Sys2Proof.Machine.execIFlip s
  | .iCopyForwardDone => Sys2Proof.Machine.execICopyForwardDone s
  | .barrierStart => Sys2Proof.Machine.execBarrierStart s
  | .barrierEnd => Sys2Proof.Machine.execBarrierEnd s
  | .qFlip => Sys2Proof.Machine.execQFlip s
  | .commitEnd => Sys2Proof.Machine.execCommitEnd s
  | .rollbackEnd => Sys2Proof.Machine.execRollbackEnd s
  | .scanOverrun => Sys2Proof.Machine.execScanOverrun s
  | .gapEnd => Sys2Proof.Machine.execGapEnd s
  | .hostSnapshotRead => Sys2Proof.Machine.execHostSnapshotRead s
  | .ctaskEnable r k ring point tile pc => Sys2Proof.Machine.execCtaskEnable r k ring point tile pc s
  | .clrAll r => Sys2Proof.Machine.execClrAll r s
  | .clrOrph r => Sys2Proof.Machine.execClrOrph r s
  | .open r => Sys2Proof.Machine.execOpen r s
  | .prepare r => Sys2Proof.Machine.execPrepare r s
  | .chgCommit r => Sys2Proof.Machine.execChgCommit r s
  | .abort r => Sys2Proof.Machine.execAbort r s
  | .checkingDone copyFail => Sys2Proof.Machine.execCheckingDone copyFail s
  | .stageDataWrite r v => Sys2Proof.Machine.execStageDataWrite r v s
  | .stagePtrWrite r v => Sys2Proof.Machine.execStagePtrWrite r v s
  | .commitPoint => Sys2Proof.Machine.execCommitPoint s
  | .ringCycleStart x => Sys2Proof.Machine.execRingCycleStart x s
  | .nodeFrameReceive x port f => Sys2Proof.Machine.execNodeFrameReceive x port f s
  | .windowClose x k => Sys2Proof.Machine.execWindowClose x k s
  | .cyclePoint x p => Sys2Proof.Machine.execCyclePoint x p s
  | .ringQPickup x => Sys2Proof.Machine.execRingQPickup x s
  | .axisEnable r n => Sys2Proof.Machine.execAxisEnable r n s
  | .axisDisable r n => Sys2Proof.Machine.execAxisDisable r n s
  | .clrFault r n => Sys2Proof.Machine.execClrFault r n s
  | .axisSwap r n => Sys2Proof.Machine.execAxisSwap r n s
  | .peakClr r n => Sys2Proof.Machine.execPeakClr r n s
  | .disAll r => Sys2Proof.Machine.execDisAll r s
  | .swapList r => Sys2Proof.Machine.execSwapList r s
  | .coefficientWrite r n bank ix v => Sys2Proof.Machine.execCoefficientWrite r n bank ix v s
  | .axisConfigWrite r n reg v => Sys2Proof.Machine.execAxisConfigWrite r n reg v s
  | .gantryCtrlWrite r g v => Sys2Proof.Machine.execGantryCtrlWrite r g v s
  | .gantryOfsWrite r g v => Sys2Proof.Machine.execGantryOfsWrite r g v s
  | .groupEnable r g v => Sys2Proof.Machine.execGroupEnable r g v s
  | .groupCfgWrite r g v => Sys2Proof.Machine.execGroupCfgWrite r g v s
  | .memberWrite r g k v => Sys2Proof.Machine.execMemberWrite r g k v s
  | .go r g => Sys2Proof.Machine.execGo r g s
  | .stop r g => Sys2Proof.Machine.execStop r g s
  | .qstop r g => Sys2Proof.Machine.execQstop r g s
  | .flush r g => Sys2Proof.Machine.execFlush r g s
  | .resume r g => Sys2Proof.Machine.execResume r g s
  | .qptrWrite r g v => Sys2Proof.Machine.execQptrWrite r g v s
  | .queueEntryWrite r g ix v => Sys2Proof.Machine.execQueueEntryWrite r g ix v s
  | .ringStart r x => Sys2Proof.Machine.execRingStart r x s
  | .ringStop r x => Sys2Proof.Machine.execRingStop r x s
  | .linkSynchronized x port => Sys2Proof.Machine.execLinkSynchronized x port s
  | .startStepTimeout x => Sys2Proof.Machine.execStartStepTimeout x s
  | .enumFrameSend x => Sys2Proof.Machine.execEnumFrameSend x s
  | .enumFrameReturn x count dly eseq => Sys2Proof.Machine.execEnumFrameReturn x count dly eseq s
  | .ringSyncDone x => Sys2Proof.Machine.execRingSyncDone x s
  | .ringStopDone x => Sys2Proof.Machine.execRingStopDone x s
  | .linkDelayRequest x port lseq turn => Sys2Proof.Machine.execLinkDelayRequest x port lseq turn s
  | .mfLost x => Sys2Proof.Machine.execMfLost x s
  | .ringPcsLoss x port => Sys2Proof.Machine.execRingPcsLoss x port s
  | .healClose x => Sys2Proof.Machine.execHealClose x s
  | .ringDeadTimeout x => Sys2Proof.Machine.execRingDeadTimeout x s
  | .svcGo r x node op index => Sys2Proof.Machine.execSvcGo r x node op index s
  | .svcTimeout x => Sys2Proof.Machine.execSvcTimeout x s
  | .cntClr r x => Sys2Proof.Machine.execCntClr r x s
  | .cptWrite r x p v => Sys2Proof.Machine.execCptWrite r x p v s
  | .ringConfigWrite r x reg v => Sys2Proof.Machine.execRingConfigWrite r x reg v s
  | .standbyRingFrame x port f => Sys2Proof.Machine.execStandbyRingFrame x port f s
  | .canStart r c => Sys2Proof.Machine.execCanStart r c s
  | .canStop r c => Sys2Proof.Machine.execCanStop r c s
  | .recover r c => Sys2Proof.Machine.execRecover r c s
  | .canSyncDone c => Sys2Proof.Machine.execCanSyncDone c s
  | .canStopDone c => Sys2Proof.Machine.execCanStopDone c s
  | .recoverDone c => Sys2Proof.Machine.execRecoverDone c s
  | .txreqWrite r c v => Sys2Proof.Machine.execTxreqWrite r c v s
  | .txcanWrite r c v => Sys2Proof.Machine.execTxcanWrite r c v s
  | .mraWrite r c v => Sys2Proof.Machine.execMraWrite r c v s
  | .mrwWrite r c v => Sys2Proof.Machine.execMrwWrite r c v s
  | .mrrRead r c => Sys2Proof.Machine.execMrrRead r c s
  | .rxqaWrite r c q n => Sys2Proof.Machine.execRxqaWrite r c q n s
  | .canFrameReceive c f => Sys2Proof.Machine.execCanFrameReceive c f s
  | .canBusError c e => Sys2Proof.Machine.execCanBusError c e s
  | .canTxChoice c => Sys2Proof.Machine.execCanTxChoice c s
  | .canTxEnd c o ldly => Sys2Proof.Machine.execCanTxEnd c o ldly s
  | .tatDeadline c b => Sys2Proof.Machine.execTatDeadline c b s
  | .canQPickup c => Sys2Proof.Machine.execCanQPickup c s
  | .lomExit c => Sys2Proof.Machine.execLomExit c s
  | .fieldTick => Sys2Proof.Machine.execFieldTick s
  | .fieldImageWrite => Sys2Proof.Machine.execFieldImageWrite s
  | .fieldGroupSample g raw => Sys2Proof.Machine.execFieldGroupSample g raw s
  | .currentLimitEntry ix => Sys2Proof.Machine.execCurrentLimitEntry ix s
  | .outputLatch ix => Sys2Proof.Machine.execOutputLatch ix s
  | .thermalShutdown ix => Sys2Proof.Machine.execThermalShutdown ix s
  | .fieldTempWarning above => Sys2Proof.Machine.execFieldTempWarning above s
  | .vfldLockout => Sys2Proof.Machine.execVfldLockout s
  | .vfldRecover => Sys2Proof.Machine.execVfldRecover s
  | .supplyLoss => Sys2Proof.Machine.execSupplyLoss s
  | .vfldOkRestore => Sys2Proof.Machine.execVfldOkRestore s
  | .fioRetry r v => Sys2Proof.Machine.execFioRetry r v s
  | .fioFaultClear r => Sys2Proof.Machine.execFioFaultClear r s
  | .fioDirWrite r v => Sys2Proof.Machine.execFioDirWrite r v s
  | .parWrite r g v => Sys2Proof.Machine.execParWrite r g v s
  | .hostBarRead x => Sys2Proof.Machine.execHostBarRead x s
  | .hostBar2Write off ws => Sys2Proof.Machine.execHostBar2Write off ws s
  | .poisonedWrite => Sys2Proof.Machine.execPoisonedWrite s
  | .pcieConfigRequest fn write dw be v => Sys2Proof.Machine.execPcieConfigRequest fn write dw be v s
  | .cmdqTailDoorbell q v => Sys2Proof.Machine.execCmdqTailDoorbell q v s
  | .cplqHeadDoorbell q v => Sys2Proof.Machine.execCplqHeadDoorbell q v s
  | .segrDoorbell g v ents => Sys2Proof.Machine.execSegrDoorbell g v ents s
  | .cmdqEna q cplq sz => Sys2Proof.Machine.execCmdqEna q cplq sz s
  | .cmdqDis q => Sys2Proof.Machine.execCmdqDis q s
  | .cplqEna q ien iv sz => Sys2Proof.Machine.execCplqEna q ien iv sz s
  | .cplqDis q => Sys2Proof.Machine.execCplqDis q s
  | .descriptorFetch q x => Sys2Proof.Machine.execDescriptorFetch q x s
  | .hostNop q => Sys2Proof.Machine.execHostNop q s
  | .readW q => Sys2Proof.Machine.execReadW q s
  | .writeW q => Sys2Proof.Machine.execWriteW q s
  | .snapRead q => Sys2Proof.Machine.execSnapRead q s
  | .forceWr q => Sys2Proof.Machine.execForceWr q s
  | .stage q => Sys2Proof.Machine.execStage q s
  | .progCmd q => Sys2Proof.Machine.execProgCmd q s
  | .scanCmd q => Sys2Proof.Machine.execScanCmd q s
  | .segBind q => Sys2Proof.Machine.execSegBind q s
  | .nvRead q => Sys2Proof.Machine.execNvRead q s
  | .nvWrite q => Sys2Proof.Machine.execNvWrite q s
  | .fwStage q => Sys2Proof.Machine.execFwStage q s
  | .fwHandover q => Sys2Proof.Machine.execFwHandover q s
  | .devReset q => Sys2Proof.Machine.execDevReset q s
  | .reservedCommand q => Sys2Proof.Machine.execReservedCommand q s
  | .transferChunk q x => Sys2Proof.Machine.execTransferChunk q x s
  | .hostCompletionTimeout q fetch => Sys2Proof.Machine.execHostCompletionTimeout q fetch s
  | .pgCmd r page old new => Sys2Proof.Machine.execPgCmd r page old new s
  | .hostIrq r v => Sys2Proof.Machine.execHostIrq r v s
  | .pcieLinkDown => Sys2Proof.Machine.execPcieLinkDown s
  | .pcieLinkUp => Sys2Proof.Machine.execPcieLinkUp s
  | .functionLevelReset => Sys2Proof.Machine.execFunctionLevelReset s
  | .hotReset => Sys2Proof.Machine.execHotReset s
  | .perstRelease => Sys2Proof.Machine.execPerstRelease s
  | .helloSend => Sys2Proof.Machine.execHelloSend s
  | .helloReceive l f => Sys2Proof.Machine.execHelloReceive l f s
  | .helloTimeout l => Sys2Proof.Machine.execHelloTimeout l s
  | .fabricLinkLoss l => Sys2Proof.Machine.execFabricLinkLoss l s
  | .electionSettled => Sys2Proof.Machine.execElectionSettled s
  | .epochTick => Sys2Proof.Machine.execEpochTick s
  | .rootTimeout => Sys2Proof.Machine.execRootTimeout s
  | .joinSend => Sys2Proof.Machine.execJoinSend s
  | .joinReceive l f => Sys2Proof.Machine.execJoinReceive l f s
  | .rootAssign => Sys2Proof.Machine.execRootAssign s
  | .assignReceive l f => Sys2Proof.Machine.execAssignReceive l f s
  | .lsaSend => Sys2Proof.Machine.execLsaSend s
  | .lsaReceive l f => Sys2Proof.Machine.execLsaReceive l f s
  | .lsaExpire uid => Sys2Proof.Machine.execLsaExpire uid s
  | .fabricFrameReceive l f => Sys2Proof.Machine.execFabricFrameReceive l f s
  | .publishSend k => Sys2Proof.Machine.execPublishSend k s
  | .publishReceive l f => Sys2Proof.Machine.execPublishReceive l f s
  | .subAgeTick k => Sys2Proof.Machine.execSubAgeTick k s
  | .tsyncRequest => Sys2Proof.Machine.execTsyncRequest s
  | .tsyncReqReceive l f => Sys2Proof.Machine.execTsyncReqReceive l f s
  | .tsyncResponse l f => Sys2Proof.Machine.execTsyncResponse l f s
  | .tlockTimeout => Sys2Proof.Machine.execTlockTimeout s
  | .fabCntClr r => Sys2Proof.Machine.execFabCntClr r s
  | .rejoin r => Sys2Proof.Machine.execRejoin r s
  | .heartbeatSend => Sys2Proof.Machine.execHeartbeatSend s
  | .heartbeatReceive h => Sys2Proof.Machine.execHeartbeatReceive h s
  | .heartbeatMiss => Sys2Proof.Machine.execHeartbeatMiss s
  | .noticeReceive => Sys2Proof.Machine.execNoticeReceive s
  | .partnerActLow => Sys2Proof.Machine.execPartnerActLow s
  | .masterFrameAbsent x => Sys2Proof.Machine.execMasterFrameAbsent x s
  | .takeover => Sys2Proof.Machine.execTakeover s
  | .fenceTimeout => Sys2Proof.Machine.execFenceTimeout s
  | .fenceRelease => Sys2Proof.Machine.execFenceRelease s
  | .dualActive => Sys2Proof.Machine.execDualActive s
  | .muleWrReceive ws => Sys2Proof.Machine.execMuleWrReceive ws s
  | .muleRecordReceive m => Sys2Proof.Machine.execMuleRecordReceive m s
  | .lineReceive w n ws => Sys2Proof.Machine.execLineReceive w n ws s
  | .pointEndReceive n scan image hand cold => Sys2Proof.Machine.execPointEndReceive n scan image hand cold s
  | .ackReceive n => Sys2Proof.Machine.execAckReceive n s
  | .mirrorPointTimer => Sys2Proof.Machine.execMirrorPointTimer s
  | .changeReceive f => Sys2Proof.Machine.execChangeReceive f s
  | .resyncStart pid => Sys2Proof.Machine.execResyncStart pid s
  | .resyncDone c => Sys2Proof.Machine.execResyncDone c s
  | .pairTimeExchange t1 t2 t3 => Sys2Proof.Machine.execPairTimeExchange t1 t2 t3 s
  | .pairLaneLoss lane => Sys2Proof.Machine.execPairLaneLoss lane s
  | .goActive r => Sys2Proof.Machine.execGoActive r s
  | .switch r => Sys2Proof.Machine.execSwitch r s
  | .switchoverAckTimeout => Sys2Proof.Machine.execSwitchoverAckTimeout s
  | .switchoverHandoff => Sys2Proof.Machine.execSwitchoverHandoff s
  | .tbStep r => Sys2Proof.Machine.execTbStep r s
  | .timeLoRead r => Sys2Proof.Machine.execTimeLoRead r s
  | .evHpendClear r k v => Sys2Proof.Machine.execEvHpendClear r k v s
  | .gooseCheckIn r key id => Sys2Proof.Machine.execGooseCheckIn r key id s
  | .goosePeriodClose => Sys2Proof.Machine.execGoosePeriodClose s
  | .gooseConfigWrite r reg v => Sys2Proof.Machine.execGooseConfigWrite r reg v s
  | .henCapture => Sys2Proof.Machine.execHenCapture s
  | .henFlushDone => Sys2Proof.Machine.execHenFlushDone s
  | .henFlush r => Sys2Proof.Machine.execHenFlush r s
  | .verify r => Sys2Proof.Machine.execVerify r s
  | .henVerifyDone => Sys2Proof.Machine.execHenVerifyDone s
  | .henCntClr r => Sys2Proof.Machine.execHenCntClr r s
  | .eraseAll r => Sys2Proof.Machine.execEraseAll r s
  | .eraseRun r => Sys2Proof.Machine.execEraseRun r s
  | .eraseRunDone => Sys2Proof.Machine.execEraseRunDone s
  | .henRangeWrite r c k v => Sys2Proof.Machine.execHenRangeWrite r c k v s
  | .henRselWrite r v => Sys2Proof.Machine.execHenRselWrite r v s
  | .bufferDrain => Sys2Proof.Machine.execBufferDrain s
  | .verifyPassDone bad => Sys2Proof.Machine.execVerifyPassDone bad s
  | .nvrRead r => Sys2Proof.Machine.execNvrRead r s
  | .nvrWrite r => Sys2Proof.Machine.execNvrWrite r s
  | .nvrDone bad => Sys2Proof.Machine.execNvrDone bad s
  | .wringEnable r k v => Sys2Proof.Machine.execWringEnable r k v s
  | .wringLoadDone k => Sys2Proof.Machine.execWringLoadDone k s
  | .wringTrigger k => Sys2Proof.Machine.execWringTrigger k s
  | .wringUpdateDone k bad => Sys2Proof.Machine.execWringUpdateDone k bad s
  | .powerFail => Sys2Proof.Machine.execPowerFail s
  | .powerFailDone => Sys2Proof.Machine.execPowerFailDone s
  | .powerFailRecover => Sys2Proof.Machine.execPowerFailRecover s
  | .bkSet r => Sys2Proof.Machine.execBkSet r s
  | .bkLoad => Sys2Proof.Machine.execBkLoad s
  | .bkWakeFire => Sys2Proof.Machine.execBkWakeFire s
  | .bkWakeWrite r v => Sys2Proof.Machine.execBkWakeWrite r v s
  | .bkSubRead r => Sys2Proof.Machine.execBkSubRead r s
  | .bkCalPeriod => Sys2Proof.Machine.execBkCalPeriod s
  | .bkLock => Sys2Proof.Machine.execBkLock s
  | .bkUnlock => Sys2Proof.Machine.execBkUnlock s
  | .bkPowerUp => Sys2Proof.Machine.execBkPowerUp s
  | .bkBrownout => Sys2Proof.Machine.execBkBrownout s
  | .oscStop => Sys2Proof.Machine.execOscStop s
  | .lcCmd r key target => Sys2Proof.Machine.execLcCmd r key target s
  | .lcBurnDone => Sys2Proof.Machine.execLcBurnDone s
  | .ksProg r key attr slot => Sys2Proof.Machine.execKsProg r key attr slot s
  | .ksProgDone => Sys2Proof.Machine.execKsProgDone s
  | .psBurn r key => Sys2Proof.Machine.execPsBurn r key s
  | .psBurnDone => Sys2Proof.Machine.execPsBurnDone s
  | .debugEnableRequest => Sys2Proof.Machine.execDebugEnableRequest s
  | .debugResponse resp => Sys2Proof.Machine.execDebugResponse resp s
  | .deadExit lc env => Sys2Proof.Machine.execDeadExit lc env s
  | .handoverPoint => Sys2Proof.Machine.execHandoverPoint s
  | .fwCommitPoint => Sys2Proof.Machine.execFwCommitPoint s
  | .bootArunStore r m => Sys2Proof.Machine.execBootArunStore r m s
  | .storeBufferDrain c ix => Sys2Proof.Machine.execStoreBufferDrain c ix s
  | .loadReturn c ix => Sys2Proof.Machine.execLoadReturn c ix s
  | .t4PreloadDone t => Sys2Proof.Machine.execT4PreloadDone t s
  | .pcsSyncRegained x port => Sys2Proof.Machine.execPcsSyncRegained x port s
  | .fabricBlockLock l => Sys2Proof.Machine.execFabricBlockLock l s
  | .pairBlockLock lane => Sys2Proof.Machine.execPairBlockLock lane s
  | .tatTimeReached c b idle => Sys2Proof.Machine.execTatTimeReached c b idle s
  | .oscRestart => Sys2Proof.Machine.execOscRestart s
  | .backupSupplyReturn => Sys2Proof.Machine.execBackupSupplyReturn s
  | .resetNRelease env => Sys2Proof.Machine.execResetNRelease env s
  | .fenceNRelease env => Sys2Proof.Machine.execFenceNRelease env s
  | .brownOutRelease rail env => Sys2Proof.Machine.execBrownOutRelease rail env s
  | .pfwNDeassert => Sys2Proof.Machine.execPfwNDeassert s
  | .tjCoreUpdate t => Sys2Proof.Machine.execTjCoreUpdate t s
  | .debugHalt t a => Sys2Proof.Machine.execDebugHalt t a s
  | .currentLimitExit ix => Sys2Proof.Machine.execCurrentLimitExit ix s

end Sys2Proof.Machine
end

