-- ==== Sys2Proof/Machine/Step.lean ====
section
/-! DEFINITION. One step: the command at the front of the queue runs on the state with the queue's rest; on an empty queue one
nanosecond passes. -/

namespace Sys2Proof.Machine

/-- One nanosecond with no command (DESIGN CHOICE, log entry 3): the timebase (R412), the Goose (R420) and the backup
clock (R473) advance. In reset the timebase and the backup clock alone count (Table 22.2). -/
def Dev.tick (d : Dev) : Dev :=
  let d := d.advance.bkNs
  if d.sys.held then d else d.gooseNs

/-- One step of the block. -/
def step (s : State) : Host.Outcome State Fault Refusal :=
  match s.pending with
  | [] => .next { s with dev := s.dev.tick }
  | c :: rest => exec c { s with pending := rest }

/-- `s` with the command that a word spells at the front of its queue. -/
def State.withFetchWord (s : State) (nbits w : Nat) : State :=
  match decodeTableWord nbits w with
  | some c => { s with pending := c :: s.pending }
  | none => s

end Sys2Proof.Machine
end

