-- ==== Sys2Proof/Machine/IsaDecode.lean ====
section
/-! DEFINITION. The words of the instruction set (03_isa_encoding.md): which command a word of the P space stands for, in native
mode by Tables 3.3 to 3.15 and in stack mode by Table 3.17. Every other word is a reserved encoding (R61). -/

namespace Sys2Proof.Machine

/-! ## Fields -/

/-- Bits `lo + n − 1` to `lo` of a word. -/
def bits (w lo n : Nat) : Nat := w / 2 ^ lo % 2 ^ n

/-- A register number of 4, 3 and 2 bits. -/
def reg4 (w lo : Nat) : Fin 16 := Fin.ofNat 16 (bits w lo 4)
def reg3 (w lo : Nat) : Fin 8 := Fin.ofNat 8 (bits w lo 3)
def reg2 (w lo : Nat) : Fin 4 := Fin.ofNat 4 (bits w lo 2)

/-- The instruction `i` where `p` holds of the word's fields, else a reserved encoding. -/
def only (c : CoreId) (p : Bool) (i : Instr) : Instr := if p then i else .reservedEncoding c

/-! ## Group 0x0 (R63, Table 3.4) -/

def decodeSys (c : CoreId) (w : Nat) : Instr :=
  let o := bits w 0 8
  match bits w 8 4 with
  | 0x0 => only c (o == 0) (.nop c)
  | 0x1 => only c (o == 0) (.wfe c)
  | 0x2 => only c (o < 8) (.sev c (reg3 w 0))
  | 0x3 => only c (o < 8) (.sevf c (reg3 w 0))
  | 0x4 => only c (o < 8) (.wunt c (reg3 w 0))
  | 0x5 => if o == 1 then .fenceR c else if o == 2 then .fenceW c else only c (o == 3) (.fenceAll c)
  | 0x6 => only c (o == 0) (.ret c)
  | 0x7 => only c (o == 0) (.reti c)
  | 0x8 => .trap c (BitVec.ofNat 8 o)
  | 0x9 => only c (o < 2) (.mode c (o == 1))
  | 0xA => only c (o < 8) (.jmpAn c (reg3 w 0))
  | 0xB => only c (o < 8) (.callAn c (reg3 w 0))
  | _ => .reservedEncoding c

/-! ## Bit instructions (R65, R67, R68) -/

/-- Groups 0x1 and 0x2 (Table 3.5). -/
def decodeShortBit (c : CoreId) (w : Nat) : Instr :=
  let x : BitOpd := .short (reg2 w 8) (BitVec.ofNat 8 w)
  match bits w 12 1, bits w 10 2 with
  | 1, 0 => .ldb c x
  | 1, 1 => .andb c x
  | 1, 2 => .orb c x
  | 1, _ => .xorb c x
  | _, 0 => .stb c x
  | _, 1 => .setb c x
  | _, 2 => .clrb c x
  | _, _ => .edgr c x

/-- The areas of a long bit form (Table 3.6). -/
def bitAreas : List BitArea := [.image, .mark, .inst, .live, .own]

/-- The operations of a long bit form by [10:7] (Table 3.6). -/
def longBitOps (c : CoreId) (x : BitOpd) : List Instr :=
  [.ldb c x, .ldbn c x, .andb c x, .andbn c x, .orb c x, .orbn c x, .xorb c x, .xorbn c x, .stb c x, .stbn c x, .setb c x,
   .clrb c x, .edgr c x, .edgf c x]

/-- Group 0x3 with [11] = 1; `v` is the second word. -/
def decodeLongBit (c : CoreId) (w v : Nat) : Instr :=
  match bitAreas[bits w 4 3]? with
  | none => .reservedEncoding c
  | some a => (longBitOps c (.long a (BitVec.ofNat 20 (bits w 0 4 * 65536 + v)))).getD (bits w 7 4) (.reservedEncoding c)

/-- Group 0x3 with [11] = 0 (Table 3.7). -/
def decodeBitStack (c : CoreId) (w : Nat) : Instr :=
  let k := bits w 8 3
  if k == 7 then .movb c (bits w 7 1 == 1) (reg3 w 4) (reg4 w 0)
  else only c (bits w 0 8 == 0)
    (([.cpush c, .cpand c, .cpor c, .cpxor c, .cnot c, .cset c, .cclr c] : List Instr).getD k (.reservedEncoding c))

/-! ## Moves, memory, data and addresses (R70, R71, R74 to R77) -/

/-- An operand of a register move: class and index (Table 3.8). -/
def moveOpd (cls n : Nat) : Option MoveOpd :=
  match cls with
  | 0 => some (.d (Fin.ofNat 16 n))
  | 1 => if n < 8 then some (.a (Fin.ofNat 8 n)) else none
  | 2 => if n % 4 < 3 then some (.acc (Fin.ofNat 4 (n / 4)) (Fin.ofNat 3 (n % 4))) else none
  | _ => if n == 0 then some .sr else if n == 1 then some .bstk else none

/-- Group 0x4 (Table 3.9). -/
def decodeMove (c : CoreId) (w : Nat) : Instr :=
  let dc := bits w 10 2
  let sc := bits w 8 2
  match moveOpd dc (bits w 4 4), moveOpd sc (bits w 0 4) with
  | some x, some y => only c (dc == 0 || sc == 0 || (dc == 1 && sc == 1)) (.move c x y)
  | _, _ => .reservedEncoding c

/-- The operand of a load or store by size (Table 3.11). -/
def memOpd (size n : Nat) : Option MemOpd :=
  match size with
  | 0 => some (.word (Fin.ofNat 16 n))
  | 1 => if n % 2 == 0 then some (.pair (Fin.ofNat 16 n)) else none
  | 2 => if n < 4 then some (.accPair (Fin.ofNat 4 n)) else none
  | _ => if n < 4 then some (.accWord (Fin.ofNat 4 n)) else none

/-- Address modes (Table 3.10). -/
def addrMode (m : Nat) : AddrMode := ([.ind, .postInc, .preDec, .modif] : List AddrMode).getD m .ind

/-- Group 0x5. -/
def decodeMem (c : CoreId) (w : Nat) : Instr :=
  let an := reg3 w 8
  let m := addrMode (bits w 2 2)
  match memOpd (bits w 0 2) (bits w 4 4) with
  | some x => only c (m != .modif || an.val < 4) (if bits w 11 1 == 0 then .load c an m x else .store c an m x)
  | none => .reservedEncoding c

/-- Group 0x6 (Table 3.13). -/
def decodeImm (c : CoreId) (w : Nat) : Instr :=
  let q := BitVec.ofNat 6 w
  match bits w 10 2 with
  | 0 => .movq c (reg4 w 6) q
  | 1 => .addq c (reg4 w 6) q
  | 2 => .cmpq c (reg4 w 6) q
  | _ => only c (bits w 9 1 == 0) (.movqA c (reg3 w 6) q)

/-- The data ALU operations by code (R75). -/
def aluOps (c : CoreId) (x y : Fin 16) : List Instr :=
  [.add c x y, .adc c x y, .sub c x y, .sbc c x y, .cmp c x y, .and c x y, .or c x y, .xor c x y, .not c x y, .neg c x y,
   .lsl c x y, .lsr c x y, .asr c x y, .ror c x y, .adds c x y, .subs c x y]

/-- Group 0x7. -/
def decodeAlu (c : CoreId) (w : Nat) : Instr := (aluOps c (reg4 w 4) (reg4 w 0)).getD (bits w 8 4) (.reservedEncoding c)

/-- Group 0x8 (R76). -/
def decodeAcc (c : CoreId) (w : Nat) : Instr :=
  let k := reg2 w 8
  let o := BitVec.ofNat 4 w
  match bits w 10 2 with
  | 0 => .mac c k (reg4 w 4) (reg4 w 0)
  | 1 => .msu c k (reg4 w 4) (reg4 w 0)
  | 2 => .mpy c k (reg4 w 4) (reg4 w 0)
  | _ =>
    match bits w 4 4 with
    | 0 => only c (o == 0) (.accClr c k)
    | 1 => .addacc c k o
    | 2 => .subacc c k o
    | 3 => only c (o == 0) (.negacc c k)
    | 4 => .asl c k o
    | 5 => .accAsr c k o
    | 6 => only c (o == 0) (.rnd c k)
    | 7 => only c (o == 0) (.sat32 c k)
    | _ => .reservedEncoding c

/-- Group 0x9 (R77). -/
def decodeAddr (c : CoreId) (w : Nat) : Instr :=
  let an := reg3 w 6
  let mOk := bits w 8 1 == 0 && bits w 4 2 == 0 && bits w 0 1 == 0
  match bits w 9 3 with
  | 0 => .addaImm c an (BitVec.ofNat 6 w)
  | 1 => .suba c an (BitVec.ofNat 6 w)
  | 2 => only c (bits w 4 2 == 0) (.addaD c an (reg4 w 0))
  | 3 => only c (bits w 3 3 == 0) (.addaA c an (reg3 w 0))
  | 4 => only c mOk (.mset c (reg2 w 6) (reg4 w 0))
  | 5 => only c mOk (.mget c (reg2 w 6) (reg4 w 0))
  | _ => .reservedEncoding c

/-! ## Control flow and time (R78, R80) -/

/-- The conditions by code (Table 3.14). -/
def conds : List Cond := [.ra, .eq, .ne, .cs, .cc, .mi, .pl, .vs, .gt, .le, .ge, .lt, .ct, .cf]

/-- Group 0xA. -/
def decodeBranch (c : CoreId) (w : Nat) : Instr :=
  let q := BitVec.ofNat 8 w
  match conds[bits w 8 4]? with
  | some k => .branch c k (.short q)
  | none => if bits w 8 4 == 14 then .call c (.short q) else .calli c (.short q)

/-- Group 0xB; `v` is the second word. -/
def decodeLongBranch (c : CoreId) (w v : Nat) : Instr :=
  let t := BitVec.ofNat 21 (bits w 0 5 * 65536 + v)
  let zero := bits w 5 3 == 0
  match conds[bits w 8 4]? with
  | some k => only c zero (.branch c k (.long t))
  | none => if bits w 8 4 == 14 then only c zero (.call c (.long t)) else .calli c (.long (reg3 w 5) t)

/-- Group 0xC. -/
def decodeTime (c : CoreId) (w : Nat) : Instr :=
  match bits w 8 4 with
  | 0 => only c (bits w 2 6 == 0) (.tbr c (reg2 w 0))
  | 1 => only c (bits w 6 2 == 0 && bits w 0 3 == 0) (.tbst c (reg3 w 3))
  | 2 => .telap c (reg2 w 6) (reg3 w 3) (reg3 w 0)
  | 3 => .tcmp c (reg2 w 6) (reg3 w 3) (reg3 w 0)
  | _ => .reservedEncoding c

/-! ## Two-word forms (R81, Table 3.15) -/

/-- The data ALU operations of ALUI by code; 0x8 and 0x9 are reserved. -/
def aluCodes : List AluOp :=
  [.add, .adc, .sub, .sbc, .cmp, .and, .or, .xor, .not, .neg, .lsl, .lsr, .asr, .ror, .adds, .subs]

/-- Group 0xF; `v` is the second word. -/
def decodeEscape (c : CoreId) (w v : Nat) : Instr :=
  let e := BitVec.ofNat 16 v
  match bits w 8 4 with
  | 0 => only c (bits w 0 4 == 0) (.ldi c (reg4 w 4) e)
  | 1 => only c (bits w 0 4 != 8 && bits w 0 4 != 9) (.alui c (reg4 w 4) (aluCodes.getD (bits w 0 4) .add) e)
  | 2 =>
    match memOpd (bits w 0 1) (bits w 4 4) with
    | some x => .ldd c (reg3 w 1) x e
    | none => .reservedEncoding c
  | 3 =>
    match memOpd (bits w 0 1) (bits w 4 4) with
    | some x => .std c (reg3 w 1) x e
    | none => .reservedEncoding c
  | s => only c (8 ≤ s) (.ldiA c (reg3 w 8) (BitVec.ofNat 24 (bits w 0 8 * 65536 + v)))

/-! ## The words of both modes -/

/-- A word in native mode, with the word after it (Table 3.3). -/
def decodeNative (c : CoreId) (w v : Nat) : Instr :=
  match bits w 12 4 with
  | 0x0 => decodeSys c w
  | 0x1 | 0x2 => decodeShortBit c w
  | 0x3 => if bits w 11 1 == 1 then decodeLongBit c w v else decodeBitStack c w
  | 0x4 => decodeMove c w
  | 0x5 => decodeMem c w
  | 0x6 => decodeImm c w
  | 0x7 => decodeAlu c w
  | 0x8 => decodeAcc c w
  | 0x9 => decodeAddr c w
  | 0xA => decodeBranch c w
  | 0xB => decodeLongBranch c w v
  | 0xC => decodeTime c w
  | 0xF => decodeEscape c w v
  | _ => .reservedEncoding c

/-- The ALU operations of stack mode by code (Table 3.17). -/
def stackAlu (c : CoreId) : List Instr :=
  [.stkAdd c, .stkSub c, .stkAnd c, .stkOr c, .stkXor c, .stkShl c, .stkShr c, .stkAsr c, .stkMul c, .stkEq c, .stkLts c,
   .stkLtu c, .stkNot c, .stkNeg c]

/-- The STACK operations. -/
def stackOps (c : CoreId) (k : Fin 8) : List Instr :=
  [.dup c, .drop c, .swap c, .over c, .rot c, .popaL c k, .popaH c k, .pushaL c k, .pushaH c k, .inca c k]

/-- The MEM operations. -/
def stackMem (c : CoreId) (k : Fin 8) : List Instr := [.ld c k, .st c k, .ldInc c k, .stInc c k]

/-- A word in stack mode (Table 3.17). [6:4] of an operation that names no Ak is its Ak field too, and not used. -/
def decodeStack (c : CoreId) (w : Nat) : Instr :=
  let q := BitVec.ofNat 12 w
  let k := reg3 w 4
  let of (p : Bool) (is : List Instr) : Instr := only c p (is.getD (bits w 0 4) (.reservedEncoding c))
  match bits w 12 4 with
  | 0x0 => decodeSys c w
  | 0x1 => .lit c q
  | 0x2 => .lith c q
  | 0x3 => of (bits w 4 8 == 0) (stackAlu c)
  | 0x4 => of (bits w 7 5 == 0) (stackOps c k)
  | 0x5 => of (bits w 7 5 == 0) (stackMem c k)
  | 0x6 => .stkBra c q
  | 0x7 => .bz c q
  | 0x8 => .stkCall c q
  | _ => .reservedEncoding c

/-- The command that a word and the word after it stand for, with MODE = `stack` (R61). -/
def isaDecode (c : CoreId) (stack : Bool) (w v : BitVec 16) : Instr :=
  if stack then decodeStack c w.toNat else decodeNative c w.toNat v.toNat

/-- The command that stands at a core's PC. -/
def Dev.nextInstr (d : Dev) (c : CoreId) : Instr :=
  let r := (d.core c).act
  let at_ (p : Nat) : BitVec 16 := BitVec.ofNat 16 (d.pWord c p)
  isaDecode c (srBit r.sr srMode) (at_ r.pc.toNat) (at_ (r.pc.toNat + 1))

end Sys2Proof.Machine
end

