-- ==== Sys2Proof/Safety.lean ====
section
/-! DEFINITION. What counts as a safe step and a safe run of the block, and the order on fuses that no step goes back on. -/

namespace Sys2Proof

open Sys2Proof.Machine

/-- The state after a step, when the step has one. -/
def after (o : Host.Outcome State Fault Refusal) : Option State :=
  match o with
  | .next s => some s
  | .fault _ | .refused _ => none

/-- A step is safe: it has a next state. -/
def safeStep (s : State) : Prop := ∃ t, step s = .next t

/-- `n` steps from `s` are safe. -/
def safeRun : Nat → State → Prop
  | 0, _ => True
  | n + 1, s => ∃ t, step s = .next t ∧ safeRun n t

end Sys2Proof

namespace Sys2Proof.Machine

/-- Every bit burnt in `f` is burnt in `g` (R488). -/
structure FuseField.le (f g : FuseField) : Prop where
  prog : f.prog = true → g.prog = true
  done : f.done = true → g.done = true
  value : f.value &&& g.value = f.value
  attr : f.attr &&& g.attr = f.attr
  crc : f.crc &&& g.crc = f.crc

/-- The same of a bank: both roots and the 32 slots. -/
structure Bank.le (a b : Bank) : Prop where
  rootA : FuseField.le a.rootA b.rootA
  rootB : FuseField.le a.rootB b.rootB
  slots : ∀ i, i < 32 → FuseField.le (a.slot i) (b.slot i)

/-- The same of the whole fuse array; OPK_HASH and the UID never change. -/
structure Fuses.le (f g : Fuses) : Prop where
  lc : f.lc &&& g.lc = f.lc
  openB : Bank.le f.openB g.openB
  sealedB : Bank.le f.sealedB g.sealedB
  protA : FuseField.le f.protA g.protA
  protB : FuseField.le f.protB g.protB
  opk : f.opk = g.opk
  uid : f.uid = g.uid

end Sys2Proof.Machine
end

