-- ==== Sys2Proof/Claims.lean ====
section
/-! DEFINITION. What the statements of Certificates/ speak of: when an instruction issues, what a state keeps, and the
arithmetic of the spec written over bit vectors and integers, apart from the model's own. -/

namespace Sys2Proof.Machine

/-- The state with its device replaced: nothing else changes. -/
def State.on (s : State) (d : Dev) : State := { s with dev := d }

/-- The device after core `c` has fetched `n` words from P address `p` upward; none where one of them cannot be fetched
(R40, R41, R120). -/
def Dev.fetchFrom (d : Dev) (c : CoreId) (p : Nat) : Nat → Option Dev
  | 0 => some d
  | n + 1 =>
    match d.fetchWord c p with
    | some (.ok e) => e.fetchFrom c (p + 1) n
    | _ => none

/-- A T4 strand fetches inside its locked range. -/
def Dev.inRange (d : Dev) (c : CoreId) (len : Nat) : Bool :=
  !d.t4On c || (decide ((d.core c).t4Base.toNat ≤ (d.core c).act.pc.toNat)
    && decide ((d.core c).act.pc.toNat + len ≤ (d.core c).t4Base.toNat + 4096))

/-- Core `c` issues an instruction of `len` words at its PC, which decodes with SR.MODE = `m` where given: `e` is the device
with every word of it fetched, and no detector has met a mismatch (R21). -/
def Dev.issues (d : Dev) (c : CoreId) (m : Option Bool) (len : Nat) (e : Dev) : Prop :=
  d.canIssue c = true ∧ (m = none ∨ m = some (srBit (d.core c).act.sr srMode)) ∧ (d.core c).trip = none
    ∧ d.inRange c len = true ∧ d.fetchFrom c (d.core c).act.pc.toNat len = some e

/-- No load into a register of the active set of core `c` is outstanding. -/
def Dev.regsFree (d : Dev) (c : CoreId) : Bool := (d.core c).loads.all (fun l => l.set1 != (d.core c).inSet1)

/-- An instruction of `len` words has taken place on core `c`: `f` of the active registers with PC past the instruction. -/
def Dev.retire (d : Dev) (c : CoreId) (len : Nat) (f : RegSet → RegSet) : Dev :=
  d.updCore c (fun k => { k.setAct (f { k.act with pc := k.act.pc + BitVec.ofNat 21 len }) with stepOk := false, runAt := none })

/-- A bit instruction of `len` words has taken place: after a short one in set 0 of a tile a rung run may go on with the next
word of the same 4-word fetch (R69). -/
def Dev.retireBit (d : Dev) (c : CoreId) (len : Nat) (f : RegSet → RegSet) : Dev :=
  let k := d.core c
  let more := len = 1 ∧ c.val < 16 ∧ k.inSet1 = false ∧ k.act.pc.toNat % 4 ≠ 3
  (d.retire c len f).updCore c (fun q => { q with runAt := if more then some (k.act.pc + 1) else none })

/-- The field `f` shares no bit with the field `g`. -/
def Fld.apart (f g : Fld) : Prop := f.addr ≠ g.addr ∨ f.hi < g.lo ∨ g.hi < f.lo

/-- Every register field that shares no bit with the fields listed reads as before. -/
def Dev.onlyFields (d t : Dev) (fs : List Fld) : Prop :=
  ∀ f : Fld, f.lo ≤ f.hi → (∀ g ∈ fs, f.apart g) → t.get f = d.get f

/-- The state has changed in nothing but the register fields listed. -/
def State.onlyRegs (s t : State) (fs : List Fld) : Prop :=
  t = { s with dev := { s.dev with regs := t.dev.regs } } ∧ s.dev.onlyFields t.dev fs

/-- A requester's write of the register at even address `a` breaks no access rule (Table 2.5, R47, R511), the device is not
held in reset, and for the host its function is not in D3hot. -/
def Dev.reaches (d : Dev) (r : Req) (a : Nat) : Bool :=
  !d.sys.held && regArea a &&
  match r with
  | .core c => decide (a < 0x1000000) && (d.accessRule c true a 2).isNone
  | .host => !d.d3hot && !d.flag R.BOOT_STAT_DEAD && d.hostMay (hostRegion a) true

/-- The set-up lock does not cover the register at address `a` (R48). -/
def Dev.unlocked (d : Dev) (a : Nat) : Bool := !(d.flag R.SETUP_LOCK_LOCK && lockBlock a)

/-! ## Flags and the data ALU (Table 3.2, R98) -/

/-- One flag as a bit of SR. -/
def flagAt (i : Nat) (b : Bool) : BitVec 16 := if b then BitVec.twoPow 16 i else 0

/-- SR with N, Z and V as given, and C where it is given; every other bit as it was. -/
def withFlags (sr : BitVec 16) (n z v : Bool) (c : Option Bool) : BitVec 16 :=
  (sr &&& 0xFFF0) ||| flagAt 3 n ||| flagAt 2 z ||| flagAt 1 v ||| flagAt 0 (c.getD (sr.getLsbD 0))

/-- A signed value limited to 16 bits. -/
def clamp16 (t : Int) : Int := max (-32768) (min 32767 t)

/-- r of R98, from the operands a and b and the flag C. -/
def aluResult (op : AluOp) (a b : BitVec 16) (c : Bool) : BitVec 16 :=
  let k := b.toNat % 16
  match op with
  | .add => a + b
  | .adc => a + b + (BitVec.ofBool c).setWidth 16
  | .sub | .cmp => a - b
  | .sbc => a - b - (BitVec.ofBool c).setWidth 16
  | .and => a &&& b
  | .or => a ||| b
  | .xor => a ^^^ b
  | .not => ~~~a
  | .neg => -a
  | .lsl => a <<< k
  | .lsr => a >>> k
  | .asr => a.sshiftRight k
  | .ror => a.rotateRight k
  | .adds => BitVec.ofInt 16 (clamp16 (a.toInt + b.toInt))
  | .subs => BitVec.ofInt 16 (clamp16 (a.toInt - b.toInt))

/-- C of R98: none where it stays as it was. -/
def aluCarry (op : AluOp) (a b : BitVec 16) (c : Bool) : Option Bool :=
  let k := b.toNat % 16
  match op with
  | .add | .adds => some (decide (65536 ≤ a.toNat + b.toNat))
  | .adc => some (decide (65536 ≤ a.toNat + b.toNat + c.toNat))
  | .sub | .cmp | .subs => some (decide (a.toNat < b.toNat))
  | .sbc => some (decide (a.toNat < b.toNat + c.toNat))
  | .and | .or | .xor | .not => none
  | .neg => some (decide (a ≠ 0))
  | .lsl => if k = 0 then none else some (a.getLsbD (16 - k))
  | .lsr | .asr => if k = 0 then none else some (a.getLsbD (k - 1))
  | .ror => if k = 0 then none else some ((a.rotateRight k).msb)

/-- V of R98: the exact signed result lies outside 16 bits; 0 after a logical operation or a shift. -/
def aluOverflow (op : AluOp) (a b : BitVec 16) (c : Bool) : Bool :=
  let out (t : Int) : Bool := decide (t < -32768) || decide (32767 < t)
  match op with
  | .add | .adds => out (a.toInt + b.toInt)
  | .adc => out (a.toInt + b.toInt + c.toNat)
  | .sub | .cmp | .subs => out (a.toInt - b.toInt)
  | .sbc => out (a.toInt - b.toInt - c.toNat)
  | .neg => out (-a.toInt)
  | .and | .or | .xor | .not | .lsl | .lsr | .asr | .ror => false

/-- The registers after data operation `op` on `a` and `b` into D register `n` (CMP writes none). -/
def aluInto (op : AluOp) (n : Fin 16) (a b : BitVec 16) (r : RegSet) : RegSet :=
  let c := r.sr.getLsbD 0
  let v := aluResult op a b c
  { r with
    dr := if op = .cmp then r.dr else r.dr.set n.val v
    sr := withFlags r.sr v.msb (decide (v = 0)) (aluOverflow op a b c) (aluCarry op a b c) }

/-! ## Accumulators, addresses and immediates (R74, R76, R77, R96, R99 to R101) -/

/-- The range of an accumulator (R100). -/
def acc40 (x : Int) : Int := max (-(2 ^ 39)) (min (2 ^ 39 - 1) x)

/-- The registers after accumulator `k` takes `v`, with the sticky bits OVS and SAT set where `ovs` and `sat` say so. -/
def accTakes (k : Fin 4) (v : Int) (ovs sat : Bool) (r : RegSet) : RegSet :=
  { r with
    acc := r.acc.set k.val (BitVec.ofInt 40 v)
    sr := r.sr ||| flagAt 11 ovs ||| flagAt 10 sat }

/-- The registers after accumulator `k` takes `x` limited to 40 bits; OVS says that it was limited. -/
def accLimited (k : Fin 4) (x : Int) (r : RegSet) : RegSet := accTakes k (acc40 x) (decide (acc40 x ≠ x)) false r

/-- |x| rounded to a multiple of 65,536, half upward, with the sign of x: half away from zero (R76). -/
def roundHalfAway (x : Int) : Int :=
  if x < 0 then -(((x.natAbs + 32768) / 65536 * 65536 : Nat) : Int) else (((x.natAbs + 32768) / 65536 * 65536 : Nat) : Int)

/-- D register `n`, taken modulo 16. -/
def dReg (n : Nat) : Fin 16 := Fin.ofNat 16 n

/-- Accumulator `k`, taken modulo 4. -/
def RegSet.accN (r : RegSet) (k : Nat) : BitVec 40 := r.acc[Fin.ofNat 4 k]

/-- Modifier `k`, taken modulo 4. -/
def RegSet.mN (r : RegSet) (k : Nat) : BitVec 32 := r.m[Fin.ofNat 4 k]

/-- D register `n` of a set, and a set with it written. -/
def RegSet.d (r : RegSet) (n : Fin 16) : BitVec 16 := r.dr[n]
def RegSet.withD (r : RegSet) (n : Fin 16) (v : BitVec 16) : RegSet := { r with dr := r.dr.set n.val v }
/-- The same of A register `n`. -/
def RegSet.an (r : RegSet) (n : Fin 8) : BitVec 24 := r.a[n]
def RegSet.withA (r : RegSet) (n : Fin 8) (v : BitVec 24) : RegSet := { r with a := r.a.set n.val v }

/-- SR after a register move into it (R59): OVS, SAT, BSP limited to 16, CB and the flags as written; MODE stays; PRIV only
goes to 0. -/
def srMoved (old new : BitVec 16) : BitVec 16 :=
  let bsp : BitVec 5 := if 16 < (new.extractLsb' 5 5).toNat then 16 else new.extractLsb' 5 5
  (new &&& 0x0C1F) ||| (bsp.setWidth 16 <<< 5) ||| (old &&& 0x4000) ||| (old &&& new &&& 0x8000)

/-- SR with the condition bit (R60). -/
def withCb (sr : BitVec 16) (b : Bool) : BitVec 16 := (sr &&& 0xFFEF) ||| flagAt 4 b

/-- SR with the bit-stack depth. -/
def withBsp (sr : BitVec 16) (n : Nat) : BitVec 16 := (sr &&& 0xFC1F) ||| BitVec.ofNat 16 (32 * n)

/-! ## Memory as a core sees it -/

/-- No access of core `c` is outstanding, and no store of it waits in the Q shadow. -/
def Dev.quiet (d : Dev) (c : CoreId) : Bool := (d.core c).loads.isEmpty && (d.core c).sbuf.isEmpty && d.noneHeld c

/-- The word at W address `w` as core `c` finds it: a memory word, a register word as a read of it gives, or 0. -/
def Dev.seen (d : Dev) (c : CoreId) (w : Nat) : BitVec 16 :=
  match d.locate c w with
  | .mem .mram off => d.nvWord off
  | .mem a off => d.mw a off
  | .reg w => BitVec.ofNat 16 ((d.regFetch (d.rdr c) (w / 2 * 2)).1.1.toNat / 65536 ^ (w % 2))
  | .none => 0

/-- `n` of them from `w` upward. -/
def Dev.seens (d : Dev) (c : CoreId) (w : Nat) : Nat → List (BitVec 16)
  | 0 => []
  | n + 1 => d.seen c (w % 0x1000000) :: d.seens c (w + 1) n

/-- The word at W address `w` holds no error: neither it nor, for a register, an array behind it. -/
def Dev.clean (d : Dev) (c : CoreId) (w : Nat) : Bool :=
  match d.locate c w with
  | .mem a off => d.eccAt a off == .ok
  | .reg w => (tabGran w).all (fun g => d.eccAt g.1 (g.2 * 4) == .ok) && (d.regFetch (d.rdr c) (w / 2 * 2)).1.2.isEmpty
  | .none => true

/-- Core `c` reads `n` words from `w` upward with no side effect: no access rule is broken, no word holds an error, no access
of the core is outstanding, and a T4 strand reaches only what its contract allows (R143). -/
def Dev.readsPlain (d : Dev) (c : CoreId) (w n : Nat) : Bool :=
  (d.accessRule c false w n).isNone && (List.range n).all (fun i => d.clean c ((w + i) % 0x1000000)) && d.quiet c
    && (!d.t4On c || decide ((w + n - 1) % 0x1000000 < 0xC0000))

/-- The `n` words from `w` upward are own local data of core `c`, hold no error, and no access of the core is
outstanding. -/
def Dev.ownPlain (d : Dev) (c : CoreId) (w n : Nat) : Bool :=
  decide (w + n ≤ 0x20000) && (List.range n).all (fun i => d.clean c (w + i)) && d.quiet c

/-- The own local word at `w` of core `c` written. -/
def Dev.setOwn (d : Dev) (c : CoreId) (w : Nat) (v : BitVec 16) : Dev :=
  match d.ownLoc c w with
  | .mem a off => d.setMw a off v
  | _ => d

/-- `n` memory words from `w` upward that a store of core `c` may write in `k` accesses: no access rule is broken (`frame`:
each word by itself), and the store buffer has room (R91); in a T4 strand they are own local data, read without an error, and
no access is outstanding. -/
def Dev.canStore (d : Dev) (c : CoreId) (w n k : Nat) (frame : Bool := false) : Bool :=
  decide (w + n ≤ 0x1000000) && (List.range n).all (fun i => !isRegWord (w + i))
    && (if d.t4On c then d.ownPlain c w n
        else (if frame then d.spanRule c true w n else d.accessRule c true w n).isNone && decide ((d.core c).sbuf.length + k ≤ 8))

/-- A store access of core `c`: W address, mask and value of each word. It enters the store buffer (R91); that of a T4 strand
takes place in own local data at once (R140). -/
def Dev.stores (d : Dev) (c : CoreId) (ws : List (Nat × BitVec 16 × BitVec 16)) (bits : Bool := false) : Dev :=
  if d.t4On c then
    ws.foldl (fun d s => d.setOwn c s.1 ((d.seen c s.1 &&& ~~~s.2.1) ||| (s.2.2 &&& s.2.1))) d
  else
    d.updCore c (fun k =>
      { k with sbuf := k.sbuf ++ [{ seq := k.seq, set1 := k.inSet1, words := ws, bits := bits }], seq := k.seq + 1 })

/-- A frame of an even number of words from `w` upward as store accesses: pairs at an even address, else single words. -/
def frameStores (w : Nat) : List (BitVec 16) → List (List (Nat × BitVec 16 × BitVec 16))
  | a :: b :: rest =>
    (if w % 2 = 0 then [[(w, 0xFFFF, a), (w + 1, 0xFFFF, b)]] else [[(w, 0xFFFF, a)], [(w + 1, 0xFFFF, b)]])
      ++ frameStores (w + 2) rest
  | _ => []

/-- A frame of `n` words can be stored at `w`. -/
def Dev.canPush (d : Dev) (c : CoreId) (w n : Nat) : Bool := d.canStore c w n (if w % 2 = 0 then n / 2 else n) true

/-- A frame has been stored at `w`. -/
def Dev.pushes (d : Dev) (c : CoreId) (w : Nat) (ws : List (BitVec 16)) : Dev :=
  (frameStores w ws).foldl (fun d a => d.stores c a) d

/-- The low and the high word of an address. -/
def loHi (a : Nat) : List (BitVec 16) := [BitVec.ofNat 16 a, BitVec.ofNat 16 (a / 65536)]

/-- The W address and bit number that a bit operand names (R65, R67). -/
def bitAt (r : RegSet) (x : BitOpd) : Nat × Nat :=
  match x with
  | .short b off => shortBit (r.getA b.val) off
  | .long area b => longBit (areaBase (r.getA 6) area) b

/-- The bit that it names. -/
def Dev.bitSeen (d : Dev) (c : CoreId) (x : BitOpd) : Bool :=
  (d.seen c (bitAt (d.core c).act x).1).getLsbD (bitAt (d.core c).act x).2

/-- Core `c` has issued the instruction at its PC, of `len` words, whose effect then takes place. -/
def Dev.begun (d : Dev) (c : CoreId) (len : Nat) : Dev :=
  d.updCore c (fun s => s.setAct { s.act with pc := BitVec.ofNat 21 ((d.core c).act.pc.toNat + len) })

/-- The one instruction that a debug step lets issue has issued, and no rung run goes on. -/
def Dev.stepped (d : Dev) (c : CoreId) : Dev := d.updCore c (fun k => { k with stepOk := false, runAt := none })

/-- Core `c` waits at its instruction (R90). -/
def Dev.waitsAt (d : Dev) (c : CoreId) (w : Wait) : Dev :=
  d.updCore c (fun k => { k with wait := w, stepOk := false, runAt := none })

/-- The wait of core `c` is over: it goes on after the waiting instruction. -/
def Dev.resumed (d : Dev) (c : CoreId) : Dev :=
  d.updCore c (fun k => { k.setAct { k.act with pc := k.act.pc + 1 } with wait := .none })

/-- The 4-word value from `w` upward, low word first (R128). -/
def Dev.seen4 (d : Dev) (c : CoreId) (w : Nat) : Nat :=
  (d.seens c w 4).foldr (fun x n => x.toNat + 65536 * n) 0

/-- The frame of a call that returns to `ret`: plain, or with the instance base `a6` (R79). -/
def callFrame (ret : Nat) : Option Nat → List (BitVec 16)
  | none => [BitVec.ofNat 16 ret, BitVec.ofNat 16 (ret / 65536)]
  | some a6 =>
    [BitVec.ofNat 16 ret, BitVec.ofNat 16 (ret / 65536 + 0x8000), BitVec.ofNat 16 a6, BitVec.ofNat 16 (a6 / 65536)]

/-! ## How a command ends -/

/-- Command `i` ends with the device `d`; the queue and the fuses are as they were. -/
def State.ends (s : State) (i : Instr) (d : Dev) : Prop := exec i s = .next (s.on d)

/-- Command `i` changes nothing. -/
def State.ignores (s : State) (i : Instr) : Prop := exec i s = .next s

/-- Command `i` ends with a device that `P` describes; the queue and the fuses are as they were. -/
def State.endsIn (s : State) (i : Instr) (P : Dev → Prop) : Prop := ∃ t, exec i s = .next t ∧ t = s.on t.dev ∧ P t.dev

/-- The same, where nothing but register fields of the list has changed. -/
def State.endsRegs (s : State) (i : Instr) (fs : List Fld) (P : Dev → Prop) : Prop :=
  ∃ t, exec i s = .next t ∧ s.onlyRegs t fs ∧ P t.dev

/-- A requester reaches the register of field `f`, and the set-up lock does not cover it. -/
def Dev.writes (d : Dev) (r : Req) (f : Fld) : Bool := d.reaches r f.addr && d.unlocked f.addr

/-- The device after the mirror of a Mule-table write of `v` is queued, where a pair's active member mirrors (R392). -/
def Dev.told (d : Dev) (f : Fld) (v : BitVec 32) : Dev := d.noteMuleWr f.addr 0xFFFFFFFF v

/-- Bit `i` of a register as a field. -/
def Fld.bit (f : Fld) (i : Nat) : Fld := ⟨f.addr, f.lo + i, f.lo + i⟩

/-- A T4 strand of tile `t` whose contract still holds runs in set 0 (R143). -/
def Dev.contract (d : Dev) (t : Fin 16) : Bool :=
  d.flag (R.TILE_STATE_T4_ACT t.val) && !(d.core (tileCore t)).t4Broken && !(d.core (tileCore t)).inSet1

/-- The contract of tile `t` is broken by `cause` (Table 5.6). -/
def Dev.breaks (d : Dev) (t : Fin 16) (cause : Nat) : Dev :=
  ((d.updCore (tileCore t) (fun k => { k with t4Broken := true })).put (R.TILE_STATE_T4_BRK t.val) 1).put
    (R.TILE_STATE_BRK_CAUSE t.val) cause

/-! ## The scan -/

/-- Nothing else waits for the scan: no fatal check, no host command runs, no swap is due, no pair. -/
def Dev.scanAlone (d : Dev) : Bool :=
  !d.sys.held && !d.sys.fatal && d.hif.running.isEmpty && !d.hif.snapPend && !d.prog.swapWait && d.get R.PROG_STAT_STATE != 4
    && d.get R.PROG_STAT_STATE != 5 && d.get R.PAIR_STAT_ROLE == 0 && !d.pair.switch && !d.pair.hold

/-- No granule of the images, the live copy or the force table holds an error (R19). -/
def Dev.imagesClean (d : Dev) : Prop :=
  ∀ a o, (a = .forceTab ∨ a = .live ∨ ∃ h, a = .iHalf h ∨ a = .qHalf h) → d.eccAt a o = .ok

/-- No granule of array `a` holds an error. -/
def Dev.arrClean (d : Dev) (a : Arr) : Prop := ∀ o, d.eccAt a o = .ok

/-- SNAP begins (R26, R149, R153). -/
def Dev.snapBegins (d : Dev) : Dev :=
  { d.put R.SCAN_STAT_STATE 2 with scan := { d.scan with
      began := d.time, reported := 0, overrun := false, skipNow := d.scan.skipNext, skipNext := false,
      mcNow := d.scan.mcNext, mcNext := false } }

/-- The scan is in STOP, with the image as it stands (R149, R150). -/
def Dev.stopBegins (d : Dev) : Dev :=
  { d.put R.SCAN_STAT_STATE 0 with scan := { d.scan with stopPend := false, resetSince := false } }

/-- GAP begins (R162). -/
def Dev.gapBegins (d : Dev) : Dev :=
  { d.put R.SCAN_STAT_STATE 6 with scan := { d.scan with gapBegan := d.time } }

/-- Word `o` of an image with value `w` after the forces `fs` in order: offset, mask, value (R172). -/
def forced (fs : List (Nat × BitVec 16 × BitVec 16)) (o : Nat) (w : BitVec 16) : BitVec 16 :=
  fs.foldl (fun w f => if f.1 = o then (w &&& ~~~f.2.1) ||| (f.2.2 &&& f.2.1) else w) w

/-- Granule `g` of the Q shadow is dirty (R151, R157). -/
def Dev.isDirty (d : Dev) (g : Nat) : Bool := d.scan.dirtyAll || d.scan.dirty.contains g

/-- A strand starts on a core at time `now` (R116, R118, R138): `en` and `pc` of ENTRY, SP of STK, T4 mode. In T4 mode it
waits for a preload where the locked range is not loaded, or T4 mode was set again. -/
def CoreSt.strandBegins (k : CoreSt) (en : Bool) (pc sp : Nat) (t4 : Bool) (now : BitVec 64) : CoreSt :=
  let load := en && t4 && (!k.t4Loaded || k.t4New)
  { k with
    s0 := { k.s0.withA 7 (BitVec.ofNat 24 (sp + 0x1000000 - 2)) with
              sr := 0, bstk := 0, pc := BitVec.ofNat 21 pc, opstk := [] }
    run0 := if en then .active else .idle
    strandSince := k.inSet1
    wait := if k.inSet1 then k.wait else .none
    t4Broken := false
    t4Preload := load
    t4Base := if load then BitVec.ofNat 21 (pc / 32 * 32) else k.t4Base
    t4Loaded := en && t4 && k.t4Loaded && !k.t4New
    t4New := k.t4New && !(en && t4)
    t4Fence := now
    runAt := none }

/-- `old` with the bits under `mask` taken from `new`. -/
def laid (mask old new : BitVec 32) : BitVec 32 := (old &&& ~~~mask) ||| (new &&& mask)

/-- The register of field `f` with its bits under `mask` written. -/
def Dev.lay (d : Dev) (f : Fld) (mask v : BitVec 32) : Dev := d.wrReg f.addr (laid mask (d.rd f.addr) v)

/-- Axis `n` is mapped to a ring in RUN (R212). -/
def Dev.sampled (d : Dev) (n : Nat) : Bool := d.flag (R.AXIS_MAP_EN n) && d.get (R.RING_STAT_STATE (d.get (R.AXIS_MAP_RING n))) == 5

/-- Axis `n` has no sample clock: neither its MAP nor its MAP as the Mule took it maps it to a ring in RUN (R205, R212). -/
def Dev.resting (d : Dev) (n : Nat) : Bool := !d.sampled n && !d.axHeld n

/-- No enabled gantry couple names axis `n` (R219). -/
def Dev.uncoupled (d : Dev) (n : Nat) : Bool :=
  (List.range 16).all (fun g => !d.flag (R.GANTRY_CTRL_EN g) || (d.get (R.GANTRY_CTRL_L g) != n && d.get (R.GANTRY_CTRL_F g) != n))

/-! ## The host -/

/-- The host's doorbell writes pass: not held in reset, not in D3hot, not in the Dead state, and region 3 may be written
(R47, R511). -/
def Dev.bellRight (d : Dev) : Bool := !d.sys.held && !d.d3hot && !d.flag R.BOOT_STAT_DEAD && d.hostMay 3 true

/-- The completion of command queue `q` as written to host memory at TAIL of its completion queue (Table 14.4): `head`, the
command-queue head after the command. -/
def Dev.cplEntry (d : Dev) (q cid status head result : Nat) : Out :=
  let p := d.get (R.CMDQ_CFG_CPLQ q)
  .hostWrite (d.get (R.CPLQ_BASE_LO p) + 2 ^ 32 * d.get (R.CPLQ_BASE_HI p) + 16 * d.get (R.CPLQ_STAT_TAIL p))
    [BitVec.ofNat 16 cid, BitVec.ofNat 16 (256 * d.get (R.CPLQ_STAT_P p) + q), BitVec.ofNat 16 status, BitVec.ofNat 16 head,
      BitVec.ofNat 16 result, BitVec.ofNat 16 (result / 65536), d.time.extractLsb' 0 16, d.time.extractLsb' 16 16]

/-- HEAD of command queue `q` after one more command. -/
def Dev.nextHead (d : Dev) (q : Nat) : Nat := (d.get (R.CMDQ_STAT_HEAD q) + 1) % 2 ^ d.get (R.CMDQ_CFG_SZ q)

/-- No command runs, and the turn of the round-robin stands at queue `q`, whose first fetched command is `c` (R341). -/
def Dev.turnOf (d : Dev) (q : Fin 16) (c : HostCmd) (rest : List HostCmd) : Prop :=
  let place (x : Fin 16) : Nat := (x.val + 15 + 16 - d.hif.rr % 16) % 16
  d.hif.running = [] ∧ d.hostReady q.val = true ∧ d.fetchedOf q.val = c :: rest
    ∧ ∀ x : Fin 16, x ≠ q → d.hostReady x.val = true → place q < place x

/-- The command has left the queue. -/
def Dev.took (d : Dev) (q : Nat) (rest : List HostCmd) : Dev := (d.setFetched q rest).updHif (fun h => { h with rr := q })

/-- Event source `n` has its flag set. -/
def Dev.raised (d : Dev) (n : Nat) : Prop := d.flag ((R.EV_RAISED (n / 32)).bit (n % 32)) = true

/-- A function level reset, a hot reset or a loss of the link has taken place (R364). -/
def Dev.linkWasReset (d u : Dev) : Prop :=
  (∀ p : Fin 512, u.get (pageFlagFld p.val) = if d.get (pageFlagFld p.val) = 2 then 2 else 0)
    ∧ (∀ q : Fin 16, u.get (R.CMDQ_STAT_HEAD q.val) = 0 ∧ u.get (R.CPLQ_STAT_TAIL q.val) = 0 ∧ u.get (R.CPLQ_STAT_P q.val) = 1
        ∧ u.get (R.CMDQ_STAT_EN q.val) = d.get (R.CMDQ_STAT_EN q.val) ∧ u.get (R.CPLQ_STAT_EN q.val) = d.get (R.CPLQ_STAT_EN q.val)
        ∧ u.rd (R.CMDQ_CFG q.val).addr = d.rd (R.CMDQ_CFG q.val).addr ∧ u.fetchedOf q.val = [] ∧ natAt u.hif.tailDb q.val = 0)
    ∧ u.hif.running = [] ∧ u.hif.msixEn = false ∧ u.raised 114 ∧ u.mem = d.mem ∧ u.cores.toList.map (·.s0) = d.cores.toList.map (·.s0)

end Sys2Proof.Machine
end

