-- ==== Sys2Proof/Certificates/Slice0/Obligations.lean ====
section
/-! DEFINITION. The statements for the provers, from the numbered rules of spec/. -/

open Sys2Proof Sys2Proof.Machine

/-! ## Instructions: arithmetic -/

/-- R98, Table 4.3: every operation of group 0x7 writes its result to Dd (CMP writes none), sets N, Z, C and V as the
operation says, moves PC past itself, and changes nothing else. The word 0x7035 is ADD D3, D5 (R75).

R99, R113: MOVQ, ADDQ, CMPQ, MOVQ.A, LDI, LDI.A and ALUI. ALUI with a reserved code (NOT, NEG) has no effect of its own:
it takes the emulation trap. -/
def Obligations.IntegerArithmetic : Prop :=
  (∀ (s : State) (d : Dev) (c : CoreId) (dd ds : Fin 16), s.dev.issues c (some false) 1 d → d.regsFree c = true →
      let x := (d.core c).act.d dd
      let y := (d.core c).act.d ds
      let ends (i : Instr) (op : AluOp) (a : BitVec 16) : Prop :=
        exec i s = .next (s.on (d.retire c 1 (aluInto op dd a y)))
      ends (.add c dd ds) .add x ∧ ends (.adc c dd ds) .adc x ∧ ends (.sub c dd ds) .sub x ∧ ends (.sbc c dd ds) .sbc x
        ∧ ends (.cmp c dd ds) .cmp x ∧ ends (.and c dd ds) .and x ∧ ends (.or c dd ds) .or x
        ∧ ends (.xor c dd ds) .xor x ∧ ends (.not c dd ds) .not y ∧ ends (.neg c dd ds) .neg y
        ∧ ends (.lsl c dd ds) .lsl x ∧ ends (.lsr c dd ds) .lsr x ∧ ends (.asr c dd ds) .asr x
        ∧ ends (.ror c dd ds) .ror x ∧ ends (.adds c dd ds) .adds x ∧ ends (.subs c dd ds) .subs x
        ∧ isaDecode c false 0x7035 0 = .add c 3 5)
  ∧ (∀ (s : State) (d : Dev) (c : CoreId) (n : Fin 16) (an : Fin 8) (q u : BitVec 6) (v : BitVec 16) (w : BitVec 24) (op : AluOp),
      d.regsFree c = true →
      let x := (d.core c).act.d n
      let ends (i : Instr) (len : Nat) (f : RegSet → RegSet) : Prop :=
        exec i s = .next (s.on (d.retire c len f))
      (s.dev.issues c (some false) 1 d →
        ends (.movq c n q) 1 (fun r => { r.withD n (q.signExtend 16) with
            sr := withFlags r.sr q.msb (decide (q = 0)) false none })
        ∧ ends (.addq c n q) 1 (aluInto .add n x (q.signExtend 16))
        ∧ ends (.cmpq c n q) 1 (aluInto .cmp n x (q.signExtend 16))
        ∧ ends (.movqA c an u) 1 (fun r => r.withA an (u.setWidth 24)))
      ∧ (s.dev.issues c (some false) 2 d →
        ends (.ldi c n v) 2 (fun r => r.withD n v)
        ∧ ends (.ldiA c an w) 2 (fun r => r.withA an w)
        ∧ (op ≠ .not → op ≠ .neg → ends (.alui c n op v) 2 (aluInto op n x v))
        ∧ (op = .not ∨ op = .neg → exec (.alui c n op v) s = exec (.reservedEncoding c) (s.on d)))
      ∧ isaDecode c false 0x607F 0 = .movq c 1 0x3F ∧ isaDecode c false 0xF020 0x1234 = .ldi c 2 0x1234
      ∧ isaDecode c false 0xF128 0 = .reservedEncoding c)

/-- R100, R57: the multiply-accumulate and accumulator operations: the new accumulator, the sticky bits OVS and SAT, and
nothing else. -/
def Obligations.AccumulatorResults : Prop :=
  ∀ (s : State) (d : Dev) (c : CoreId) (k : Fin 4) (dx dy : Fin 16) (o : BitVec 4),
    s.dev.issues c (some false) 1 d → d.regsFree c = true →
    let r := (d.core c).act
    let a : Int := (r.acc[k]).toInt
    let b : Int := (r.accN o.toNat).toInt
    let p : Int := (r.d dx).toInt * (r.d dy).toInt
    let ends (i : Instr) (f : RegSet → RegSet) : Prop := exec i s = .next (s.on (d.retire c 1 f))
    ends (.mac c k dx dy) (accLimited k (a + p)) ∧ ends (.msu c k dx dy) (accLimited k (a - p))
      ∧ ends (.mpy c k dx dy) (accTakes k p false false) ∧ ends (.accClr c k) (accTakes k 0 false false)
      ∧ ends (.addacc c k o) (accLimited k (a + b)) ∧ ends (.subacc c k o) (accLimited k (a - b))
      ∧ ends (.negacc c k) (accLimited k (-a))
      ∧ ends (.asl c k o) (accLimited k (a * (2 ^ (o.toNat + 1) : Nat)))
      ∧ ends (.accAsr c k o) (accTakes k (a / (2 ^ (o.toNat + 1) : Nat)) false false)
      ∧ ends (.rnd c k)
          (accTakes k (min 0x7FFFFF0000 (roundHalfAway a)) (decide (0x7FFFFF0000 < roundHalfAway a)) false)
      ∧ ends (.sat32 c k)
          (accTakes k (max (-2147483648) (min 2147483647 a)) false (decide (a < -2147483648 ∨ 2147483647 < a)))
      ∧ isaDecode c false 0x8123 0 = .mac c 1 2 3 ∧ isaDecode c false 0x8C00 0 = .accClr c 0

/-- R96, Table 3.9: a register move copies its source to its destination. A move into SR follows R59; a write to one part of an
accumulator leaves the other parts; every other combination of operands takes the emulation trap.

R77, R101, R55: ADDA and SUBA compute modulo 2^24, MSET and MGET move a modifier, and an odd register number traps to
the emulation vector. -/
def Obligations.RegisterMovesAndAddresses : Prop :=
  (∀ (s : State) (d : Dev) (c : CoreId) (n m : Fin 16) (x y : Fin 8) (k : Fin 4) (part : Fin 3),
      s.dev.issues c (some false) 1 d → d.regsFree c = true →
      let r := (d.core c).act
      let ends (dst src : MoveOpd) (f : RegSet → RegSet) : Prop :=
        exec (.move c dst src) s = .next (s.on (d.retire c 1 f))
      ends (.d n) (.d m) (fun q => q.withD n (r.d m))
        ∧ ends (.d n) (.a x) (fun q => q.withD n ((r.an x).setWidth 16))
        ∧ ends (.d n) (.acc k 0) (fun q => q.withD n ((r.acc[k]).extractLsb' 0 16))
        ∧ ends (.d n) (.acc k 1) (fun q => q.withD n ((r.acc[k]).extractLsb' 16 16))
        ∧ ends (.d n) (.acc k 2) (fun q => q.withD n (((r.acc[k]).extractLsb' 32 8).signExtend 16))
        ∧ ends (.d n) .sr (fun q => q.withD n r.sr) ∧ ends (.d n) .bstk (fun q => q.withD n r.bstk)
        ∧ ends (.a x) (.d m) (fun q => q.withA x ((r.d m).setWidth 24))
        ∧ ends (.a x) (.a y) (fun q => q.withA x (r.an y))
        ∧ ends (.acc k 0) (.d m) (fun q =>
            { q with acc := q.acc.set k.val ((q.acc[k]).extractLsb' 16 24 ++ r.d m) })
        ∧ ends (.acc k 1) (.d m) (fun q =>
            { q with acc := q.acc.set k.val ((q.acc[k]).extractLsb' 32 8 ++ r.d m ++ (q.acc[k]).extractLsb' 0 16) })
        ∧ ends (.acc k 2) (.d m) (fun q =>
            { q with acc := q.acc.set k.val ((r.d m).extractLsb' 0 8 ++ (q.acc[k]).extractLsb' 0 32) })
        ∧ ends .sr (.d m) (fun q => { q with sr := srMoved r.sr (r.d m) })
        ∧ ends .bstk (.d m) (fun q => { q with bstk := r.d m })
        ∧ exec (.move c (.a x) (.acc k part)) s = exec (.reservedEncoding c) s
        ∧ exec (.move c (.acc k part) (.a x)) s = exec (.reservedEncoding c) s
        ∧ exec (.move c .sr (.a x)) s = exec (.reservedEncoding c) s
        ∧ isaDecode c false 0x4516 0 = .move c (.a 1) (.a 6))
  ∧ (∀ (s : State) (d : Dev) (c : CoreId) (an am : Fin 8) (u : BitVec 6) (n : Fin 16) (k : Fin 4),
      s.dev.issues c (some false) 1 d → d.regsFree c = true →
      let r := (d.core c).act
      let ends (i : Instr) (f : RegSet → RegSet) : Prop := exec i s = .next (s.on (d.retire c 1 f))
      ends (.addaImm c an u) (fun q => q.withA an (r.an an + u.setWidth 24))
        ∧ ends (.suba c an u) (fun q => q.withA an (r.an an - u.setWidth 24))
        ∧ ends (.addaD c an n) (fun q => q.withA an (r.an an + ((r.d n).extractLsb' 0 4).signExtend 24))
        ∧ ends (.addaA c an am) (fun q => q.withA an (r.an an + r.an am))
        ∧ (n.val % 2 = 0 →
            ends (.mset c k n) (fun q => { q with m := q.m.set k.val (r.d (dReg (n.val + 1)) ++ r.d n) })
            ∧ ends (.mget c k n) (fun q =>
                (q.withD n ((r.m[k]).extractLsb' 0 16)).withD (dReg (n.val + 1)) ((r.m[k]).extractLsb' 16 16)))
        ∧ (n.val % 2 = 1 →
            exec (.mset c k n) s = exec (.reservedEncoding c) s ∧ exec (.mget c k n) s = exec (.reservedEncoding c) s)
        ∧ isaDecode c false 0x9048 0 = .addaImm c 1 8 ∧ isaDecode c false 0x9842 0 = .mset c 1 2)

/-! ## Instructions: bits -/

/-- R92, R65, R67: the bit loads and the bit operations on CB read the addressed bit and change CB alone.

R95, R60: the bit stack and the condition bit. CPUSH with 16 bits held, and CPAND, CPOR and CPXOR with none, take the
emulation trap. -/
def Obligations.ConditionBitInstructions : Prop :=
  (∀ (s : State) (d : Dev) (c : CoreId) (x : BitOpd),
      s.dev.issues c (some false) (bitLen x) d →
      d.readsPlain c (bitAt (d.core c).act x).1 1 = true →
      let b := d.bitSeen c x
      let ends (i : Instr) (f : Bool → Bool) : Prop :=
        exec i s = .next (s.on (d.retireBit c (bitLen x) (fun r => { r with sr := withCb r.sr (f (r.sr.getLsbD 4)) })))
      ends (.ldb c x) (fun _ => b) ∧ ends (.ldbn c x) (fun _ => !b)
        ∧ ends (.andb c x) (fun a => a && b) ∧ ends (.andbn c x) (fun a => a && !b)
        ∧ ends (.orb c x) (fun a => a || b) ∧ ends (.orbn c x) (fun a => a || !b)
        ∧ ends (.xorb c x) (fun a => a ^^ b) ∧ ends (.xorbn c x) (fun a => a ^^ !b)
        ∧ isaDecode c false 0x1125 0 = .ldb c (.short 1 37) ∧ isaDecode c false 0x15FD 0 = .andb c (.short 1 0xFD) ∧ isaDecode c false 0x3810 0x1234 = .ldb c (.long .mark 0x1234))
  ∧ (∀ (s : State) (d : Dev) (c : CoreId) (n : Fin 8) (b : Fin 16),
      s.dev.issues c (some false) 1 d → d.regsFree c = true →
      let r := (d.core c).act
      let bsp := (r.sr.extractLsb' 5 5).toNat
      let cb := r.sr.getLsbD 4
      let top := r.bstk.getLsbD (bsp - 1)
      let dn : Fin 16 := dReg n.val
      let put (x : Bool) (j : Nat) (v : BitVec 16) : BitVec 16 := if x then v ||| BitVec.twoPow 16 j else v &&& ~~~(BitVec.twoPow 16 j)
      let ends (i : Instr) (f : RegSet → RegSet) : Prop := exec i s = .next (s.on (d.retireBit c 1 f))
      let moves (i : Instr) (f : RegSet → RegSet) : Prop := exec i s = .next (s.on (d.retire c 1 f))
      let pops (x : Bool) : RegSet → RegSet := fun q => { q with sr := withCb (withBsp q.sr (bsp - 1)) x }
      (bsp < 16 → ends (.cpush c) (fun q => { q with bstk := put cb bsp q.bstk, sr := withBsp q.sr (bsp + 1) }))
        ∧ (bsp = 16 → exec (.cpush c) s = exec (.reservedEncoding c) s)
        ∧ (0 < bsp → bsp ≤ 16 → ends (.cpand c) (pops (top && cb)) ∧ ends (.cpor c) (pops (top || cb))
            ∧ ends (.cpxor c) (pops (top ^^ cb)))
        ∧ (bsp = 0 → exec (.cpand c) s = exec (.reservedEncoding c) s ∧ exec (.cpor c) s = exec (.reservedEncoding c) s
            ∧ exec (.cpxor c) s = exec (.reservedEncoding c) s)
        ∧ ends (.cnot c) (fun q => { q with sr := withCb q.sr (!cb) })
        ∧ ends (.cset c) (fun q => { q with sr := withCb q.sr true })
        ∧ ends (.cclr c) (fun q => { q with sr := withCb q.sr false })
        ∧ moves (.movb c true n b) (fun q => { q with sr := withCb q.sr ((q.d dn).getLsbD b.val) })
        ∧ moves (.movb c false n b) (fun q => q.withD dn (put cb b.val (q.d dn)))
        ∧ isaDecode c false 0x3000 0 = .cpush c ∧ isaDecode c false 0x37A3 0 = .movb c true 2 3)

/-- R93, R94, R91: a bit write to memory is one masked store of exactly the addressed bit, EDGR and EDGF of the two bits of
their edge cell; in a T4 strand it takes place in own local data at once. SETB and CLRB with CB 0 store nothing.

R91, R93, R541: outside T4 mode a bit write to a shared memory or to a register word enters the store buffer as a masked
store of that bit, behind the earlier stores of the core, and every memory and register is as it was. -/
def Obligations.BitWrites : Prop :=
  (∀ (s : State) (d : Dev) (c : CoreId) (x : BitOpd),
      let w := (bitAt (d.core c).act x).1
      let i := (bitAt (d.core c).act x).2
      let cb := (d.core c).act.sr.getLsbD 4
      let m := BitVec.twoPow 16 i
      s.dev.issues c (some false) (bitLen x) d →
      let ends (ins : Instr) (cb' : Bool) (mask v : BitVec 16) : Prop :=
        exec ins s = .next (s.on ((d.retireBit c (bitLen x) (fun r => { r with sr := withCb r.sr cb' })).stores c [(w, mask, v)] true))
      (d.canStore c w 1 1 = true →
          ends (.stb c x) cb m (if cb then m else 0) ∧ ends (.stbn c x) cb m (if cb then 0 else m)
          ∧ (cb = true → ends (.setb c x) cb m m ∧ ends (.clrb c x) cb m 0)
          ∧ (i % 2 = 0 → d.readsPlain c w 1 = true →
            let cell := d.seen c w
            let prev := cell.getLsbD i
            let primed := cell.getLsbD (i + 1)
            let m2 := BitVec.twoPow 16 (i + 1)
            ends (.edgr c x) (primed && !prev && cb) (m ||| m2) ((if cb then m else 0) ||| m2)
            ∧ ends (.edgf c x) (primed && prev && !cb) (m ||| m2) ((if cb then m else 0) ||| m2)))
        ∧ (cb = false → d.accessRule c true w 1 = none →
            exec (.setb c x) s = .next (s.on (d.retireBit c (bitLen x) id))
            ∧ exec (.clrb c x) s = .next (s.on (d.retireBit c (bitLen x) id)))
        ∧ isaDecode c false 0x2200 0 = .stb c (.short 2 0) ∧ isaDecode c false 0x3E20 0x0126 = .edgr c (.long .inst 0x0126)
        ∧ (i % 2 = 1 →
            exec (.edgr c x) s = exec (.reservedEncoding c) (s.on d) ∧ exec (.edgf c x) s = exec (.reservedEncoding c) (s.on d)))
  ∧ (∀ (s : State) (d : Dev) (c : CoreId) (x : BitOpd),
      let w := (bitAt (d.core c).act x).1
      let m := BitVec.twoPow 16 (bitAt (d.core c).act x).2
      let cb := (d.core c).act.sr.getLsbD 4
      s.dev.issues c (some false) (bitLen x) d → d.t4On c = false → d.accessRule c true w 1 = none →
      0x20000 ≤ w → (d.core c).sbuf.length < 8 →
      let ends (ins : Instr) (v : BitVec 16) : Prop :=
        exec ins s = .next (s.on ((d.retireBit c (bitLen x) id).updCore c (fun k =>
          { k with sbuf := k.sbuf ++ [{ seq := k.seq, set1 := k.inSet1, words := [(w, m, v)], bits := true }], seq := k.seq + 1 })))
      ends (.stb c x) (if cb then m else 0) ∧ ends (.stbn c x) (if cb then 0 else m)
        ∧ (cb = true → ends (.setb c x) m ∧ ends (.clrb c x) 0))

/-! ## Instructions: waiting, fences, events -/

/-- R63, R105, R106, R107, R108, R90: NOP has no effect; WFE, WUNT, SEVF and the fences go on when what they wait for holds,
and else wait at their own address. SEV raises its event.

R105, R106, R107, R108, R136: a waiting core goes on when its wake latch is set, its time has come, or the accesses it waits
for are complete and its stores visible; else, and once a fatal machine check has stopped it, nothing happens. -/
def Obligations.WaitsFencesAndTheirEnds : Prop :=
  (∀ (s : State) (d : Dev) (c : CoreId) (n : Fin 8) (an : Fin 8),
      s.dev.issues c none 1 d → d.t4On c = false →
      let k := d.core c
      let seen : Bool := k.sbuf.isEmpty && d.noneHeld c
      let atFence (e : Dev) : Dev := e.updCore c (fun q => if q.inSet1 then q else { q with t4Fence := d.time })
      let goes (i : Instr) : Prop := exec i s = .next (s.on (d.retire c 1 id))
      let waits (i : Instr) (w : Wait) : Prop := exec i s = .next (s.on (d.waitsAt c w))
      let v := d.seen4 c (k.act.getA an.val)
      goes (.nop c) ∧ isaDecode c false 0 0 = .nop c ∧ isaDecode c false 0x0503 0 = .fenceAll c
        ∧ (k.wake = true → exec (.wfe c) s = .next (s.on ((d.retire c 1 id).updCore c (fun q => { q with wake := false }))))
        ∧ (k.wake = false → waits (.wfe c) .wfe)
        ∧ exec (.sev c n) s = .next (s.on (((d.begun c 1).raise (120 + n.val)).stepped c))
        ∧ (k.loads = [] → goes (.fenceR c)) ∧ (k.loads ≠ [] → waits (.fenceR c) (.fence true false))
        ∧ (seen = true → goes (.fenceW c)) ∧ (seen = false → waits (.fenceW c) (.fence false true))
        ∧ (k.loads = [] → seen = true → exec (.fenceAll c) s = .next (s.on (atFence (d.retire c 1 id)))
            ∧ exec (.sevf c n) s = .next (s.on (((d.begun c 1).raise (120 + n.val)).stepped c)))
        ∧ (k.loads ≠ [] ∨ seen = false →
            exec (.fenceAll c) s = .next (s.on (atFence (d.waitsAt c (.fence true true)))) ∧ waits (.sevf c n) (.sevf n.val))
        ∧ (d.readsPlain c (k.act.getA an.val) 4 = true →
            (v ≤ d.time.toNat → goes (.wunt c an))
            ∧ (d.time.toNat < v → waits (.wunt c an) (.wunt (BitVec.ofNat 64 v)))))
  ∧ (∀ (s : State) (c : CoreId), s.dev.sys.held = false → s.dev.t4On c = false →
      let d := s.dev
      let k := d.core c
      let seen : Bool := k.sbuf.isEmpty && d.noneHeld c
      let stays (i : Instr) : Prop := exec i s = .next s
      (d.alive c = true →
        (k.wait = .wfe → k.wake = true → exec (.wfeWake c) s = .next (s.on ((d.resumed c).updCore c (fun q => { q with wake := false }))))
        ∧ (k.wait ≠ .wfe ∨ k.wake = false → stays (.wfeWake c))
        ∧ (∀ t, k.wait = .wunt t → t.toNat ≤ d.time.toNat → exec (.wuntDone c) s = .next (s.on (d.resumed c)))
        ∧ (∀ t, k.wait = .wunt t → d.time.toNat < t.toNat → stays (.wuntDone c))
        ∧ (∀ r w, k.wait = .fence r w → (r = true → k.loads = []) → (w = true → seen = true) →
            exec (.fenceDone c) s = .next (s.on (d.resumed c)))
        ∧ (∀ n, k.wait = .sevf n → k.loads = [] → seen = true →
            exec (.fenceDone c) s = .next (s.on ((d.resumed c).raise (120 + n))))
        ∧ (∀ r w, k.wait = .fence r w → (r = true ∧ k.loads ≠ []) ∨ (w = true ∧ seen = false) → stays (.fenceDone c)))
      ∧ (d.alive c = false → stays (.wfeWake c) ∧ stays (.wuntDone c) ∧ stays (.fenceDone c)))

/-! ## Instructions: control flow -/

/-- R102, R103, R79, Table 3.14: jumps, branches and calls. A call pushes its frame below A7 (here in memory); a target
in An at or above 0x20_0000 takes the access trap of kind fetch.

R79, R117, R118: RET pops the frame that its high word marks; at STK.SP − 2 in set 0 of a tile it ends the strand: A7 takes
STK.SP, set 0 is idle, and the tile has reported scan end. -/
def Obligations.JumpsCallsAndReturns : Prop :=
  (∀ (s : State) (d : Dev) (c : CoreId) (an : Fin 8) (d8 : BitVec 8) (t : BitVec 21) (k : Cond),
      let r := (d.core c).act
      let next (len : Nat) : BitVec 21 := r.pc + BitVec.ofNat 21 len
      let jumps (i : Instr) (len : Nat) (p : BitVec 21) : Prop :=
        exec i s = .next (s.on (d.retire c len (fun q => { q with pc := p })))
      let base (n : Nat) : Nat := r.getA 7 - n
      let calls (i : Instr) (len : Nat) (p : BitVec 21) (a6 : Option (BitVec 24)) (n : Nat) : Prop :=
        n ≤ r.getA 7 → d.canPush c (base n) n = true →
          exec i s = .next (s.on ((d.retire c len (fun q => { (match a6 with | none => q | some v => q.withA 6 v).withA 7 (BitVec.ofNat 24 (base n)) with pc := p })).pushes c
              (base n) (callFrame (next len).toNat (a6.map (fun _ => r.getA 6)))))
      (s.dev.issues c none 1 d → r.getA an.val < 0x200000 →
          jumps (.jmpAn c an) 1 ((r.an an).setWidth 21) ∧ calls (.callAn c an) 1 ((r.an an).setWidth 21) none 2)
        ∧ (s.dev.issues c none 1 d → 0x200000 ≤ r.getA an.val →
          let trapped : State := (s.on ((d.takeAcc c 8 (r.getA an.val) false).stepped c))
          exec (.jmpAn c an) s = .next trapped ∧ exec (.callAn c an) s = .next trapped)
        ∧ (s.dev.issues c (some false) 1 d →
            (condHolds r.sr k = true → jumps (.branch c k (.short d8)) 1 (next 1 + d8.signExtend 21))
            ∧ (condHolds r.sr k = false → jumps (.branch c k (.short d8)) 1 (next 1))
            ∧ calls (.call c (.short d8)) 1 (next 1 + d8.signExtend 21) none 2
            ∧ calls (.calli c (.short d8)) 1 (next 1 + d8.signExtend 21) (some (r.an 5)) 4)
        ∧ (s.dev.issues c (some false) 2 d →
            (condHolds r.sr k = true → jumps (.branch c k (.long t)) 2 t)
            ∧ (condHolds r.sr k = false → jumps (.branch c k (.long t)) 2 (next 2))
            ∧ calls (.call c (.long t)) 2 t none 2
            ∧ calls (.calli c (.long an t)) 2 t (some (r.an an)) 4)
        ∧ isaDecode c false 0xA1F0 0 = .branch c .eq (.short 0xF0) ∧ isaDecode c false 0xBE05 0x4321 = .call c (.long 0x54321))
  ∧ (∀ (s : State) (d : Dev) (c : CoreId), s.dev.issues c none 1 d →
      let r := (d.core c).act
      let a7 := r.getA 7
      let lo := d.seen c a7
      let hi := d.seen c (a7 + 1)
      let target : BitVec 21 := hi.extractLsb' 0 5 ++ lo
      (d.strandEndHere c = false → d.ownPlain c a7 2 = true → hi.getLsbD 15 = false →
          exec (.ret c) s = .next (s.on (d.retire c 1 (fun q => { q.withA 7 (q.an 7 + 2) with pc := target }))))
        ∧ (d.strandEndHere c = false → d.ownPlain c a7 4 = true → hi.getLsbD 15 = true →
          exec (.ret c) s = .next (s.on (d.retire c 1 (fun q =>
              { (q.withA 6 ((d.seen c (a7 + 3)).extractLsb' 0 8 ++ d.seen c (a7 + 2))).withA 7 (q.an 7 + 4) with
                  pc := target }))))
        ∧ (∀ t : Fin 16, c = tileCore t → (d.core c).inSet1 = false →
          a7 = (d.get (R.TILE_STK_SP t.val) + 0xFFFFFE) % 0x1000000 →
          ∃ u, exec (.ret c) s = .next u
            ∧ u = s.on { d with regs := u.dev.regs, cores := u.dev.cores, scan := u.dev.scan }
            ∧ (u.dev.core c).run0 = .idle ∧ (u.dev.core c).s0.getA 7 = d.get (R.TILE_STK_SP t.val)
            ∧ u.dev.scan.reported.testBit t.val = true ∧ u.dev.mem = d.mem
            ∧ (∀ e, e ≠ c → u.dev.core e = d.core e) ∧ d.onlyFields u.dev [R.TILE_STATE_T4_ACT t.val]))

/-- R82, R109, R61, Table 3.16: TRAP and a reserved encoding push the 6-word frame below A7 (here in memory), clear
MODE, and continue at the emulation vector; PRIV stays as it is. On a tile with no emulation vector they stop the tile
(R84).

R110, R64, R87: MODE 1 enters stack mode with nothing on the tile's operand stack, in FACTORY or with PRIV 1, and else
traps; MODE 0 leaves it, here with nothing to spill. -/
def Obligations.TrapsAndModeChanges : Prop :=
  (∀ (s : State) (d : Dev) (c : CoreId) (u : BitVec 8) (vec : Nat),
      s.dev.issues c none 1 d → d.t4On c = false →
      let r := (d.core c).act
      let frame (kind word : Nat) : List (BitVec 16) :=
        [BitVec.ofNat 16 kind, BitVec.ofNat 16 word, BitVec.ofNat 16 (d.pWord c (r.pc.toNat + 1)),
          BitVec.ofNat 16 r.pc.toNat, BitVec.ofNat 16 (r.pc.toNat / 65536), r.sr]
      let traps (i : Instr) (kind word : Nat) : Prop :=
        exec i s = .next (s.on (((d.updCore c (fun k =>
            { k.setAct { (k.act.withA 7 (BitVec.ofNat 24 (r.getA 7 - 6))) with
                sr := k.act.sr &&& 0xBFFF, pc := BitVec.ofNat 21 vec } with stepOk := false, runAt := none })).pushes c (r.getA 7 - 6)
            (frame kind word))))
      (d.emuVec c = some vec → r.sr.getLsbD 14 = false ∨ r.opstk = [] → 6 ≤ r.getA 7 → d.canPush c (r.getA 7 - 6) 6 = true →
          traps (.trap c u) 3 (0x0800 + u.toNat) ∧ traps (.reservedEncoding c) 2 (d.pWord c r.pc.toNat))
        ∧ (d.emuVec c = none →
          let stopped : State := (s.on ((d.stopCore c).stepped c))
          exec (.trap c u) s = .next stopped ∧ exec (.reservedEncoding c) s = .next stopped)
        ∧ isaDecode c false 0x0812 0 = .trap c 0x12 ∧ isaDecode c false 0xD142 0 = .reservedEncoding c
        ∧ isaDecode c true 0xD142 0 = .reservedEncoding c)
  ∧ (∀ (s : State) (d : Dev) (c : CoreId), s.dev.issues c none 1 d →
      let r := (d.core c).act
      let may := r.sr.getLsbD 15 = true ∨ d.get R.LC_STAT_STATE = 0
      (may → r.sr.getLsbD 14 = false →
          exec (.mode c true) s = .next (s.on (d.retire c 1 (fun q => { q with sr := q.sr ||| 0x4000, opstk := [] }))))
        ∧ (may → r.sr.getLsbD 14 = true → exec (.mode c true) s = .next (s.on (d.retire c 1 id)))
        ∧ (¬ may → exec (.mode c true) s = exec (.reservedEncoding c) s)
        ∧ (r.opstk = [] ∨ r.sr.getLsbD 14 = false →
          exec (.mode c false) s = .next (s.on (d.retire c 1 (fun q => { q with sr := q.sr &&& 0xBFFF }))))
        ∧ isaDecode c false 0x0901 0 = .mode c true ∧ isaDecode c true 0x0900 0 = .mode c false)

/-- R104, R83, R126, R123: RETI over an emulation, TRAP or access frame restores PC and SR, with PRIV the AND of the saved and
the current bit; over an event frame it returns from set 1 to set 0. Another kind, and an event frame in set 0, trap. -/
def Obligations.ReturnsFromTrapsAndEvents : Prop :=
  ∀ (s : State) (d : Dev) (c : CoreId), s.dev.issues c none 1 d →
    let r := (d.core c).act
    let a7 := r.getA 7
    let w (i : Nat) : BitVec 16 := d.seen c (a7 + i)
    let sr' (cur saved : BitVec 16) : BitVec 16 := srMoved (cur &&& 0xBFFF ||| saved &&& 0x4000) saved
    (∀ n : Nat, (w 0 = 1 ∧ n = 8) ∨ ((w 0 = 2 ∨ w 0 = 3) ∧ n = 6) → d.ownPlain c a7 n = true →
        exec (.reti c) s = .next (s.on (d.retire c 1 (fun q =>
          { q.withA 7 (q.an 7 + BitVec.ofNat 24 n) with
              pc := (w 4).extractLsb' 0 5 ++ w 3, sr := sr' q.sr (w 5) }))))
      ∧ (d.ownPlain c a7 8 = true → w 0 = 4 → (d.core c).inSet1 = true → d.sys.fatal = false →
        d.prog.swapWait = false →
        let k := d.core c
        ∃ u, exec (.reti c) s = .next u ∧ u = (s.on ({ d with cores := u.dev.cores }))
          ∧ (∀ e, e ≠ c → u.dev.core e = d.core e)
          ∧ (u.dev.core c).inSet1 = false ∧ (u.dev.core c).curTask = none ∧ (u.dev.core c).run0 = k.run0
          ∧ (u.dev.core c).s1.a = (k.s1.withA 7 (k.s1.an 7 + 8)).a
          ∧ (k.strandSince = false → k.run0 = .active →
              (u.dev.core c).s0.pc = (w 4).extractLsb' 0 5 ++ w 3 ∧ (u.dev.core c).s0.sr = sr' k.s0.sr (w 5))
          ∧ (k.strandSince = true → (u.dev.core c).s0 = k.s0 ∧ (u.dev.core c).latch = .empty))
      ∧ (d.ownPlain c a7 1 = true → (w 0 = 0 ∨ 4 < (w 0).toNat ∨ (w 0 = 4 ∧ (d.core c).inSet1 = false)) → exec (.reti c) s = exec (.reservedEncoding c) s)

/-- R121, R122, Table 5.2: the earliest pending event enters a tile: the frame of set 0 is pushed below EVT_STK.SP (here in
memory), set 1 begins at the handler with SR 0, the loads of set 0 stay outstanding, and the event no longer waits. A tile with
no pending event, or one that may not enter now, is left as it is. -/
def Obligations.EventEntry : Prop :=
  ∀ (s : State) (t : Fin 16) (e : PendEv) (rest : List PendEv),
    let c := tileCore t
    let d := s.dev
    let k := d.core c
    let sp := d.get (R.TILE_EVT_STK_SP t.val)
    d.sys.held = false →
    (d.entryOpen t = true → k.pend = e :: rest →
        k.s0.sr.getLsbD 14 = false ∨ k.s0.opstk = [] → 8 ≤ sp → d.canPush c (sp - 8) 8 = true →
        exec (.eventEntry t) s = .next (s.on ((d.pushes c (sp - 8) ((k.eventFrame e.src).map (BitVec.ofNat 16))).updCore c (fun q => { q with
              s1 := { (q.s1.withA 7 (BitVec.ofNat 24 (sp - 8))) with sr := 0, pc := e.pc }
              inSet1 := true, strandSince := false, latch := .empty, wait := .none, curTask := e.task, runAt := none
              pend := q.pend.filter (fun p => p.src != e.src) }))))
      ∧ (d.entryOpen t = false ∨ k.pend = [] → exec (.eventEntry t) s = .next s)

/-! ## Instructions: memory -/

/-- R97, R71, R72, R73, R91, R128, R129, R130: a load from own local data writes its destination at once, with the core's own
buffered store to that word where there is one, and updates An by its mode; a load from a shared memory becomes an outstanding
load (a pair at an odd address two), and LOAD_RETURN later writes the destination with what the memory then holds. A pair needs
an even register, else the load takes the emulation trap. -/
def Obligations.LoadsReadMemory : Prop :=
  ∀ (s : State) (d : Dev) (c : CoreId) (an : Fin 8) (mode : AddrMode) (x : MemOpd) (w a : Nat) (disp : BitVec 16),
    let k := d.core c
    let r := k.act
    let n := memSize x
    let bare : RegSet → RegSet := id
    let moved : RegSet → RegSet := fun q => q.withA an (BitVec.ofNat 24 a)
    let load1 (seq : Nat) (dst : LoadDst) (ws : List Nat) : LoadRec := { seq := seq, set1 := k.inSet1, dst := dst, words := ws }
    let halves : Option (LoadDst × LoadDst) :=
      match x with
      | .pair q => some (.word q, .word (dReg (q.val + 1)))
      | .accPair q => some (.accLo q, .accHi q)
      | _ => none
    d.regsFree c = true →
    let reads (i : Instr) (len : Nat) (f : RegSet → RegSet) : Prop :=
      (d.ownPlain c w n = true →
        exec i s = .next (s.on (d.retire c len (fun q => f (q.takeLoad (loadDst x) (d.seens c w n))))))
      ∧ (∀ (e : StoreRec) (v : BitVec 16), n = 1 → w < 0x20000 → k.loads = [] → k.sbuf = [e] → e.words = [(w, 0xFFFF, v)] →
        e.seq < k.seq → exec i s = .next (s.on (d.retire c len (fun q => f (q.takeLoad (loadDst x) [v])))))
      ∧ (d.t4On c = false → d.accessRule c false w n = none → 0x20000 ≤ w → w + n ≤ 0xD0000 →
        (n = 1 ∨ w % 2 = 0 →
          exec i s = .next (s.on ((d.retire c len f).updCore c (fun q =>
            { q with loads := q.loads ++ [load1 q.seq (loadDst x) ((List.range n).map (w + ·))], seq := q.seq + 1 }))))
        ∧ (w % 2 = 1 → ∀ lo hi, halves = some (lo, hi) →
          exec i s = .next (s.on ((d.retire c len f).updCore c (fun q =>
            { q with loads := q.loads ++ [load1 q.seq lo [w], load1 q.seq hi [w + 1]], seq := q.seq + 1 })))))
    (s.dev.issues c (some false) 1 d → memOpdOk x = true → ¬ (mode = .modif ∧ 4 ≤ an.val) →
        effAddr mode (r.getA an.val) n (r.mN an.val).toNat = some (w, a) →
        reads (.load c an mode x) 1 moved)
      ∧ (s.dev.issues c (some false) 2 d → dispOpdOk x = true → w = ((r.an an) + disp.signExtend 24).toNat →
        reads (.ldd c an x disp) 2 bare)
      ∧ (s.dev.issues c (some false) 1 d → memOpdOk x = false →
        exec (.load c an mode x) s = exec (.reservedEncoding c) s
        ∧ exec (.store c an mode x) s = exec (.reservedEncoding c) s)
      ∧ isaDecode c false 0x5134 0 = .load c 1 .postInc (.word 3) ∧ isaDecode c false 0x5934 0 = .store c 1 .postInc (.word 3)
      ∧ (∀ (i : Nat) (l : LoadRec), s.dev = d → d.sys.held = false → k.loads[i]? = some l → d.canReturn c i = true →
        k.sbuf = [] → d.noneHeld c = true → (∀ v ∈ l.words, d.clean c v = true ∧ ∃ m off, d.locate c v = .mem m off) →
        exec (.loadReturn c i) s = .next (s.on (d.updCore c (fun q =>
          { (q.updSet l.set1 (fun t => t.takeLoad l.dst (l.words.map (d.seen c)))) with loads := q.loads.eraseIdx i }))))

/-- R97, R91, R57, R130, R134: a store to memory, own local data or shared, waits in the store buffer and memory is as it was
until STORE_BUFFER_DRAIN, which writes exactly its words; a store of a T4 strand to own local data is in memory at once. A pair
at an odd shared address is two accesses. An accumulator is stored limited, and SAT says so. -/
def Obligations.StoresWriteMemory : Prop :=
  ∀ (s : State) (d : Dev) (c : CoreId) (an : Fin 8) (mode : AddrMode) (x : MemOpd) (w a : Nat) (disp : BitVec 16),
    let k := d.core c
    let r := k.act
    let n := memSize x
    d.regsFree c = true →
    let lim (bits : Nat) (v : Int) : Int := max (-(2 ^ (bits - 1) : Nat)) (min ((2 ^ (bits - 1) : Nat) - 1) v)
    let vs : List (BitVec 16) :=
      match x with
      | .word q => [r.d q]
      | .pair q => [r.d q, r.d (dReg (q.val + 1))]
      | .accPair q => [(BitVec.ofInt 32 (lim 32 (r.acc[q]).toInt)).extractLsb' 0 16, (BitVec.ofInt 32 (lim 32 (r.acc[q]).toInt)).extractLsb' 16 16]
      | .accWord q => [BitVec.ofInt 16 (lim 16 (r.acc[q]).toInt)]
    let limited : Bool :=
      match x with
      | .accPair q => decide (lim 32 (r.acc[q]).toInt ≠ (r.acc[q]).toInt)
      | .accWord q => decide (lim 16 (r.acc[q]).toInt ≠ (r.acc[q]).toInt)
      | _ => false
    let bare : RegSet → RegSet := fun q => { q with sr := q.sr ||| flagAt 10 limited }
    let moved : RegSet → RegSet := fun q => (bare q).withA an (BitVec.ofNat 24 a)
    let split : Prop := n = 2 ∧ w % 2 = 1 ∧ 0x20000 ≤ w + 1
    let words : List (Nat × BitVec 16 × BitVec 16) := vs.mapIdx (fun j v => (w + j, 0xFFFF, v))
    let writes (i : Instr) (len : Nat) (f : RegSet → RegSet) : Prop :=
      (¬ split → d.canStore c w n 1 = true → exec i s = .next (s.on ((d.retire c len f).stores c words)))
      ∧ (split → d.canStore c w n 2 = true →
        exec i s = .next (s.on (((d.retire c len f).stores c (words.take 1)).stores c (words.drop 1))))
    (s.dev.issues c (some false) 1 d → memOpdOk x = true → ¬ (mode = .modif ∧ 4 ≤ an.val) →
        effAddr mode (r.getA an.val) n (r.mN an.val).toNat = some (w, a) →
        writes (.store c an mode x) 1 moved)
      ∧ (s.dev.issues c (some false) 2 d → dispOpdOk x = true → w = ((r.an an) + disp.signExtend 24).toNat →
        writes (.std c an x disp) 2 bare)
      ∧ (s.dev = d → d.sys.held = false → ∀ (i : Nat) (e : StoreRec), k.sbuf[i]? = some e → d.canDrain c i = true →
        (∀ (v : Nat) (m val : BitVec 16) (arr : Arr) (off : Nat), e.words = [(v, m, val)] →
          d.locate c v = .mem arr off → d.eccAt arr off = .ok → arr ≠ .mram → (∀ h, arr ≠ .qHalf h) →
          ∃ u, exec (.storeBufferDrain c i) s = .next u
            ∧ u = (s.on ({ d with mem := u.dev.mem, cores := u.dev.cores, pair := u.dev.pair }))
            ∧ u.dev.mw arr off = (d.mw arr off &&& ~~~m) ||| (val &&& m)
            ∧ (∀ b o, memKey b o ≠ memKey arr off → u.dev.mw b o = d.mw b o)
            ∧ u.dev.cores = (d.updCore c (fun q => { q with sbuf := q.sbuf.eraseIdx i })).cores)
        ∧ (∀ (v : Nat) (ml mh lo hi : BitVec 16), e.words = [(v, ml, lo), (v + 1, mh, hi)] → isRegWord v = true →
          exec (.storeBufferDrain c i) s = .next (s.on
            ((d.updCore c (fun q => { q with sbuf := q.sbuf.eraseIdx i })).regWrite (.core c) v (Wr.whole (hi ++ lo))))))

/-- R80, R111, R112: TBR and TBST take the 64-bit timebase, low word first; TELAP and TCMP take the time since the stamp at An,
in the unit named, 0 for a stamp in the future; TELAP limits it to 32 bits. -/
def Obligations.TimebaseAndTimers : Prop :=
  ∀ (s : State) (d : Dev) (c : CoreId) (p : Fin 4) (unit : Fin 4) (an q : Fin 8),
    s.dev.issues c (some false) 1 d → d.regsFree c = true →
    let r := (d.core c).act
    let t := d.time
    let stamp := d.seen4 c (r.getA an.val)
    let e : Nat := (t.toNat - stamp) / 1000 ^ unit.val
    let el : BitVec 32 := if e < 2 ^ 32 then BitVec.ofNat 32 e else 0xFFFFFFFF
    let ends (i : Instr) (f : RegSet → RegSet) : Prop := exec i s = .next (s.on (d.retire c 1 f))
    ends (.tbr c p) (fun k => (((k.withD (dReg (4 * p.val)) (t.extractLsb' 0 16)).withD
          (dReg (4 * p.val + 1)) (t.extractLsb' 16 16)).withD (dReg (4 * p.val + 2)) (t.extractLsb' 32 16)).withD
          (dReg (4 * p.val + 3)) (t.extractLsb' 48 16))
      ∧ (r.getA an.val % 4 = 0 → d.canStore c (r.getA an.val) 4 1 true = true → (d.t4On c = true → (d.core c).inj = false) →
        exec (.tbst c an) s = .next (s.on ((d.retire c 1 id).stores c [(r.getA an.val, 0xFFFF, t.extractLsb' 0 16),
          (r.getA an.val + 1, 0xFFFF, t.extractLsb' 16 16), (r.getA an.val + 2, 0xFFFF, t.extractLsb' 32 16),
          (r.getA an.val + 3, 0xFFFF, t.extractLsb' 48 16)])))
      ∧ (d.readsPlain c (r.getA an.val) 4 = true →
        ends (.telap c unit an q) (fun k => (k.withD (dReg (2 * q.val)) (el.extractLsb' 0 16)).withD
            (dReg (2 * q.val + 1)) (el.extractLsb' 16 16))
        ∧ ends (.tcmp c unit an q) (fun k => { k with sr := withCb k.sr <|
                                            (decide ((r.d (dReg (2 * q.val))).toNat + 65536 * (r.d (dReg (2 * q.val + 1))).toNat ≤ e)) }))
      ∧ isaDecode c false 0xC389 0 = .tcmp c 2 1 1

/-! ## Instructions: stack mode -/

/-- R85, R86, R114, Table 3.17: literals, the ALU and the shuffles of the operand stack, with the entries they need on the tile
and room for what they push. No flag changes.

R114, R115, Table 3.17: the operations between the operand stack, the address registers, memory and PC. LD reaches own
local data here; ST stores to memory, and CALL pushes its frame there.

R86, R87: a push onto 16 entries spills the bottom one to W:(A4 − 1), and a pop from an empty tile stack refills from W:A4
(here in memory, and in own local data); A4 follows. -/
def Obligations.StackModeOperations : Prop :=
  (∀ (s : State) (d : Dev) (c : CoreId) (u : BitVec 12) (x y z : BitVec 16) (rest : List (BitVec 16)),
      s.dev.issues c (some true) 1 d →
      let st := (d.core c).act.opstk
      let ends (i : Instr) (q : List (BitVec 16)) : Prop :=
        exec i s = .next (s.on (d.retire c 1 (fun r => { r with opstk := q })))
      let truth (b : Bool) : BitVec 16 := if b then 0xFFFF else 0
      (st.length < 16 → ends (.lit c u) (u.setWidth 16 :: st))
        ∧ (st = x :: rest → rest.length < 16 →
          ends (.lith c u) ((x <<< 12 + u.setWidth 16) :: rest) ∧ ends (.stkNot c) (~~~x :: rest) ∧ ends (.stkNeg c) (-x :: rest)
          ∧ ends (.drop c) rest ∧ (rest.length < 15 → ends (.dup c) (x :: x :: rest)))
        ∧ (st = y :: x :: rest → rest.length < 15 →
          ends (.stkAdd c) ((x + y) :: rest) ∧ ends (.stkSub c) ((x - y) :: rest) ∧ ends (.stkAnd c) ((x &&& y) :: rest)
          ∧ ends (.stkOr c) ((x ||| y) :: rest) ∧ ends (.stkXor c) ((x ^^^ y) :: rest)
          ∧ ends (.stkShl c) (x <<< (y.toNat % 16) :: rest) ∧ ends (.stkShr c) (x >>> (y.toNat % 16) :: rest)
          ∧ ends (.stkAsr c) (x.sshiftRight (y.toNat % 16) :: rest) ∧ ends (.stkMul c) ((x * y) :: rest)
          ∧ ends (.stkEq c) (truth (x == y) :: rest) ∧ ends (.stkLts c) (truth (x.slt y) :: rest)
          ∧ ends (.stkLtu c) (truth (x.ult y) :: rest) ∧ ends (.swap c) (x :: y :: rest)
          ∧ (rest.length < 14 → ends (.over c) (x :: y :: x :: rest)))
        ∧ (st = z :: y :: x :: rest → rest.length < 14 → ends (.rot c) (x :: z :: y :: rest))
        ∧ isaDecode c true 0x1005 0 = .lit c 5 ∧ isaDecode c true 0x3001 0 = .stkSub c)
  ∧ (∀ (s : State) (d : Dev) (c : CoreId) (k : Fin 8) (x : BitVec 16) (rest : List (BitVec 16)) (q : BitVec 12),
      s.dev.issues c (some true) 1 d →
      let r := (d.core c).act
      let st := r.opstk
      let a := r.an k
      let ends (i : Instr) (f : RegSet → RegSet) : Prop := exec i s = .next (s.on (d.retire c 1 f))
      let target : BitVec 21 := r.pc + 1 + q.signExtend 21
      (st = x :: rest → rest.length < 16 →
          ends (.popaL c k) (fun p => { p.withA k (a.extractLsb' 16 8 ++ x) with opstk := rest })
          ∧ ends (.popaH c k) (fun p => { p.withA k (x.extractLsb' 0 8 ++ a.extractLsb' 0 16) with opstk := rest })
          ∧ ends (.inca c k) (fun p => { p.withA k (a + x.signExtend 24) with opstk := rest })
          ∧ (x = 0 → ends (.bz c q) (fun p => { p with pc := target, opstk := rest }))
          ∧ (x ≠ 0 → ends (.bz c q) (fun p => { p with opstk := rest }))
          ∧ (d.canStore c a.toNat 1 1 = true →
            let one : List (Nat × BitVec 16 × BitVec 16) := [(a.toNat, 0xFFFF, x)]
            exec (.st c k) s = .next (s.on ((d.retire c 1 (fun p => { p with opstk := rest })).stores c one))
            ∧ exec (.stInc c k) s = .next (s.on ((d.retire c 1 (fun p => { p.withA k (a + 1) with opstk := rest })).stores c one))))
        ∧ (st.length < 16 →
          ends (.pushaL c k) (fun p => { p with opstk := a.extractLsb' 0 16 :: st })
          ∧ ends (.pushaH c k) (fun p => { p with opstk := (a.extractLsb' 16 8).setWidth 16 :: st })
          ∧ (d.ownPlain c a.toNat 1 = true →
            ends (.ld c k) (fun p => { p with opstk := d.seen c a.toNat :: st })
            ∧ ends (.ldInc c k) (fun p => { p.withA k (a + 1) with opstk := d.seen c a.toNat :: st })))
        ∧ ends (.stkBra c q) (fun p => { p with pc := target })
        ∧ (2 ≤ r.getA 7 → d.canPush c (r.getA 7 - 2) 2 = true →
          exec (.stkCall c q) s = .next (s.on ((d.retire c 1 (fun p => { p.withA 7 (BitVec.ofNat 24 (r.getA 7 - 2)) with pc := target })).pushes c
              (r.getA 7 - 2) (callFrame (r.pc + 1).toNat none))))
        ∧ isaDecode c true 0x5021 0 = .st c 2)
  ∧ (∀ (s : State) (d : Dev) (c : CoreId) (u : BitVec 12) (front : List (BitVec 16)) (last : BitVec 16),
      s.dev.issues c (some true) 1 d →
      let r := (d.core c).act
      let a4 := r.getA 4
      (r.opstk = front ++ [last] → front.length = 15 → 1 ≤ a4 → d.canStore c (a4 - 1) 1 1 = true →
          exec (.lit c u) s = .next (s.on ((d.retire c 1 (fun q => { q.withA 4 (BitVec.ofNat 24 (a4 - 1)) with opstk := u.setWidth 16 :: front })).stores c
              [(a4 - 1, 0xFFFF, last)])))
        ∧ (r.opstk = [] → d.ownPlain c a4 1 = true →
          exec (.drop c) s = .next (s.on (d.retire c 1 (fun q => q.withA 4 (q.an 4 + 1))))))

/-! ## The machine as a whole -/

/-- A step with a command at the front of the queue is exec of that command on the state with the queue's rest. -/
def Obligations.StepRunsTheFrontCommand : Prop :=
  ∀ (s : State) (c : Instr) (rest : List Instr), s.pending = c :: rest → step s = exec c { s with pending := rest }

/-- Every command has a next state, and leaves the queue behind it as it is. -/
def Obligations.EveryCommandEndsAndKeepsTheQueue : Prop :=
  ∀ (s : State) (c : Instr), ∃ t, exec c s = .next t ∧ t.pending = s.pending

/-- R488, R498: no step unburns a fuse: every bit that is burnt before a step is burnt after it, and OPK_HASH and the UID stay. -/
def Obligations.NoStepUnburnsAFuse : Prop :=
  ∀ (s t : State) (f : Fuses), f.le s.fuses → step s = .next t → f.le t.fuses

/-- What reset leaves of the fuses: no lifecycle bit, no root, no slot and no protection field is burnt. -/
def Obligations.ResetFusesAreBlank : Prop :=
  State.reset.fuses.lc = 0 ∧ (∀ b : Bool, let k := if b then State.reset.fuses.openB else State.reset.fuses.sealedB
      k.rootA.prog = false ∧ k.rootB.prog = false ∧ ∀ i < 32, (k.slot i).prog = false)
    ∧ State.reset.fuses.protA.prog = false ∧ State.reset.fuses.protB.prog = false
    ∧ State.reset.fuses.le State.reset.fuses

/-! ## Tiles and errors -/

/-- R137, R138, R143, Table 5.6: T4_MODE is refused on a second tile of a herd; a preload that is done holds the 4,096 words of
the locked range in the instruction cache and lets the strand start; and an event that waits 100 µs with no FENCE.ALL, a debug
halt and a debug step break a contract that still holds. -/
def Obligations.T4ModeAndDebug : Prop :=
  ∀ (s : State) (r : Req) (t : Fin 16) (v : Bool) (e : PendEv) (rest : List PendEv),
    let d := s.dev
    let k := d.core (tileCore t)
    let second : Prop := ∃ u : Fin 16, u ≠ t ∧ u.val / 4 = t.val / 4 ∧ d.flag (R.TILE_CTRL_T4_MODE u.val) = true
    let anew : Prop := v = true ∧ d.flag (R.TILE_CTRL_T4_MODE t.val) = false
    let broken (cause : Nat) (x : Dev) : Dev := if d.contract t then x.breaks t cause else x
    let debug (h st : Bool) : Dev := d.updCore (tileCore t) (fun q => { q with halted := h, stepOk := st })
    let first := k.t4Base.toNat / 32 * 32
    (d.writes r (R.TILE_CTRL t.val) = true →
      (v = true ∧ second → s.ends (.t4ModeWrite r t v) ((d.put (R.TILE_CTRL_T4_MODE t.val) 0).put (R.TILE_STATE_T4_DENY t.val) 1))
      ∧ (¬ (v = true ∧ second) → s.ends (.t4ModeWrite r t v)
          ((d.put (R.TILE_CTRL_T4_MODE t.val) (b2n v)).updCore (tileCore t) (fun q => { q with t4New := decide (q.t4New = true ∨ anew) }))))
    ∧ (d.sys.held = false →
      (k.t4Preload = true → (∀ p, d.eccAt d.progArr p = .ok) →
        s.endsIn (.t4PreloadDone t) (fun u =>
          u = { (d.updCore (tileCore t) (fun q => { q with t4Preload := false, t4Loaded := true })) with icache := u.icache, ecc := u.ecc }
            ∧ (∀ a o, a ≠ .icache t → u.eccAt a o = d.eccAt a o)
            ∧ ∀ p, first ≤ p → p < first + 4096 → p < 0x200000 →
                u.icHolds t (p / 32) = true ∧ (u.icLine t (p / 32)).words.getD (p % 32) 0 = d.mw d.progArr p))
      ∧ (k.pend = e :: rest → k.run0 = .active → k.inSet1 = false →
        max e.ts.toNat k.t4Fence.toNat + 100000 ≤ d.time.toNat → s.ends (.t4EventTimeout t) (broken 6 d))
      ∧ (d.flag R.LC_STAT_DBG_EN = true →
        s.ends (.debugHalt t .halt) (broken 5 (debug true false)) ∧ s.ends (.debugHalt t .run) (debug false false)
        ∧ (k.halted = true → s.ends (.debugHalt t .step) (broken 5 (debug true true))))
      ∧ (d.flag R.LC_STAT_DBG_EN = false → ∀ a, s.ignores (.debugHalt t a)))

/-- R22, R23: the scrubber finds a granule of an SRAM array good, or corrects it and counts it, or takes a machine check of the
array's class with no effect on a scan: what it found, or the worse error that the granule held. An uncorrectable cache line is
refetched from program memory and counts as corrected.

R11, R18, R25, R29, R30, Table 1.6: loss of the clock (kind 5) and of the die-to-die link (kind 6) are fatal machine checks:
the first one raises event 1, is logged unless a log is held, switches every field output off, and makes the reset due. -/
def Obligations.ScrubberAndFatalChecks : Prop :=
  (∀ (s : State) (a : Arr) (g : Nat) (x : Ecc), s.dev.sys.held = false → a ≠ .mram → g * 4 < arrSize a →
      let y := if s.dev.eccAt a (g * 4) = .unc ∨ x = .unc then .unc else if s.dev.eccAt a (g * 4) = .corr ∨ x = .corr then .corr else .ok
      let d := s.dev.setEcc a (g * 4) y
      let fixed := (d.satAdd R.MC_STATUS_CE_COUNT 1).setEcc a (g * 4) .ok
      (y = .ok → s.ends (.patrolScrub a g x) d)
        ∧ (y = .corr → s.ends (.patrolScrub a g x) fixed)
        ∧ (y = .unc → (∀ t, a ≠ .icache t) → s.ends (.patrolScrub a g x)
            (if d.arrFatal a then d.fatalMc 1 scrubUnit (d.mcAddr scrubUnit a (g * 4))
              else d.recovMc 1 scrubUnit (d.mcAddr scrubUnit a (g * 4))))
        ∧ (y = .unc → ∀ t, a = .icache t →
            let l := d.icLine t (g / 8)
            (l.words = [] → s.ends (.patrolScrub a g x) fixed)
            ∧ (l.words ≠ [] → l.line % 128 = g / 8 → (∀ i < 32, d.eccAt d.progArr (32 * l.line + i) = .ok) →
              s.endsIn (.patrolScrub a g x) (fun u =>
                u = { (d.satAdd R.MC_STATUS_CE_COUNT 1) with icache := u.icache, ecc := u.ecc }
                  ∧ u.eccAt a (g * 4) = .ok ∧ (∀ b o, b ≠ a → u.eccAt b o = d.eccAt b o)
                  ∧ (u.icLine t (g / 8)).line = l.line
                  ∧ (u.icLine t (g / 8)).words = d.mws d.progArr (32 * l.line) 32))))
  ∧ (∀ (s : State) (link : Bool), s.dev.sys.held = false → s.dev.sys.fatal = false →
      s.endsIn (if link then .dieLinkTimeout else .clockLoss) (fun t =>
        t.sys.fatal = true ∧ t.sys.due = s.dev.sys.due ++ [.machineCheck] ∧ t.sys.outsOff = true ∧ t.fio.on = 0
          ∧ t.flag ((R.EV_RAISED 0).bit 1) = true ∧ t.get (R.EV_TSL 1) = s.dev.time.toNat % 2 ^ 32
          ∧ (s.dev.mcHeld = false → t.get R.MC_STATUS_KIND = (if link then 6 else 5) ∧ t.get R.MC_ADDR_ADDR = 0)
          ∧ (s.dev.mcHeld = true → t.flag R.MC_STATUS_MULTI = true ∧ t.get R.MC_STATUS_KIND = s.dev.get R.MC_STATUS_KIND
              ∧ t.rd R.MC_ADDR.addr = s.dev.rd R.MC_ADDR.addr)
          ∧ (∀ x : Fin 17, (t.core x).s0 = (s.dev.core x).s0 ∧ (t.core x).s1 = (s.dev.core x).s1) ∧ t.mem = s.dev.mem))

/-- R22, R24, R30, R48, R53: the writes of the error logs and of the set-up lock: a 1 to RECOV or FATAL clears it, and the log
with it when both are 0; the counts return to 0; an Ox tile arms injection; LOCK is set for good. A write of MC_CTRL under the lock counts, since it discards ESC_LIM.

R46, R47, R48, R51, R511: a register write through REGISTER_WRITE, here of SCAN_GAP (region 2): taken, discarded and counted
under the set-up lock, and an access error for the host when the fuses deny region 2 (kind 4), in the Dead state (kind 1) and
when misaligned (kind 7). -/
def Obligations.ErrorLogsAndRegisterWrites : Prop :=
  (∀ (s : State) (r : Req) (v : BitVec 32),
      let d := s.dev
      let e := if d.unlocked R.MC_CTRL.addr then d else d.satAdd R.AE_STATUS_LOCK_COUNT 1
      let clr (i : Nat) (f : Fld) : Nat := if v.getLsbD i then 0 else d.get f
      let none : Prop := clr 1 R.MC_STATUS_RECOV = 0 ∧ clr 2 R.MC_STATUS_FATAL = 0
      (d.reaches r R.MC_STATUS.addr = true →
        s.endsIn (.mcStatusWrite r v) (fun t =>
          t = { d with regs := t.regs, sys := { d.sys with fatalLog := decide (d.sys.fatalLog = true ∧ ¬ none) } }
            ∧ d.onlyFields t [R.MC_STATUS_RECOV, R.MC_STATUS_FATAL, R.MC_STATUS_MULTI, R.MC_STATUS_ESC, R.MC_STATUS_KIND, R.MC_ADDR]
            ∧ t.get R.MC_STATUS_RECOV = clr 1 R.MC_STATUS_RECOV ∧ t.get R.MC_STATUS_FATAL = clr 2 R.MC_STATUS_FATAL
            ∧ (¬ none → t.get R.MC_STATUS_MULTI = clr 3 R.MC_STATUS_MULTI ∧ t.get R.MC_STATUS_ESC = clr 11 R.MC_STATUS_ESC
                ∧ t.get R.MC_STATUS_KIND = d.get R.MC_STATUS_KIND ∧ t.rd R.MC_ADDR.addr = d.rd R.MC_ADDR.addr)
            ∧ (none → t.get R.MC_STATUS_MULTI = 0 ∧ t.get R.MC_STATUS_ESC = 0 ∧ t.get R.MC_STATUS_KIND = 0 ∧ t.rd R.MC_ADDR.addr = 0)))
      ∧ (d.reaches r R.MC_CTRL.addr = true →
        s.ends (.ceClr r) (e.put R.MC_STATUS_CE_COUNT 0)
        ∧ (∀ c : CoreId, r = .core c → c.val < 16 → s.ends (.inj r) (e.updCore c (fun k => { k with inj := true })))
        ∧ (r = .host ∨ r = .core 16 → s.ends (.inj r) e))
      ∧ (d.reaches r R.SETUP_LOCK.addr = true → s.ends (.setupLockSet r) (d.put R.SETUP_LOCK_LOCK 1))
      ∧ (d.reaches r R.AE_STATUS.addr = true →
        s.ends (.aeClr r) ((d.put R.AE_STATUS_LOCK_COUNT 0).put R.AE_STATUS_ERR_COUNT 0)
        ∧ s.ends (.aeLogClear r) ((((d.put R.AE_STATUS_VALID 0).put R.AE_STATUS_MULTI 0).put R.AE_STATUS_KIND 0).put R.AE_ADDR 0)))
  ∧ (∀ (s : State) (c : CoreId) (v : BitVec 32) (o : BitVec 22), s.dev.sys.held = false →
      let d := s.dev
      let a := R.SCAN_GAP.addr
      let error (kind addr : Nat) : Dev := (d.accessError 0xFB kind addr).raise 112
      let taken (i : Instr) : Prop :=
        (d.unlocked a = true → s.ends i (d.put R.SCAN_GAP_GAP v.toNat))
        ∧ (d.unlocked a = false → s.ends i (d.satAdd R.AE_STATUS_LOCK_COUNT 1))
      ((d.accessRule c true a 2).isNone = true → taken (.registerWrite (.core c (BitVec.ofNat 24 a) v)))
        ∧ (d.d3hot = false →
          (d.flag R.BOOT_STAT_DEAD = false → d.hostMay 2 true = true → taken (.registerWrite (.dword 0x1008 v)))
          ∧ (d.flag R.BOOT_STAT_DEAD = false → d.hostMay 2 true = false →
              s.ends (.registerWrite (.dword 0x1008 v)) (error 4 0x1008))
          ∧ (d.flag R.BOOT_STAT_DEAD = true → s.ends (.registerWrite (.dword 0x1008 v)) (error 1 0x1008))
          ∧ (o.toNat % 4 ≠ 0 → s.ends (.registerWrite (.dword o v)) (error 7 o.toNat))
          ∧ s.ends (.registerWrite (.other o)) (error 7 o.toNat))
        ∧ s.ends (.registerWrite .outside) d.unsupported
        ∧ (d.d3hot = true → s.ends (.registerWrite (.dword o v)) d.unsupported))

/-- R124, R411, R416, R417: a source `x` that the device raises now (no cycle task stands between) sets its flag and its timestamp,
sets the wake latch of the Bellwether and of every tile it is routed to, leaves the other tiles alone, and waits once on a tile
that it preempts. -/
def Obligations.RaisedEventReachesFlagsAndTiles : Prop :=
  ∀ (d : Dev) (x : Fin 128) (t : Fin 16), d.sys.held = false →
    let k := d.core (tileCore t)
    let u := (d.raise x.val).core (tileCore t)
    let on := d.get (R.EV_ROUTE_TILES x.val) / 2 ^ t.val % 2 = 1
    (d.raise x.val).flag ((R.EV_RAISED (x.val / 32)).bit (x.val % 32)) = true
      ∧ (d.raise x.val).get (R.EV_TSL x.val) = d.time.toNat % 2 ^ 32
      ∧ ((d.raise x.val).core 16).wake = true
      ∧ (¬ on → u = k)
      ∧ (on → d.flag (R.EV_ROUTE_PRE x.val) = false → u = { k with wake := true })
      ∧ (on → d.flag (R.EV_ROUTE_PRE x.val) = true → (∃ p ∈ k.pend, p.src = x.val) → u = { k with wake := true })
      ∧ (on → d.flag (R.EV_ROUTE_PRE x.val) = true → (¬ ∃ p ∈ k.pend, p.src = x.val) →
          u.wake = true ∧ (∀ p, p ∈ u.pend ↔ p ∈ k.pend ∨
            p = { src := x.val, ts := d.time, pc := BitVec.ofNat 21 (d.get (R.EV_VEC_PC x.val)), task := none })
          ∧ u = { k with wake := true, pend := u.pend })
      ∧ (d.raise x.val).mem = d.mem ∧ (d.raise x.val).time = d.time

/-! ## The scan and online change -/

/-- R147, R149, R150, R151: the commands of SCAN_CTRL: a start in STOP is refused when the port map is bad, enters INIT with M,
instance memory and the Q shadow zeroed (no program that primes cells being active), or enters SNAP, and takes the port map; a stop ends the scan at the
next boundary, at once in GAP.

R149, R151, R156, R162: INIT ends in SNAP, or in STOP after a stop command; EXEC ends when every tile has reported; GAP ends
in SNAP once its time has passed, GAP above 100,000 being taken as 100,000. -/
def Obligations.ScanCommandsAndStateEnds : Prop :=
  (∀ (s : State) (r : Req) (o : Bool), s.dev.writes r R.SCAN_CTRL = true → s.dev.scanAlone = true → s.dev.imagesClean →
      let d := s.dev.put R.SCAN_CTRL_STOP_OUT (b2n o)
      let st := s.dev.get R.SCAN_STAT_STATE
      let cold : Prop := s.dev.scan.resetSince = true ∨ s.dev.scan.mustCold = true
      let noCan : Prop := ∀ k, 5 ≤ k → k < 13 → s.dev.flag (R.PMAP_IEN k) = false
      let started (t : Dev) (n c : Nat) : Prop :=
        t.get R.SCAN_STAT_STATE = n ∧ t.get R.SCAN_STAT_COLD = c ∧ t.get R.SCAN_STAT_SKIP_CNT = 0
          ∧ t.get R.SCAN_CTRL_STOP_OUT = b2n o ∧ t.scan.first = true ∧ t.scan.mustCold = false
          ∧ t.scan.pmap = (List.range 13).map (fun k => s.dev.rd (R.PMAP k).addr) ∧ t.cores = s.dev.cores
      (st = 0 → s.dev.mapOk = false →
          s.ends (.startWarm r o) (d.put R.SCAN_STAT_MAP_ERR 1) ∧ s.ends (.startCold r o) (d.put R.SCAN_STAT_MAP_ERR 1))
        ∧ (st = 0 → s.dev.mapOk = true → s.dev.prog.loaded = false →
          s.endsIn (.startCold r o) (fun t => started t 1 1 ∧ t.scan.dirtyAll = true
            ∧ (∀ w, t.mw .mark w = 0 ∧ t.mw .inst w = 0 ∧ t.mw (.qHalf s.dev.scan.qShadow) w = 0
                ∧ t.mw (.qHalf (!s.dev.scan.qShadow)) w = s.dev.mw (.qHalf (!s.dev.scan.qShadow)) w
                ∧ (noCan → ∀ h, t.mw (.iHalf h) w = s.dev.mw (.iHalf h) w))))
        ∧ (st = 0 → s.dev.mapOk = true → ¬ cold →
          s.endsIn (.startWarm r o) (fun t => started t 2 0 ∧ t.scan.began = s.dev.time ∧ (noCan → t.mem = s.dev.mem)))
        ∧ (st = 0 → s.dev.mapOk = true → cold → exec (.startWarm r o) s = exec (.startCold r o) s)
        ∧ (st ≠ 0 → s.ends (.startWarm r o) d ∧ s.ends (.startCold r o) d)
        ∧ (st = 0 → s.ends (.scanStop r o) d)
        ∧ (st = 6 → o = false → s.ends (.scanStop r o) d.stopBegins)
        ∧ (st = 6 → o = true → s.endsIn (.scanStop r o) (fun t =>
            t.get R.SCAN_STAT_STATE = 0 ∧ t.scan.dirty = [] ∧ t.scan.dirtyAll = false
              ∧ ∀ h w, t.mw (.qHalf h) w = forced (s.dev.forcesOf true) w 0))
        ∧ (st ≠ 0 → st ≠ 6 → s.ends (.scanStop r o) { d with scan := { s.dev.scan with stopPend := true } })
        ∧ s.endsRegs (.maxClr r) [R.SCAN_MAX_NS] (fun t => t.get R.SCAN_MAX_NS = 0))
  ∧ (∀ (s : State), s.dev.scanAlone = true →
      let d := s.dev
      let st := d.get R.SCAN_STAT_STATE
      (st = 1 → d.scan.stopPend = false → s.ends .initDone d.snapBegins)
        ∧ (st = 1 → d.scan.stopPend = true → d.flag R.SCAN_CTRL_STOP_OUT = false →
            s.ends .initDone { d.stopBegins with scan := { d.stopBegins.scan with mustCold := true } })
        ∧ (st = 3 → d.scan.reported % 65536 = 65535 → s.ends .barrierStart (d.put R.SCAN_STAT_STATE 4))
        ∧ (st = 3 → d.scan.reported % 65536 ≠ 65535 → s.ignores .barrierStart)
        ∧ (st = 6 → min (d.get R.SCAN_GAP_GAP) 100000 ≤ (d.time - d.scan.gapBegan).toNat → s.ends .gapEnd d.snapBegins)
        ∧ (st = 6 → (d.time - d.scan.gapBegan).toNat < min (d.get R.SCAN_GAP_GAP) 100000 → s.ignores .gapEnd)
        ∧ (st ≠ 1 → s.ignores .initDone) ∧ (st ≠ 3 → s.ignores .barrierStart) ∧ (st ≠ 6 → s.ignores .gapEnd))

/-- R116, R118, R145, R153, R172: the flip of the I image, once copy-forward has ended: the filling half, with the system words
and the I forces in it, becomes the snapshot; SCAN_CNT counts; the writes that ports held take effect in the new filling half; a
strand starts on every tile, or a scan that has overrun starts none.

R154: copy-forward brings every granule of the filling half that is still to be copied up to date with the snapshot, a forced
word as it stood before the force; no other word changes. -/
def Obligations.SnapshotAndCopyForward : Prop :=
  (∀ (s : State) (t : Fin 16), s.dev.scanAlone = true → s.dev.get R.SCAN_STAT_STATE = 2 → s.dev.scan.copyList = [] →
      s.dev.imagesClean →
      let d := s.dev
      let n := (d.get R.SCAN_CNT_CNT + 1) % 2 ^ 32
      let k := d.core (tileCore t)
      let word (o : Nat) : BitVec 16 :=
        if o = 0 then BitVec.ofNat 16 (b2n d.scan.first + 2 * d.get R.SCAN_STAT_COLD + 4 * b2n d.scan.chg + 8 * b2n d.scan.skipped
            + 16 * b2n (!d.forceEntries.isEmpty) + 32 * b2n d.scan.takeover)
        else if o = 1 then BitVec.ofNat 16 n else if o = 2 then BitVec.ofNat 16 (n / 65536)
        else if o = 4 then BitVec.ofNat 16 d.time.toNat else if o = 5 then BitVec.ofNat 16 (d.time.toNat / 2 ^ 16)
        else if o = 6 then BitVec.ofNat 16 (d.time.toNat / 2 ^ 32) else if o = 7 then BitVec.ofNat 16 (d.time.toNat / 2 ^ 48)
        else if o = 8 then BitVec.ofNat 16 (d.get R.SCAN_LAST_NS) else if o = 9 then BitVec.ofNat 16 (d.get R.SCAN_LAST_NS / 65536)
        else if o < 16 then 0 else d.mw d.iFill o
      s.endsIn .iFlip (fun u =>
        u.get R.SCAN_STAT_STATE = 3 ∧ u.get R.SCAN_CNT_CNT = n ∧ u.scan.iSnap = !d.scan.iSnap ∧ u.scan.heldI = []
          ∧ (∀ o, u.mw (.iHalf u.scan.iSnap) o = forced (d.forcesOf false) o (word o))
          ∧ (d.scan.heldI = [] → ∀ o, u.mw (.iHalf d.scan.iSnap) o = d.mw (.iHalf d.scan.iSnap) o)
          ∧ (∀ x o v, d.scan.heldI = [(x, o, v)] → u.mw (.iHalf d.scan.iSnap) o = v)
          ∧ u.scan.first = false ∧ u.scan.chg = false ∧ u.scan.takeover = false
          ∧ (d.scan.overrun = false →
            u.core (tileCore t) = k.strandBegins (d.flag (R.TILE_ENTRY_EN t.val)) (d.get (R.TILE_ENTRY_PC t.val))
              (d.get (R.TILE_STK_SP t.val)) (d.flag (R.TILE_CTRL_T4_MODE t.val)) d.time
            ∧ (u.scan.reported.testBit t.val = true ↔ d.scan.reported.testBit t.val = true ∨ d.flag (R.TILE_ENTRY_EN t.val) = false))
          ∧ (d.scan.overrun = true → (u.core (tileCore t)).s0 = k.s0 ∧ (u.core (tileCore t)).run0 = k.run0
            ∧ u.scan.reported.testBit t.val = true ∧ u.scan.skipNow = true ∧ u.flag R.SCAN_STAT_OVR = true ∧ u.raised 3)))
  ∧ (∀ (s : State), s.dev.sys.held = false → s.dev.imagesClean →
      let d := s.dev
      let before (o : Nat) : BitVec 16 :=
        match d.scan.preForce.find? (fun p => p.1 == o) with
        | some p => p.2
        | none => d.mw (.iHalf d.scan.iSnap) o
      s.endsIn .iCopyForwardDone (fun u => u = { d with mem := u.mem, scan := { d.scan with copyList := [] } }
        ∧ (∀ o, u.mw d.iFill o = if o / 4 ∈ d.scan.copyList then before o else d.mw d.iFill o)
        ∧ (∀ o, u.mw (.iHalf d.scan.iSnap) o = d.mw (.iHalf d.scan.iSnap) o)))

/-- R133, R156, R158, R159, R164, R165: once no access of a set 0 is outstanding in BARRIER, a scan whose commit is not skipped enters COMMIT with the Q
forces in the shadow, flips, and copies the dirty granules forward; a skipped one counts and copies them back.

R27, R149, R158, R160, R165: COMMIT (after its flip) and ROLLBACK end: the held stores take effect and are dirty, the durations
are written, ESC_COUNT counts or returns to 0, an escalation at ESC_LIM is fatal, and the scan enters GAP, or STOP after a stop. -/
def Obligations.CommitRollbackAndTheirEnds : Prop :=
  (∀ (s : State), s.dev.scanAlone = true → s.dev.imagesClean →
      let d := s.dev
      let sh := d.scan.qShadow
      let q (u : Dev) (h : Bool) (o : Nat) : BitVec 16 := u.mw (.qHalf h) o
      (d.get R.SCAN_STAT_STATE = 4 → (∀ t : Fin 16, d.settled0 (tileCore t) = true) → d.scan.skipNow = false →
          s.endsIn .barrierEnd (fun u => u.get R.SCAN_STAT_STATE = 5 ∧ u.scan.skipped = false ∧ u.scan.qFlipped = false
            ∧ ∀ o, q u sh o = forced (d.forcesOf true) o (q d sh o) ∧ q u (!sh) o = q d (!sh) o))
        ∧ (d.get R.SCAN_STAT_STATE = 4 → (∀ t : Fin 16, d.settled0 (tileCore t) = true) → d.scan.skipNow = true →
          s.endsIn .barrierEnd (fun u => u.get R.SCAN_STAT_STATE = 7 ∧ u.scan.skipped = true
            ∧ u.get R.SCAN_STAT_SKIP_CNT = min 65535 (d.get R.SCAN_STAT_SKIP_CNT + 1)
            ∧ ∀ o, q u sh o = (if d.isDirty (o / 4) then q d (!sh) o else q d sh o) ∧ q u (!sh) o = q d (!sh) o))
        ∧ (d.get R.SCAN_STAT_STATE = 5 → d.scan.qFlipped = false →
          s.endsIn .qFlip (fun u => u.get R.SCAN_STAT_STATE = 5 ∧ u.scan.qShadow = !sh ∧ u.scan.qFlipped = true
            ∧ ∀ o, q u sh o = q d sh o ∧ q u (!sh) o = if d.isDirty (o / 4) then q d sh o else q d (!sh) o)))
  ∧ (∀ (s : State) (rb : Bool), s.dev.scanAlone = true → s.dev.imagesClean →
      (rb = false → s.dev.get R.SCAN_STAT_STATE = 5 ∧ s.dev.scan.qFlipped = true) → (rb = true → s.dev.get R.SCAN_STAT_STATE = 7) →
      let d := s.dev
      let ns := min 0xFFFFFFFF (d.time - d.scan.began).toNat
      let esc := min 15 (d.get R.MC_STATUS_ESC_COUNT + 1)
      let lim := d.get R.MC_CTRL_ESC_LIM
      let c : Instr := if rb then .rollbackEnd else .commitEnd
      s.endsIn c (fun u =>
        u.get R.SCAN_LAST_NS = ns ∧ u.get R.SCAN_MAX_NS = max ns (d.get R.SCAN_MAX_NS)
          ∧ u.get R.MC_STATUS_ESC_COUNT = (if d.scan.mcNow then esc else 0)
          ∧ u.scan.heldQ = [] ∧ u.scan.dirtyAll = false
          ∧ (u.sys.fatal = true ↔ d.scan.mcNow = true ∧ lim ≠ 0 ∧ lim ≤ esc)
          ∧ (u.sys.fatal = false → d.scan.stopPend = false → u.get R.SCAN_STAT_STATE = 6 ∧ u.scan.gapBegan = d.time
              ∧ (∀ g, g ∈ u.scan.dirty ↔ ∃ h ∈ d.scan.heldQ, h.off / 4 = g)
              ∧ (∀ o, u.mw (.qHalf d.scan.qShadow) o
                  = forced (d.scan.heldQ.map (fun h => (h.off, h.mask, h.val))) o (d.mw (.qHalf d.scan.qShadow) o)))
          ∧ (u.sys.fatal = false → d.scan.stopPend = true → u.get R.SCAN_STAT_STATE = 0 ∧ u.scan.stopPend = false)))

/-- R163: a scan that is past its ceiling overruns: in SNAP it is only noted; in EXEC and BARRIER set 0 of every tile that has not
reported stops with its registers kept, OVR is set, event 3 is raised and the commit is skipped. -/
def Obligations.ScanCeiling : Prop :=
  ∀ (s : State) (t : Fin 16), s.dev.sys.held = false → s.dev.sys.fatal = false → s.dev.scan.overrun = false →
    let d := s.dev
    let st := d.get R.SCAN_STAT_STATE
    let past : Prop := d.get R.SCAN_CEIL_CEIL ≠ 0 ∧ d.get R.SCAN_CEIL_CEIL * 10 ≤ (d.time - d.scan.began).toNat
    let k := d.core (tileCore t)
    (past → st = 2 → s.ends .scanOverrun { d with scan := { d.scan with overrun := true } })
      ∧ (past → (st = 3 ∨ st = 4) → s.endsIn .scanOverrun (fun u =>
          let w := u.core (tileCore t)
          u.flag R.SCAN_STAT_OVR = true ∧ u.get R.SCAN_STAT_STATE = st ∧ u.scan.skipNow = true ∧ u.scan.overrun = true
            ∧ u.scan.reported.testBit t.val = true ∧ u.flag ((R.EV_RAISED 0).bit 3) = true ∧ u.mem = d.mem
            ∧ w.s0 = k.s0 ∧ w.s1 = k.s1 ∧ w.inSet1 = k.inSet1
            ∧ w.run0 = (if d.scan.reported.testBit t.val then k.run0 else .idle)))
      ∧ (¬ past → s.ignores .scanOverrun)

/-- R168, R171, R174: the enable of a cycle task is refused whole when another enabled entry names its ring, point and tile;
CLR_ALL and CLR_ORPH clear EN and ORPH of every entry, or of every orphan, and leave words +0 to +2 alone. -/
def Obligations.CycleTaskEnableAndForceClears : Prop :=
  ∀ (s : State) (r : Req) (k : Fin 8) (ring : Fin 4) (point : Fin 8) (tile : Fin 16) (pc : BitVec 21),
    let d := s.dev
    let clash : Prop := ∃ j : Fin 8, j ≠ k ∧ d.flag (R.CTASK_EN j.val) = true ∧ d.get (R.CTASK_RING j.val) = ring.val
      ∧ d.get (R.CTASK_POINT j.val) = point.val ∧ d.get (R.CTASK_TILE j.val) = tile.val
    let forces : List Fld := (List.range 4096).map (fun e => R.FORCE_HI e)
    (d.writes r (R.CTASK k.val) = true →
      (clash → s.ends (.ctaskEnable r k ring point tile pc) (d.put R.SCAN_STAT_CT_DENY 1))
      ∧ (¬ clash → s.endsRegs (.ctaskEnable r k ring point tile pc) [R.CTASK k.val] (fun u =>
          u.get (R.CTASK_EN k.val) = 1 ∧ u.get (R.CTASK_RING k.val) = ring.val ∧ u.get (R.CTASK_POINT k.val) = point.val
            ∧ u.get (R.CTASK_TILE k.val) = tile.val ∧ u.get (R.CTASK_PC k.val) = pc.toNat)))
    ∧ (d.reaches r R.FORCE_CTRL.addr = true → d.arrClean .forceTab → d.get R.PROG_STAT_STATE ≠ 5 → d.get R.PAIR_STAT_ROLE ≠ 1 →
      s.endsRegs (.clrAll r) forces (fun u => ∀ e < 4096, u.rd (R.FORCE_HI e).addr = d.rd (R.FORCE_HI e).addr &&& 0xFFFF)
      ∧ s.endsRegs (.clrOrph r) forces (fun u => ∀ e < 4096, u.rd (R.FORCE_HI e).addr =
          if (d.rd (R.FORCE_HI e).addr).getLsbD 30 then d.rd (R.FORCE_HI e).addr &&& 0xFFFF else d.rd (R.FORCE_HI e).addr))

/-- R180, R181, R184, R186, R197, Table 7.1: the staging commands. A command that the state does not list sets SEQ and does nothing
else; outside STOP a FULL package fails its COMMIT with 0x0E.

R184, R185, R188, R192: CHECKING ends in FAILED with the code of the check, 0x0D when the MRAM copy does not read back, else in
VALID; the commit point of a swap makes the staged package the active one and clears both register sets of every Ox tile. -/
def Obligations.OnlineChange : Prop :=
  (∀ (s : State) (r : Req) (v : BitVec 32) (p : BitVec 21),
      let d := s.dev
      let st := d.get R.PROG_STAT_STATE
      let ptr := d.get R.STAGE_PTR_PTR
      let seq : Dev := d.put R.PROG_STAT_SEQ 1
      let said (x : Dev) (ws : List Nat) : Dev := if d.mirroring then x.emit (.pair 0x28 ws) else x
      let fails (n : Nat) : Dev := (d.put R.PROG_STAT_STATE 6).put R.PROG_STAT_ERR n
      let full : Prop := d.pkgFull d.inactive = true ∧ d.get R.SCAN_STAT_STATE ≠ 0
      let peer : Prop := d.get R.PAIR_STAT_SYNC = 2 ∧ d.get R.PAIR_STAT_ROLE = 1 ∧ d.prog.pairRes ≠ some true
      (d.reaches r R.CHG_CTRL.addr = true →
        (st = 0 ∨ st = 1 ∨ st = 3 ∨ st = 6 →
          s.ends (.open r) (said (((d.put R.PROG_STAT_STATE 1).put R.STAGE_PTR_PTR 0).put R.PROG_STAT_ERR 0) [0]))
        ∧ (st = 2 ∨ st = 4 ∨ st = 5 → s.ends (.open r) seq)
        ∧ (st = 1 → s.ends (.prepare r) (said { d.put R.PROG_STAT_STATE 2 with prog := { d.prog with pairRes := none, checkEnd := none } } [2]))
        ∧ (st ≠ 1 → s.ends (.prepare r) seq)
        ∧ (st = 3 → full → s.ends (.chgCommit r) (fails 0x0E)) ∧ (st = 3 → ¬ full → peer → s.ends (.chgCommit r) (fails 0x0C))
        ∧ (st = 3 → ¬ full → ¬ peer → d.get R.SCAN_STAT_STATE ≠ 0 → s.ends (.chgCommit r) (d.put R.PROG_STAT_STATE 4))
        ∧ (st = 3 → ¬ peer → d.get R.SCAN_STAT_STATE = 0 → d.mirroring = false → d.prog.swapWait = false → d.sys.fatal = false →
            (∀ t : Fin 16, (d.core (tileCore t)).inSet1 = false) →
            s.ends (.chgCommit r) { d.put R.PROG_STAT_STATE 5 with prog := { d.prog with swapWait := false, markDue := false, swapAt := d.time } })
        ∧ (st ≠ 3 → s.ends (.chgCommit r) seq)
        ∧ (st = 0 → s.ignores (.abort r)) ∧ (st = 5 → s.ends (.abort r) seq)
        ∧ (st ≠ 0 → st ≠ 5 → d.hif.running = [] → s.ends (.abort r) (said
            { d.put R.PROG_STAT_STATE 0 with prog := { d.prog with swapWait := false, markDue := false, checkEnd := none } } [5])))
      ∧ (d.writes r R.STAGE_PTR = true →
        (st = 1 → s.ends (.stagePtrWrite r p) (d.put R.STAGE_PTR_PTR p.toNat)) ∧ (st ≠ 1 → s.ends (.stagePtrWrite r p) seq))
      ∧ (d.reaches r R.STAGE_DATA.addr = true →
        (st = 1 → ptr ≤ 0x1FFFFE → d.arrClean (.prog d.inactive) → s.ends (.stageDataWrite r v)
            (said (((d.setMw (.prog d.inactive) ptr (v.extractLsb' 0 16)).setMw (.prog d.inactive) (ptr + 1)
              (v.extractLsb' 16 16)).put R.STAGE_PTR_PTR (ptr + 2)) [1, ptr, v.toNat % 65536, v.toNat / 65536]))
        ∧ (¬ (st = 1 ∧ ptr ≤ 0x1FFFFE) → s.ends (.stageDataWrite r v) seq)))
  ∧ (∀ (s : State) (miss : Bool) (t : Fin 16), s.dev.sys.held = false → s.dev.get R.PAIR_STAT_ROLE = 0 → s.dev.hif.running = [] →
      s.dev.arrClean (.prog s.dev.inactive) →
      let d := s.dev
      let own : ProgSt := { d.prog with checkEnd := none }
      let err := d.packageErr d.inactive
      (d.get R.PROG_STAT_STATE ≠ 2 → s.ignores (.checkingDone miss))
        ∧ (d.get R.PROG_STAT_STATE = 2 → err ≠ 0 →
          s.ends (.checkingDone miss) { (d.put R.PROG_STAT_STATE 6).put R.PROG_STAT_ERR err with prog := own })
        ∧ (d.get R.PROG_STAT_STATE = 2 → err = 0 → s.endsIn (.checkingDone miss) (fun u =>
            u.get R.PROG_STAT_STATE = (if miss then 6 else 3) ∧ (miss = true → u.get R.PROG_STAT_ERR = 0x0D)
              ∧ (miss = false → u.get R.PROG_STAT_ERR = d.get R.PROG_STAT_ERR) ∧ u.get R.PROG_STAT_ACTIVE = d.get R.PROG_STAT_ACTIVE
              ∧ u.cores = d.cores ∧ u.scan = d.scan))
        ∧ (d.get R.PROG_STAT_STATE ≠ 5 → s.ignores .commitPoint)
        ∧ (d.get R.PROG_STAT_STATE = 5 → d.sys.fatal = false → d.prog.held = [] → s.endsIn .commitPoint (fun u =>
            let w := u.core (tileCore t)
            u.get R.PROG_STAT_STATE = 0 ∧ u.get R.PROG_STAT_ACTIVE = 1 - d.get R.PROG_STAT_ACTIVE
              ∧ u.rd R.PROG_ID.addr = BitVec.ofNat 32 (d.pkgId d.inactive) ∧ u.prog.loaded = true ∧ u.scan.chg = true
              ∧ (u.scan.mustCold = true ↔ d.scan.mustCold = true ∨ d.pkgFull d.inactive = true ∨ d.prog.fullLoad = true)
              ∧ w.s0 = RegSet.zero ∧ w.s1 = RegSet.zero ∧ w.latch = .empty ∧ w.t4Loaded = false ∧ u.icache = [])))

/-! ## The Mule and the motion groups -/

/-- R205, R211, R212: a command bit of an axis whose ring runs waits for t_n and does nothing else; SWAP makes the swap pending,
and has no effect while one is. A pair's active member mirrors the write.

R211, R212, R214, Table 8.5: an axis without a sample clock takes its commands at once: ENABLE is refused with MAPDENY and
event 100, DISABLE and CLR_FAULT return it to DISABLED, PEAK_CLR clears the peak, and a swap takes place with event 98.

R211, R212: DIS_ALL disables every axis, at its next sample or at once; SWAP_LIST makes the swap of every selected axis
pending, or is refused with LDENY while a list is pending or a named axis has a swap pending. -/
def Obligations.AxisAndMuleCommands : Prop :=
  (∀ (s : State) (r : Req) (n : Fin 128), s.dev.reaches r (R.AXIS_CMD n.val).addr = true → s.dev.sampled n.val = true →
      let after (v : Nat) : Dev := s.dev.told (R.AXIS_CMD n.val) (BitVec.ofNat 32 v)
      let waits (i : Instr) (v : Nat) : Prop := s.ends i ((after v).updAxis n.val (fun a => { a with cmd := a.cmd ||| v }))
      waits (.axisEnable r n) 1 ∧ waits (.axisDisable r n) 2 ∧ waits (.clrFault r n) 4 ∧ waits (.peakClr r n) 16
        ∧ (s.dev.flag (R.AXIS_STAT_PEND n.val) = false → s.ends (.axisSwap r n)
            (((after 8).put (R.AXIS_STAT_PEND n.val) 1).updAxis n.val (fun a => { a with listSwap := false, listDone := false })))
        ∧ (s.dev.flag (R.AXIS_STAT_PEND n.val) = true → s.ends (.axisSwap r n) ((after 8).updAxis n.val id)))
  ∧ (∀ (s : State) (r : Req) (n : Fin 128), s.dev.reaches r (R.AXIS_CMD n.val).addr = true → s.dev.resting n.val = true →
      s.dev.uncoupled n.val = true → (s.dev.axis n.val).cmd = 0 → s.dev.flag (R.AXIS_STAT_PEND n.val) = false →
      s.dev.flag R.MULE_STAT_LPEND = false → s.dev.mule.evs = [] →
      let d := s.dev
      let st := d.get (R.AXIS_STAT_STATE n.val)
      let bank := d.get (R.AXIS_STAT_BANK n.val)
      let ev (u : Dev) (x : Nat) : Prop := u.flag ((R.EV_RAISED 3).bit (x - 96)) = true
      (st = 0 → s.endsIn (.axisEnable r n) (fun u => u.get (R.AXIS_STAT_STATE n.val) = 0 ∧ u.get (R.AXIS_STAT_MAPDENY n.val) = 1 ∧ ev u 100))
        ∧ s.endsIn (.axisDisable r n) (fun u => u.get (R.AXIS_STAT_STATE n.val) = 0
            ∧ (st ≠ 0 → u.get (R.AXIS_STAT_FCODE n.val) = 0 ∧ u.get (R.AXIS_OUT n.val) = 0))
        ∧ s.endsIn (.clrFault r n) (fun u => u.get (R.AXIS_STAT_STATE n.val) = (if st = 3 then 0 else st)
            ∧ (st = 3 → u.get (R.AXIS_STAT_FCODE n.val) = 0 ∧ u.get (R.AXIS_OUT n.val) = 0))
        ∧ s.endsIn (.peakClr r n) (fun u => u.get (R.AXIS_FE_PEAK n.val) = 0 ∧ u.get (R.AXIS_STAT_STATE n.val) = st)
        ∧ s.endsIn (.axisSwap r n) (fun u => u.get (R.AXIS_STAT_BANK n.val) = 1 - bank ∧ u.get (R.AXIS_STAT_PEND n.val) = 0
            ∧ u.get (R.AXIS_SWAP_CNT n.val) = (d.get (R.AXIS_SWAP_CNT n.val) + 1) % 2 ^ 32 ∧ ev u 98
            ∧ (∀ i : Fin 32, u.rd (R.COEF n.val 0 i.val).addr = d.rd (R.COEF n.val 0 i.val).addr)))
  ∧ (∀ (s : State) (r : Req) (n : Fin 128), s.dev.reaches r R.MULE_CMD.addr = true →
      let d := s.dev
      let sel (m : Nat) : Prop := (d.rd (R.SWAP_SEL (m / 32)).addr).getLsbD (m % 32) = true
      let busy : Prop := d.flag R.MULE_STAT_LPEND = true ∨ ∃ m : Fin 128, sel m.val ∧ d.flag (R.AXIS_STAT_PEND m.val) = true
      ((∀ m : Fin 128, d.sampled m.val = true) → s.endsIn (.disAll r) (fun u =>
          (u.axis n.val) = { d.axis n.val with cmd := (d.axis n.val).cmd ||| 2 } ∧ u.regs = d.regs ∧ u.mem = d.mem))
        ∧ (d.resting n.val = true → d.uncoupled n.val = true → (d.axis n.val).cmd = 0 → d.mule.evs = [] →
          d.flag R.MULE_STAT_LPEND = false → (∀ m : Fin 128, d.flag (R.AXIS_STAT_PEND m.val) = false) →
          s.endsIn (.disAll r) (fun u => u.get (R.AXIS_STAT_STATE n.val) = 0))
        ∧ (busy → d.mule.evs = [] → s.ends (.swapList r) ((d.told R.MULE_CMD 1).put R.MULE_STAT_LDENY 1))
        ∧ (¬ busy → (∀ m : Fin 128, sel m.val → d.sampled m.val = true) → (∃ m : Fin 128, sel m.val) → d.mule.evs = [] →
          s.endsIn (.swapList r) (fun u => u.get R.MULE_STAT_LPEND = 1
            ∧ u.get (R.AXIS_STAT_BANK n.val) = d.get (R.AXIS_STAT_BANK n.val)
            ∧ (sel n.val → u.get (R.AXIS_STAT_PEND n.val) = 1) ∧ (¬ sel n.val → u.get (R.AXIS_STAT_PEND n.val) = d.get (R.AXIS_STAT_PEND n.val)))))

/-- R209, R210, R226: a coefficient of the active bank, or of any bank while a swap is pending, is discarded and sets ACTW; MAP,
FB_CFG and POS_OFS, and a change of OMODE or SPSRC, are discarded unless the axis is DISABLED, and the setpoints unless SPSRC is 1,
and set WDENY. A write that is taken changes that register alone (for an axis whose ring runs).

R219, R222: a gantry couple's CTRL is refused with DENY while it is enabled and an axis of it is not DISABLED, and when the write
enables a couple whose axes are equal, busy, on different rings or in another couple; OFS while the couple is enabled and busy. -/
def Obligations.AxisAndGantryWrites : Prop :=
  (∀ (s : State) (r : Req) (n : Fin 128) (b : Bool) (i : Fin 32) (v : BitVec 32), s.dev.reaches r (R.AXIS_CTRL n.val).addr = true →
      s.dev.reaches r (R.COEF n.val 0 0).addr = true →
      let d := s.dev
      let st := d.get (R.AXIS_STAT_STATE n.val)
      let coef := R.COEF n.val (b2n b) i.val
      let wdeny (f : Fld) : Dev := (d.told f v).put (R.AXIS_STAT_WDENY n.val) 1
      let shut : Prop := d.get (R.AXIS_STAT_BANK n.val) = b2n b ∨ d.flag (R.AXIS_STAT_PEND n.val) = true
      let ctrl := R.AXIS_CTRL n.val
      let moved : Prop := (d.rd ctrl.addr ^^^ v) &&& 0xC ≠ 0
      (shut → s.ends (.coefficientWrite r n b i v) ((d.told coef v).put (R.AXIS_STAT_ACTW n.val) 1))
        ∧ (¬ shut → s.ends (.coefficientWrite r n b i v) ((d.told coef v).lay coef 0xFFFFFFFF v))
        ∧ (st ≠ 0 → s.ends (.axisConfigWrite r n .map v) (wdeny (R.AXIS_MAP n.val))
            ∧ s.ends (.axisConfigWrite r n .fbCfg v) (wdeny (R.AXIS_FB_CFG n.val))
            ∧ s.ends (.axisConfigWrite r n .posOfs v) (wdeny (R.AXIS_POS_OFS n.val)))
        ∧ (d.flag (R.AXIS_CTRL_SPSRC n.val) = false → s.ends (.axisConfigWrite r n .posSp v) (wdeny (R.AXIS_POS_SP n.val))
            ∧ s.ends (.axisConfigWrite r n .velSp v) (wdeny (R.AXIS_VEL_SP n.val))
            ∧ s.ends (.axisConfigWrite r n .accSp v) (wdeny (R.AXIS_ACC_SP n.val)))
        ∧ (d.sampled n.val = true →
          (st = 0 → s.ends (.axisConfigWrite r n .fbCfg v) ((d.told (R.AXIS_FB_CFG n.val) v).lay (R.AXIS_FB_CFG n.val) 0xFF0F v)
            ∧ s.ends (.axisConfigWrite r n .posOfs v) ((d.told (R.AXIS_POS_OFS n.val) v).lay (R.AXIS_POS_OFS n.val) 0xFFFFFFFF v))
          ∧ (d.flag (R.AXIS_CTRL_SPSRC n.val) = true →
            s.ends (.axisConfigWrite r n .posSp v) ((d.told (R.AXIS_POS_SP n.val) v).lay (R.AXIS_POS_SP n.val) 0xFFFFFFFF v)
            ∧ s.ends (.axisConfigWrite r n .velSp v) ((d.told (R.AXIS_VEL_SP n.val) v).lay (R.AXIS_VEL_SP n.val) 0xFFFFFFFF v)
            ∧ s.ends (.axisConfigWrite r n .accSp v) ((d.told (R.AXIS_ACC_SP n.val) v).lay (R.AXIS_ACC_SP n.val) 0xFFFFFFFF v))
          ∧ (st = 0 ∨ ¬ moved → s.ends (.axisConfigWrite r n .ctrl v) ((d.told ctrl v).lay ctrl 0xFF v))
          ∧ (st ≠ 0 → moved → s.ends (.axisConfigWrite r n .ctrl v) (((d.told ctrl v).put (R.AXIS_STAT_WDENY n.val) 1).lay ctrl 0xF3 v)))
        ∧ (st = 0 → d.mule.evs = [] → s.endsIn (.axisConfigWrite r n .map v) (fun u =>
            u.rd (R.AXIS_MAP n.val).addr = laid 0x81FF (d.rd (R.AXIS_MAP n.val).addr) v)))
  ∧ (∀ (s : State) (r : Req) (g : Fin 16) (v : BitVec 32), s.dev.reaches r (R.GANTRY_CTRL g.val).addr = true →
      let d := s.dev
      let ctrl := R.GANTRY_CTRL g.val
      let l := (v.extractLsb' 0 7).toNat
      let f := (v.extractLsb' 8 7).toNat
      let idle (n : Nat) : Prop := d.get (R.AXIS_STAT_STATE n) = 0
      let quiet : Prop := idle (d.get (R.GANTRY_CTRL_L g.val)) ∧ idle (d.get (R.GANTRY_CTRL_F g.val))
      let other : Prop := ∃ h : Fin 16, h ≠ g ∧ d.flag (R.GANTRY_CTRL_EN h.val) = true
        ∧ (d.get (R.GANTRY_CTRL_L h.val) = l ∨ d.get (R.GANTRY_CTRL_L h.val) = f ∨ d.get (R.GANTRY_CTRL_F h.val) = l ∨ d.get (R.GANTRY_CTRL_F h.val) = f)
      let deny : Prop := (d.flag (R.GANTRY_CTRL_EN g.val) = true ∧ ¬ quiet)
        ∨ (v.getLsbD 31 = true ∧ (¬ idle l ∨ ¬ idle f ∨ l = f ∨ other ∨ d.get (R.AXIS_MAP_RING l) ≠ d.get (R.AXIS_MAP_RING f)))
      let denied (x : Fld) : Dev := (d.told x v).put (R.GANTRY_STAT_DENY g.val) 1
      (deny → s.ends (.gantryCtrlWrite r g v) (denied ctrl))
        ∧ (¬ deny → s.ends (.gantryCtrlWrite r g v) ((d.told ctrl v).lay ctrl 0x8000FF7F v))
        ∧ (d.flag (R.GANTRY_CTRL_EN g.val) = true → ¬ quiet → s.ends (.gantryOfsWrite r g v) (denied (R.GANTRY_OFS g.val)))
        ∧ (¬ (d.flag (R.GANTRY_CTRL_EN g.val) = true ∧ ¬ quiet) →
            s.ends (.gantryOfsWrite r g v) ((d.told (R.GANTRY_OFS g.val) v).lay (R.GANTRY_OFS g.val) 0xFFFFFFFF v)))

/-- R227, R228, R239: a group is enabled when it has members, no axis twice or in another enabled group, every one of them with a
sample clock, all of the same cycle time, and a source below 0b10; else DENY. CFG and MEMBER of an enabled group are guarded. The
bits of GROUP_CMD wait for t_n.

R232, R233, R234, R235: WR of a queue moves forward by at most 64 and to at most 64 entries ahead of RD, and COUNT follows; any
other write of it sets QERR and raises event 107, once per group cycle (R243). A word of an occupied entry, or of a queue fed by a host ring, is discarded with QERR. -/
def Obligations.GroupCommandsAndQueues : Prop :=
  (∀ (s : State) (r : Req) (g : Fin 16) (k : Fin 8) (v : BitVec 32), s.dev.reaches r (R.GROUP_CFG g.val).addr = true →
      let d := s.dev
      let cfg := R.GROUP_CFG g.val
      let axis (j : Fin 8) : Nat := d.get (R.GROUP_MEMBER_AXIS_AXIS g.val j.val)
      let isIn (h : Fin 16) (j : Fin 8) : Prop := d.flag (R.GROUP_MEMBER_AXIS_EN h.val j.val) = true
      let time (j : Fin 8) : Nat := 15625 * 2 ^ d.get (R.RING_CFG_CTC (d.get (R.AXIS_MAP_RING (axis j))))
      let fit (src : Nat) : Prop := src < 2 ∧ (∃ j, isIn g j) ∧ (∀ j, isIn g j → d.sampled (axis j) = true
        ∧ (∀ i, isIn g i → i ≠ j → axis i ≠ axis j ∧ time i = time j)
        ∧ ∀ (h : Fin 16) (i : Fin 8), d.flag (R.GROUP_CFG_EN h.val) = true → isIn h i → d.get (R.GROUP_MEMBER_AXIS_AXIS h.val i.val) ≠ axis j)
      let on := v ||| 0x80000000
      let st := d.get (R.GROUP_STAT_STATE g.val)
      let wr (w : BitVec 32) : Dev := (d.told cfg w).lay cfg 0x8000FF03 w
      let denied (f : Fld) (w : BitVec 32) : Dev := (d.told f w).put (R.GROUP_STAT_DENY g.val) 1
      let waits (i : Instr) (n : Nat) : Prop :=
        s.ends i ((d.told (R.GROUP_CMD g.val) (BitVec.ofNat 32 n)).updGrp g.val (fun x => { x with cmd := x.cmd ||| n }))
      let mem := R.GROUP_MEMBER_AXIS g.val k.val
      (d.flag (R.GROUP_CFG_EN g.val) = false →
          (fit (v.extractLsb' 0 2).toNat → s.ends (.groupEnable r g v) ((wr on).updGrp g.val (fun x => { x with initPlan := true })))
          ∧ (¬ fit (v.extractLsb' 0 2).toNat → s.ends (.groupEnable r g v) (denied cfg on))
          ∧ (v.getLsbD 31 = false → s.ends (.groupCfgWrite r g v) (wr v))
          ∧ s.ends (.memberWrite r g k v) ((d.told mem v).lay mem 0x807F v))
        ∧ (d.flag (R.GROUP_CFG_EN g.val) = true →
          (v.getLsbD 31 = true → v.extractLsb' 0 2 = (d.rd cfg.addr).extractLsb' 0 2 → s.ends (.groupCfgWrite r g v) (wr v))
          ∧ (v.getLsbD 31 = true → v.extractLsb' 0 2 ≠ (d.rd cfg.addr).extractLsb' 0 2 → s.ends (.groupCfgWrite r g v) (denied cfg v))
          ∧ (v.getLsbD 31 = false → (st = 0 ∨ st = 6) → s.ends (.groupCfgWrite r g v) (wr v))
          ∧ (v.getLsbD 31 = false → ¬ (st = 0 ∨ st = 6) → s.ends (.groupCfgWrite r g v) (denied cfg v))
          ∧ s.ends (.memberWrite r g k v) (denied mem v))
        ∧ waits (.go r g) 1 ∧ waits (.stop r g) 2 ∧ waits (.qstop r g) 4 ∧ waits (.resume r g) 8 ∧ waits (.flush r g) 16)
  ∧ (∀ (s : State) (r : Req) (g : Fin 16) (i : Fin 1024) (v : BitVec 32), s.dev.reaches r (R.GROUP_QPTR g.val).addr = true →
      s.dev.reaches r (R.SEGQ g.val 0).addr = true → s.dev.mule.evs = [] →
      let d := s.dev
      let new := (v.extractLsb' 0 7).toNat
      let old := d.get (R.GROUP_QPTR_WR g.val)
      let rd := d.get (R.GROUP_QPTR_RD g.val)
      let host : Prop := d.get (R.GROUP_CFG_SRC g.val) = 1
      let ahead (a b : Nat) : Nat := (a + 128 - b) % 128
      let legal : Prop := ahead new rd ≤ 64 ∧ ahead new old ≤ 64
      let told := d.told (R.GROUP_QPTR g.val) v
      let refused := told.put (R.GROUP_STAT_QERR g.val) 1
      let member (j : Fin 8) : Prop := d.flag (R.GROUP_MEMBER_AXIS_EN g.val j.val) = true
      let ring (j : Fin 8) : Nat := d.get (R.AXIS_MAP_RING (d.get (R.GROUP_MEMBER_AXIS_AXIS g.val j.val)))
      let time (j : Fin 8) : Nat := 15625 * 2 ^ d.get (R.RING_CFG_CTC (ring j))
      let cycles (j : Fin 8) : Prop := member j ∧ d.get (R.RING_STAT_STATE (ring j)) = 5
      let q := R.SEGQ g.val (i.val / 2)
      let occupied : Prop := (i.val / 16 + 128 - rd) % 64 < ahead old rd
      let mask : BitVec 32 := if i.val % 2 = 0 then 0xFFFF else 0xFFFF0000
      let w : BitVec 32 := if i.val % 2 = 0 then (v.extractLsb' 0 16).setWidth 32 else v.extractLsb' 0 16 ++ (0 : BitVec 16)
      let noted := d.noteMuleWr q.addr mask w
      (host → s.ends (.qptrWrite r g v) refused)
        ∧ (¬ host → ¬ legal → (∀ j, ¬ cycles j) → s.ends (.qptrWrite r g v) (refused.raise 107))
        ∧ (¬ host → ¬ legal → ∀ j, member j → (∀ i < j, ¬ member i) → (∃ i, cycles i) →
            ((time j, 107) ∈ d.mule.seen → s.ends (.qptrWrite r g v) refused)
            ∧ ((time j, 107) ∉ d.mule.seen → s.ends (.qptrWrite r g v)
                ({ refused with mule := { d.mule with seen := (time j, 107) :: d.mule.seen } }.raise 107)))
        ∧ (¬ host → legal → s.endsIn (.qptrWrite r g v) (fun u => u.get (R.GROUP_QPTR_WR g.val) = new ∧ u.get (R.GROUP_QPTR_RD g.val) = rd
            ∧ u.get (R.GROUP_QPTR_COUNT g.val) = ahead new rd ∧ u.mem = d.mem
            ∧ u.get (R.GROUP_STAT_QERR g.val) = d.get (R.GROUP_STAT_QERR g.val)))
        ∧ (host ∨ occupied → s.ends (.queueEntryWrite r g i (v.extractLsb' 0 16)) (noted.put (R.GROUP_STAT_QERR g.val) 1))
        ∧ (¬ host → ¬ occupied → s.ends (.queueEntryWrite r g i (v.extractLsb' 0 16)) (noted.lay q mask w)))

/-! ## The rings -/

/-- R261, R263, R264, R265, R272, R291: START in OFF or ERROR clears the error, the heal state and the counters and enters LINK,
which is over at once where both ports are synchronized, or ERROR with 0x0B when CFG or a cycle point is out of range; STOP in RUN sends 8 more frames and faults the ring's axes with code 6;
CFG and the schedule are guarded outside OFF and ERROR; a service request is refused unless the ring is in SYNC or RUN. -/
def Obligations.RingRegisterCommands : Prop :=
  ∀ (s : State) (r : Req) (x : Fin 4) (p : Fin 8) (k : Fin 32) (e : Fin 1024) (n : Fin 128) (op : Fin 4) (ix : BitVec 16) (v : BitVec 32),
    s.dev.writes r (R.RING_CFG x.val) = true → s.dev.writes r (R.RING_SCHED_LO x.val 0) = true → s.dev.ecc = [] →
    let d := s.dev
    let st := d.get (R.RING_STAT_STATE x.val)
    let off : Prop := st = 0 ∨ st = 7
    let T := 15625 * 2 ^ d.get (R.RING_CFG_CTC x.val)
    let nn := d.get (R.RING_CFG_NNODE x.val)
    let deny : Dev := d.put (R.RING_STAT_DENY x.val) 1
    let cfgOk : Prop := d.get (R.RING_CFG_CTC x.val) ≤ 5 ∧ 1 ≤ nn ∧ nn ≤ (if d.get (R.RING_CFG_CTC x.val) = 0 then 16 else 32)
      ∧ d.get (R.RING_CFG_NPL x.val) ≤ 5 ∧ ∀ q : Fin 8, d.flag (R.RING_CPT_EN x.val q.val) = true → d.flag (R.RING_CPT_REL x.val q.val) = false →
        d.get (R.RING_CPT_OFS x.val q.val) < T
    let late : Prop := v.getLsbD 31 = true ∧ v.getLsbD 30 = false ∧ T ≤ (v.extractLsb' 0 19).toNat
    let zero (u : Dev) : Prop := ∀ f ∈ [R.RING_SLOT_MISS x.val, R.RING_EARLY x.val, R.RING_LATE x.val, R.RING_FCS_ERR x.val,
      R.RING_STRAY x.val, R.RING_MF_LOST x.val, R.RING_BREAK_CNT x.val, R.RING_NODE_MISS x.val k.val], u.get f = 0
    let svcBad : Prop := d.flag (R.RING_SVC_STAT_BUSY x.val) = true ∨ ¬ (st = 4 ∨ st = 5) ∨ nn ≤ k.val ∨ ¬ (op.val = 1 ∨ op.val = 2)
    let tag := ((d.ring x.val).tag + 1) % 256
    (¬ off → s.ends (.ringStart r x) deny)
      ∧ (off → cfgOk → s.endsIn (.ringStart r x) (fun u =>
          u.get (R.RING_STAT_STATE x.val) = (if (d.ring x.val).linkOut ∧ (d.ring x.val).linkIn then 2 else 1) ∧ u.get (R.RING_STAT_ERR x.val) = 0
          ∧ u.get (R.RING_STAT_HEALED x.val) = 0 ∧ u.get (R.RING_HEAL_STAT_JLAST x.val) = 0xFF ∧ zero u
          ∧ u.get (R.RING_NODE_AERR x.val k.val) = d.get (R.RING_NODE_AERR x.val k.val) ∧ (u.ring x.val).stepAt = d.time))
      ∧ (off → ¬ cfgOk → s.endsIn (.ringStart r x) (fun u => u.get (R.RING_STAT_STATE x.val) = 7 ∧ u.get (R.RING_STAT_ERR x.val) = 0x0B ∧ zero u))
      ∧ (1 ≤ st → st ≤ 4 → s.ends (.ringStop r x) (d.updRing x.val (fun q => { q with stopAsked := true })))
      ∧ (st = 0 ∨ 6 ≤ st → s.ignores (.ringStop r x))
      ∧ (st = 5 → d.mule.evs = [] → s.endsIn (.ringStop r x) (fun u => u.get (R.RING_STAT_STATE x.val) = 6 ∧ (u.ring x.val).stopLeft = 8
          ∧ (d.flag (R.AXIS_MAP_EN n.val) = true → d.get (R.AXIS_MAP_RING n.val) = x.val → d.get (R.AXIS_STAT_STATE n.val) = 2 →
              d.uncoupled n.val = true → (d.axis n.val).cmd = 0 →
              u.get (R.AXIS_STAT_STATE n.val) = 3 ∧ u.get (R.AXIS_STAT_FCODE n.val) = 6)))
      ∧ s.endsIn (.cntClr r x) (fun u => zero u ∧ u.get (R.RING_NODE_AERR x.val k.val) = 0 ∧ u.get (R.RING_STAT x.val) = d.get (R.RING_STAT x.val))
      ∧ (late → ¬ off → s.ends (.cptWrite r x p v) deny)
      ∧ (off ∨ ¬ late → s.ends (.cptWrite r x p v) (d.lay (R.RING_CPT x.val p.val) 0xC007FFFF v))
      ∧ (off → s.ends (.ringConfigWrite r x .cfg v) (d.lay (R.RING_CFG x.val) 0x00FF3FF7 v)
          ∧ s.ends (.ringConfigWrite r x (.sched e false) v) (d.lay (R.RING_SCHED_LO x.val e.val) 0x801F0000 v)
          ∧ s.ends (.ringConfigWrite r x (.sched e true) v) (d.lay (R.RING_SCHED_HI x.val e.val) 0x0007FFFF v))
      ∧ (¬ off → s.ends (.ringConfigWrite r x .cfg v) deny ∧ s.ends (.ringConfigWrite r x (.sched e false) v) deny
          ∧ s.ends (.ringConfigWrite r x (.sched e true) v) deny)
      ∧ (svcBad → s.ends (.svcGo r x k op ix) (d.put (R.RING_SVC_STAT_DENY x.val) 1))
      ∧ (¬ svcBad → s.ends (.svcGo r x k op ix) ((d.put (R.RING_SVC_STAT_BUSY x.val) 1).updRing x.val (fun q => { q with
          tag := tag, req := some { tag := tag, op := op.val, node := k.val, index := ix.toNat, data := d.rd (R.RING_SVC_DATA x.val).addr,
                                    cycles := 0, own := true } })))

/-- R250, R254, R255, R256, R263, R264, Table 10.10: the start-up steps: LINK ends when both ports are synchronized; an
enumeration frame with its octets leaves every 100 µs and its return gives LOOP; three equal ones in a row give the next step or
ERR 4, 5, 6 or 9; 16 good cycles end SYNC; a step that passes its bound is an error; the 8 frames of STOPPING end in OFF. -/
def Obligations.RingStartUp : Prop :=
  ∀ (s : State) (x : Fin 4) (count dly eseq turn : Nat) (t : BitVec 64) (a b : Nat), s.dev.sys.held = false → s.dev.ecc = [] →
    s.dev.get R.PAIR_STAT_ROLE ≠ 2 →
    let d := s.dev
    let q := d.ring x.val
    let st := d.get (R.RING_STAT_STATE x.val)
    let open' (o : Bool) (p : PassSt) : PassSt :=
      if o then (if p.lostOut then { p with lostOut := false, fwdOut := d.time + 10000000 } else p)
      else (if p.lostIn then { p with lostIn := false, fwdIn := d.time + 10000000 } else p)
    let up (o : Bool) (y : Dev) : Dev := (y.updRing x.val (fun q =>
        { (if o then { q with linkOut := true } else { q with linkIn := true }) with pass := open' o q.pass })).put
      (if o then R.RING_HEAL_STAT_OUT_UP x.val else R.RING_HEAL_STAT_IN_UP x.val) 1
    let gone := d.time.toNat - q.stepAt.toNat
    let err (u : Dev) (n : Nat) : Prop := u.get (R.RING_STAT_STATE x.val) = 7 ∧ u.get (R.RING_STAT_ERR x.val) = n
    let loop := d.time.toNat - t.toNat
    let near (l : Nat) : Prop := l ≤ loop + 8 ∧ loop ≤ l + 8
    let back : Prop := st = 2 ∧ q.enumAt = some t ∧ eseq = q.eseq ∧ q.enumN ≠ eseq + 1 ∧ t.toNat ≤ d.time.toNat ∧ loop < 2 ^ 32
    let next : Prop := q.enumN % 65536 = eseq
    let third : Prop := back ∧ next ∧ q.enumLoops = [a, b] ∧ near a ∧ near b ∧ q.enumCount = count
    let one (u : Dev) : Prop := u.get (R.RING_LOOP x.val) = loop ∧ u.get (R.RING_STAT_STATE x.val) = 2
      ∧ (u.ring x.val).enumLoops = [loop] ∧ (u.ring x.val).enumCount = count
    let octets (bs : List (BitVec 8)) (type : Nat) : Prop := bs.length = 68 ∧ octet bs 12 = 0x88 ∧ octet bs 13 = 0xB5
      ∧ octet bs 14 = type ∧ octet bs 15 = 0x10 ∧ fcsOf bs = true
    (st ≠ 1 → s.ends (.linkSynchronized x .outp) (up true d) ∧ s.ends (.linkSynchronized x .inp) (up false d)
        ∧ s.ends (.pcsSyncRegained x .outp) (up true d) ∧ s.ends (.pcsSyncRegained x .inp) (up false d))
      ∧ (st = 1 → q.linkIn = true → s.endsIn (.linkSynchronized x .outp) (fun u => u.get (R.RING_STAT_STATE x.val) = 2
          ∧ u.get (R.RING_HEAL_STAT_OUT_UP x.val) = 1 ∧ u.mw .live (x.val * 0x800 + 2) = 2 ∧ (u.ring x.val).stepAt = d.time))
      ∧ (st = 1 → q.linkIn = false → s.ends (.linkSynchronized x .outp) (up true d))
      ∧ (st = 1 → 10000000 ≤ gone → s.endsIn (.startStepTimeout x) (fun u => err u (if q.linkOut then 2 else 1)))
      ∧ (st = 2 → 20000000 ≤ gone → s.endsIn (.startStepTimeout x) (fun u => err u 3))
      ∧ (st = 4 → 100000000 ≤ gone → q.toRun = false → s.endsIn (.startStepTimeout x) (fun u => err u 0x0A))
      ∧ (st = 1 → gone < 10000000 → s.ignores (.startStepTimeout x))
      ∧ (st = 2 → q.enumAt = none → s.ends (.enumFrameSend x)
          ((d.updRing x.val (fun q => { q with eseq := (q.eseq + 1) % 65536, enumAt := some d.time })).emit
            (.enumFrame x.val (enumOctets x.val ((q.eseq + 1) % 65536)))))
      ∧ (eseq < 65536 → octets (enumOctets x.val eseq) 3 ∧ octetsVal (enumOctets x.val eseq) 16 6 = 0
          ∧ octetsVal (enumOctets x.val eseq) 22 2 = eseq)
      ∧ (st = 2 → q.enumAt = some t → d.time.toNat < t.toNat + 100000 → s.ignores (.enumFrameSend x))
      ∧ (back → q.enumLoops = [] → s.endsIn (.enumFrameReturn x count dly eseq) one)
      ∧ (back → ¬ next → s.endsIn (.enumFrameReturn x count dly eseq) one)
      ∧ (¬ back → t.toNat ≤ d.time.toNat → loop < 2 ^ 32 → q.enumAt = some t → s.ignores (.enumFrameReturn x count dly eseq))
      ∧ (third → 32 < count → s.endsIn (.enumFrameReturn x count dly eseq) (fun u => err u 5 ∧ u.get (R.RING_STAT_FOUND x.val) = min 255 count))
      ∧ (third → count ≤ 32 → count ≠ d.get (R.RING_CFG_NNODE x.val) → s.endsIn (.enumFrameReturn x count dly eseq) (fun u => err u 4))
      ∧ (third → count ≤ 32 → count = d.get (R.RING_CFG_NNODE x.val) → (loop < dly ∨ dly + 1000 < loop) →
          s.endsIn (.enumFrameReturn x count dly eseq) (fun u => err u 6))
      ∧ (third → count ≤ 32 → count = d.get (R.RING_CFG_NNODE x.val) → dly ≤ loop → loop ≤ dly + 1000 → d.flag (R.RING_CFG_AUTO x.val) = false →
          s.endsIn (.enumFrameReturn x count dly eseq) (fun u => u.get (R.RING_LOOP x.val) = loop
            ∧ (if u.scheduleOk x.val then u.get (R.RING_STAT_STATE x.val) = 3 ∧ (u.ring x.val).cfgNode = 0 else err u 9)))
      ∧ (st = 4 → 16 ≤ q.syncGood → s.ends (.ringSyncDone x) (d.updRing x.val (fun q => { q with toRun := true })))
      ∧ (st ≠ 4 ∨ q.syncGood < 15 → s.ignores (.ringSyncDone x))
      ∧ (st = 6 → q.stopLeft = 0 → s.endsIn (.ringStopDone x) (fun u => u.get (R.RING_STAT_STATE x.val) = 0))
      ∧ (st ≠ 6 ∨ q.stopLeft ≠ 0 → s.ignores (.ringStopDone x))
      ∧ (q.linkOut = true → turn ≤ 10000 → s.ends (.linkDelayRequest x .outp eseq turn)
          (d.emit (.linkFrame x.val .outp (linkOctets 5 x.val eseq turn))))
      ∧ (eseq < 65536 → turn < 2 ^ 32 → octets (linkOctets 5 x.val eseq turn) 5 ∧ octetsVal (linkOctets 5 x.val eseq turn) 16 2 = eseq
          ∧ octetsVal (linkOctets 5 x.val eseq turn) 18 4 = turn)

/-- R204, R213, R248, R251, R266, R268, R270, R290: t_n of a ring in RUN: CYC is t_n divided by the cycle time, the master frame
leaves with it (after a takeover D_s + LAT_s later), in the octets of Table 10.3, and the slot of an ENABLED axis carries its
command word, with the drive-enable bit, and its OUT; the Q region is picked up 1,000 ns before the next t_n; a cycle point raises
its event once, with its own time. -/
def Obligations.RingCycleAndPoints : Prop :=
  ∀ (s : State) (x : Fin 4) (p : Fin 8) (n : Fin 128) (m : MasterFrame) (k : Fin 32) (j : Fin 16),
    s.dev.sys.held = false → s.dev.ecc = [] → s.dev.mule.evs = [] →
    let d := s.dev
    let q := d.ring x.val
    let T := 15625 * 2 ^ d.get (R.RING_CFG_CTC x.val)
    let t := d.time.toNat
    let st := d.get (R.RING_STAT_STATE x.val)
    let node := d.mapFld R.AXIS_MAP_NODE n.val
    let ch := d.mapFld R.AXIS_MAP_CH n.val
    let alone : Prop := ∀ m : Fin 128, m ≠ n → ¬ (d.axOn x.val m.val = true
      ∧ d.mapFld R.AXIS_MAP_NODE m.val = node ∧ d.mapFld R.AXIS_MAP_CH m.val = ch)
    let bs := m.octets x.val
    (st = 5 → t % T = 0 → q.t.toNat ≠ t → q.muleT.toNat ≠ t → q.startAt.toNat ≤ t → q.stopAsked = false → d.sys.fatal = false → d.sys.ringsOff = false →
        d.get R.PAIR_STAT_ROLE = 0 →
        s.endsIn (.ringCycleStart x) (fun u => u.get (R.RING_CYC x.val) = t / T % 2 ^ 32 ∧ (u.ring x.val).t = d.time
          ∧ (u.ring x.val).prevT = q.t
          ∧ (u.ring x.val).accepted = [] ∧ (u.ring x.val).closed = [] ∧ u.mw .live (x.val * 0x800) = BitVec.ofNat 16 (t / T)
          ∧ ∃ f rest, u.out = .master x.val q.linkOut (u.flag (R.RING_STAT_HEALED x.val) && q.linkIn && !(u.ring x.val).tko)
                (d.time + BitVec.ofNat 64 (if (u.ring x.val).tko then q.standbyDs + 200 else q.inDisp)) (MasterFrame.octets x.val f) :: rest
            ∧ f.cyc = BitVec.ofNat 16 (t / T) ∧ f.rtime = d.time ∧ f.run = true ∧ f.ctc = d.get (R.RING_CFG_CTC x.val)
            ∧ f.nslot = d.get (R.RING_CFG_NNODE x.val) ∧ f.slots.length = d.get (R.RING_CFG_NNODE x.val)
            ∧ (d.get (R.AXIS_STAT_STATE n.val) = 2 → d.axOn x.val n.val = true → alone →
                node < d.get (R.RING_CFG_NNODE x.val) →
                (f.slots.getD node []).getD (3 * ch) 0 = (d.axis n.val).par.drvCtrl.extractLsb' 0 16 ||| 1
                ∧ (f.slots.getD node []).getD (3 * ch + 1) 0 = (d.rd (R.AXIS_OUT n.val).addr).extractLsb' 0 16
                ∧ (f.slots.getD node []).getD (3 * ch + 2) 0 = (d.rd (R.AXIS_OUT n.val).addr).extractLsb' 16 16)))
      ∧ (m.ctc < 256 → m.nslot < 256 → m.svcIndex < 65536 → m.slots.length = m.nslot → (∀ w ∈ m.slots, w.length = 16) →
          (∀ i < 6, octet bs i = 0xFF) ∧ octet bs 6 = 2 ∧ octetsVal bs 7 4 = 0 ∧ octet bs 11 = x.val ∧ octet bs 12 = 0x88 ∧ octet bs 13 = 0xB5
            ∧ octet bs 14 = 1 ∧ octet bs 15 = 0x10 ∧ octetsVal bs 16 2 = m.cyc.toNat ∧ octetsVal bs 18 8 = m.rtime.toNat ∧ octet bs 26 = m.ctc
            ∧ octet bs 27 = m.nslot ∧ octet bs 28 = b2n m.run + 2 * b2n m.heal ∧ octetsVal bs 34 2 = m.svcIndex ∧ octetsVal bs 36 4 = m.svcData.toNat
            ∧ octetsVal bs 40 24 = 0 ∧ bs.length = 68 + 32 * m.nslot ∧ fcsOf bs = true
            ∧ (k.val < m.nslot → octetsVal bs (64 + 32 * k.val + 2 * j.val) 2 = ((m.slots.getD k.val []).getD j.val 0).toNat))
      ∧ (t % T ≠ 0 ∨ st = 0 ∨ st = 7 → s.ignores (.ringCycleStart x))
      ∧ (st = 5 → q.qPicked = false → q.t.toNat + T ≤ t + 1000 → s.ends (.ringQPickup x) (d.updRing x.val (fun y => { y with
          qPicked := true
          qWords := if (d.pmapOf (1 + x.val)).getLsbD 31 then
              d.mws (.qHalf (!d.scan.qShadow)) ((d.pmapOf (1 + x.val)).extractLsb' 16 15).toNat (4 * q.nnodeI)
            else [] })))
      ∧ (st = 5 → t + 1000 < q.t.toNat + T → s.ignores (.ringQPickup x))
      ∧ (∀ w, st = 5 ∨ st = 6 → p.val ∉ q.points → d.pointTime x.val p.val = some w → w ≤ t → s.endsIn (.cyclePoint x p) (fun u =>
          u.flag ((R.EV_RAISED ((16 + 8 * x.val + p.val) / 32)).bit ((16 + 8 * x.val + p.val) % 32)) = true
            ∧ u.get (R.EV_TSL (16 + 8 * x.val + p.val)) = w % 2 ^ 32 ∧ p.val ∈ (u.ring x.val).points))
      ∧ (p.val ∈ q.points ∨ d.pointTime x.val p.val = none → s.ignores (.cyclePoint x p))

/-- R258, R267, R274, R275, R278, R285, R291, Tables 10.11 and 11.3: a node frame within WIN of its slot is accepted once and its
payload, NSTAT and CYC stand in the live area with AGE 0; an early, late, repeated, damaged or stray one only counts, in every state;
one of a node that is not activated is not accepted in RUN. A slot whose window closes without a frame is missed: its age rises,
MISSMAP and the counters say so, and event 5 is raised once a cycle. A window at OUT that reaches past the next t_n still accepts
and misses for its own cycle. -/
def Obligations.RingFramesAndWindows : Prop :=
  ∀ (s : State) (x : Fin 4) (k : Fin 32) (o : Nat) (port : RingPort) (f : RxFrame), s.dev.sys.held = false → s.dev.ecc = [] →
    s.dev.mule.evs = [] → s.dev.get R.PAIR_STAT_ROLE ≠ 2 →
    let d := s.dev
    let q := d.ring x.val
    let st := d.get (R.RING_STAT_STATE x.val)
    let T := 15625 * 2 ^ d.get (R.RING_CFG_CTC x.val)
    let base := x.val * 0x800 + 0x20 + k.val * 0x20
    let win := max 8 (d.get (R.RING_CFG_WIN x.val))
    let e : Int := (d.time.toNat : Int) - q.t.toNat - o - q.inDisp
    let e' : Int := (d.time.toNat : Int) - q.prevT.toNat - o - q.prevDelta
    let counts (g : Fld) : Prop := s.endsRegs (.nodeFrameReceive x .inp f) [g, R.RING_NODE_AERR x.val k.val] (fun u =>
      u.get g = min 0xFFFFFFFF (d.get g + 1))
    let mine : Prop := st = 5 ∧ f.fcsOk = true ∧ f.isType 2 = true ∧ f.octets.length = 80 ∧ f.node.node = k.val
    let inTime : Prop := mine ∧ d.flag (R.RING_STAT_HEALED x.val) = false ∧ q.tko = false ∧ f.cyc = BitVec.ofNat 16 (d.rCyc x.val)
      ∧ d.ofsOf x.val k.val = some o
    let lateIn : Prop := mine ∧ d.flag (R.RING_STAT_HEALED x.val) = true ∧ q.t.toNat = q.prevT.toNat + T
      ∧ f.cyc = BitVec.ofNat 16 (q.prevT.toNat / T) ∧ d.prevOfs x.val k.val = some o ∧ q.prevOpen = true
      ∧ (q.t.toNat : Int) ≤ q.prevT.toNat + o + q.prevDelta + win ∧ q.late = [(k.val, false)]
    let act : Prop := f.node.nstat.getLsbD 0 = true
    let shown (u : Dev) (err : Int) : Prop := u.mw .live base = 0 ∧ u.mw .live (base + 1) = f.cyc ∧ u.mw .live (base + 2) = f.node.nstat
      ∧ u.mw .live (base + 3) = f.cyc ∧ (∀ i < 24, u.mw .live (base + 4 + i) = BitVec.ofNat 16 (octetsVal f.octets (28 + 2 * i) 2))
      ∧ (err.natAbs ≤ 32767 → u.getS (R.RING_NODE_AERR_LAST x.val k.val) = err)
    let aged := (d.mw .live base).toNat % 256
    let missed (u : Dev) : Prop := (u.mw .live base).toNat = (if aged = 255 then 255 else min 254 (aged + 1))
      ∧ u.flag ((R.RING_MISSMAP x.val).bit k.val) = true
      ∧ u.get (R.RING_SLOT_MISS x.val) = min 0xFFFFFFFF (d.get (R.RING_SLOT_MISS x.val) + 1)
      ∧ u.get (R.RING_NODE_MISS x.val k.val) = min 0xFFFFFFFF (d.get (R.RING_NODE_MISS x.val k.val) + 1)
    (inTime → act → -(win : Int) ≤ e → e ≤ win → k.val ∉ q.accepted → q.req = none → s.endsIn (.nodeFrameReceive x .inp f) (fun u =>
          shown u e ∧ k.val ∈ (u.ring x.val).accepted))
      ∧ (lateIn → act → -(win : Int) ≤ e' → e' ≤ win → q.req = none → s.endsIn (.nodeFrameReceive x .outp f) (fun u =>
          shown u e' ∧ (u.ring x.val).late = [(k.val, true)]))
      ∧ (inTime → ¬ act → -(win : Int) ≤ e → e ≤ win → k.val ∉ q.accepted →
          s.endsRegs (.nodeFrameReceive x .inp f) [R.RING_NODE_AERR x.val k.val] (fun _ => True))
      ∧ (inTime → e < -(win : Int) → counts (R.RING_EARLY x.val)) ∧ (inTime → (win : Int) < e → counts (R.RING_LATE x.val))
      ∧ (inTime → -(win : Int) ≤ e → e ≤ win → k.val ∈ q.accepted → counts (R.RING_STRAY x.val))
      ∧ (f.fcsOk = false → s.ends (.nodeFrameReceive x port f) (d.satAdd (R.RING_FCS_ERR x.val) 1))
      ∧ (f.fcsOk = true → f.isType 1 = false → f.isType 2 = false → (f.isType 4 = false ∨ port = .inp) →
          s.ends (.nodeFrameReceive x port f) (d.satAdd (R.RING_STRAY x.val) 1))
      ∧ (¬ (3 ≤ st ∧ st ≤ 6) → f.fcsOk = true → (f.isType 4 = false ∨ port = .inp) →
          s.ends (.nodeFrameReceive x port f) (d.satAdd (R.RING_STRAY x.val) 1))
      ∧ (st = 5 → d.ofsOf x.val k.val = some o → k.val ∉ q.closed → k.val ∉ q.accepted → q.outOpen = false → q.tko = false → k.val ∉ q.accOut →
          q.late = [] → (win : Int) ≤ e → s.endsIn (.windowClose x k) (fun u => missed u
            ∧ k.val ∈ (u.ring x.val).closed ∧ (q.slip = false → u.flag ((R.EV_RAISED 0).bit 5) = true)))
      ∧ (st = 5 → d.prevOfs x.val k.val = some o → q.late = [(k.val, false)] → (win : Int) ≤ e' → s.endsIn (.windowClose x k) (fun u => missed u
            ∧ (u.ring x.val).late = [] ∧ (u.ring x.val).closed = q.closed ∧ (q.lateSlip = false → u.flag ((R.EV_RAISED 0).bit 5) = true)))
      ∧ (q.late = [] → k.val ∈ q.closed ∨ d.ofsOf x.val k.val = none → s.ignores (.windowClose x k))

/-- R255, R256, R257, R278, R281, R282, R283, R286, R287, R290: two lost master frames in a row, or a lost link, break a closed ring:
HEALED, PHASE 1, BREAK_CNT and event 6; 16 clean cycles close it; 64 cycles without a node frame are ERR 0x0C; a service request
without a reply for 64 cycles ends with 0x10. A passive standby asks for the delay L of its link, takes the ring time from the
master frames, and forwards what passes through a port that may send, adding to DLY of an enumeration frame; what it cannot send
on it turns back, but for master and enumeration frames. -/
def Obligations.RingBreaksAndTimeouts : Prop :=
  ∀ (s : State) (x : Fin 4) (port : RingPort) (f : RxFrame) (y : SvcReq) (at' : BitVec 64), s.dev.sys.held = false → s.dev.ecc = [] →
    s.dev.mule.evs = [] →
    let d := s.dev
    let q := d.ring x.val
    let st := d.get (R.RING_STAT_STATE x.val)
    let sends : Prop := 3 ≤ st ∧ st ≤ 6
    let nf := (68 + 32 * d.get (R.RING_CFG_NNODE x.val)) * 32
    let due : Prop := 10 * (q.t.toNat + d.get (R.RING_LOOP x.val) + 500) + nf ≤ 10 * d.time.toNat
    let lost : Prop := sends ∧ d.flag (R.RING_STAT_HEALED x.val) = false ∧ q.mfBack = false ∧ q.mfGone = false ∧ due
    let broken (u : Dev) : Prop := u.get (R.RING_STAT_HEALED x.val) = 1 ∧ u.get (R.RING_HEAL_STAT_PHASE x.val) = 1
      ∧ u.get (R.RING_BREAK_CNT x.val) = min 0xFFFFFFFF (d.get (R.RING_BREAK_CNT x.val) + 1) ∧ u.flag ((R.EV_RAISED 0).bit 6) = true
    let link (u : Dev) : Prop := u.get (match port with | .outp => R.RING_HEAL_STAT_OUT_UP x.val | .inp => R.RING_HEAL_STAT_IN_UP x.val) = 0
    let asked : Prop := q.pass.reqAt = some at' ∧ d.time.toNat < at'.toNat + 1000000000
    let standby : Prop := d.get R.PAIR_STAT_ROLE = 2 ∧ asked
    let down : Prop := q.linkOut = true ∧ q.pass.fwdOut.toNat ≤ d.time.toNat
    let upw : Prop := q.linkIn = true ∧ q.pass.fwdIn.toNat ≤ d.time.toNat
    let L := match q.pass.link with | some l => l | none => Config.linkDelay x.val d.time.toNat
    let ds := f.dly + L
    let aside : Prop := f.isType 1 = false ∧ f.isType 3 = false ∧ f.isType 4 = false ∧ f.isType 5 = false
    let turned := enumForward f.octets (ds % 2 ^ 32)
    (lost → s.endsIn (.mfLost x) (fun u => u.get (R.RING_MF_LOST x.val) = min 0xFFFFFFFF (d.get (R.RING_MF_LOST x.val) + 1)
          ∧ (u.ring x.val).mfGone = true ∧ (u.ring x.val).mfMiss = q.mfMiss + 1
          ∧ (1 ≤ q.mfMiss → broken u) ∧ (q.mfMiss = 0 → u.get (R.RING_STAT_HEALED x.val) = 0)))
      ∧ (¬ lost → s.ignores (.mfLost x))
      ∧ s.endsIn (.ringPcsLoss x port) (fun u => link u ∧ (sends → d.flag (R.RING_STAT_HEALED x.val) = false → broken u))
      ∧ (d.flag (R.RING_STAT_HEALED x.val) = true → 16 ≤ q.clean → s.endsIn (.healClose x) (fun u => u.get (R.RING_STAT_HEALED x.val) = 0
          ∧ u.get (R.RING_HEAL_STAT_PHASE x.val) = 0 ∧ u.get (R.RING_HEAL_STAT_JLAST x.val) = 0xFF ∧ u.flag ((R.EV_RAISED 0).bit 6) = true))
      ∧ (d.flag (R.RING_STAT_HEALED x.val) = false ∨ q.clean < 16 → s.ignores (.healClose x))
      ∧ (st = 5 → 64 ≤ q.dead → s.endsIn (.ringDeadTimeout x) (fun u => u.get (R.RING_STAT_STATE x.val) = 7
          ∧ u.get (R.RING_STAT_ERR x.val) = 0x0C ∧ u.flag ((R.EV_RAISED 0).bit 6) = true))
      ∧ (st ≠ 5 ∨ q.dead < 64 → s.ignores (.ringDeadTimeout x))
      ∧ (q.req = some y → 64 < y.cycles → y.own = true → s.ends (.svcTimeout x)
          (((d.updRing x.val (fun z => { z with req := none })).put (R.RING_SVC_STAT_RESULT x.val) 0x10).put (R.RING_SVC_STAT_BUSY x.val) 0))
      ∧ (q.req = some y → 64 < y.cycles → y.own = false → s.endsIn (.svcTimeout x) (fun u => u.get (R.RING_STAT_STATE x.val) = 7
          ∧ u.get (R.RING_STAT_ERR x.val) = 7 ∧ u.get (R.RING_STAT_ERR_NODE x.val) = y.node % 32))
      ∧ (q.req = none ∨ (q.req = some y ∧ y.cycles < 64) → s.ignores (.svcTimeout x))
      ∧ (d.get R.PAIR_STAT_ROLE = 2 → q.linkIn = true → q.pass.reqAt = none → s.endsIn (.linkSynchronized x .inp) (fun u =>
          (u.ring x.val).pass.reqAt = some d.time ∧ (u.ring x.val).pass.lseq = (q.pass.lseq + 1) % 65536
            ∧ ∃ rest, u.out = .linkFrame x.val .inp (linkOctets 4 x.val ((q.pass.lseq + 1) % 65536) 0) :: rest))
      ∧ (standby → aside → down → s.ends (.standbyRingFrame x .inp f) (d.emit (.passFrame x.val true f)))
      ∧ (standby → aside → ¬ down → upw → s.ends (.standbyRingFrame x .inp f) (d.emit (.passFrame x.val false f)))
      ∧ (standby → aside → ¬ down → ¬ upw → s.ignores (.standbyRingFrame x .inp f))
      ∧ (standby → aside → upw → s.ends (.standbyRingFrame x .outp f) (d.emit (.passFrame x.val false f)))
      ∧ (standby → f.isType 3 = true → f.fcsOk = true → s.ends (.standbyRingFrame x .inp f)
          (let z := d.updRing x.val (fun z => { z with standbyDs := ds })
           if down then z.emit (.passFrame x.val true { f with octets := enumForward f.octets ((ds + 200) % 2 ^ 32) }) else z))
      ∧ (26 ≤ f.octets.length → octetsVal turned 18 4 = ds % 2 ^ 32 ∧ fcsOf turned = true ∧ turned.length = f.octets.length
          ∧ (∀ i, i < 18 ∨ (22 ≤ i ∧ i + 4 < f.octets.length) → octet turned i = octet f.octets i))
      ∧ (standby → f.isType 1 = true → f.fcsOk = true → q.pass.used ≠ some (true, f.cyc) → s.ends (.standbyRingFrame x .inp f)
          (let z := d.updRing x.val (fun z => { z with mfAt := d.time, pass := { z.pass with
             off := (f.rtime : Int) + z.standbyDs - d.time.toNat, sync := true, used := some (true, f.cyc) } })
           if down then z.emit (.passFrame x.val true f) else z))
      ∧ (standby → f.isType 5 = true → f.fcsOk = true → f.lseq = q.pass.lseq → s.ends (.standbyRingFrame x .inp f)
          (d.updRing x.val (fun z => { z with pass := { z.pass with link := some ((d.time.toNat - at'.toNat - f.dly) / 2) } })))
      ∧ (standby → f.isType 4 = true ∨ (f.isType 5 = true ∧ port = .outp) → s.ignores (.standbyRingFrame x port f))
      ∧ (d.get R.PAIR_STAT_ROLE ≠ 2 → s.ignores (.standbyRingFrame x port f))

/-! ## The CAN FD channels -/

/-- R294, R306, Tables 12.2 and 12.7: START in OFF enters SYNC, or stays in OFF with the code of the check that fails; STOP leaves SYNC,
BUSOFF and RECOVER at once with every pending buffer cancelled, ACTIVE and PASSIVE at the next bus idle; RECOVER acts in BUSOFF alone;
11 recessive bits end SYNC, and 128 occurrences of them RECOVER; listen-only ends on an active device without LOM (R307). -/
def Obligations.CanStatesAndCommands : Prop :=
  ∀ (s : State) (r : Req) (c : Fin 8) (b : Fin 32), s.dev.reaches r (R.CAN_CMD c.val).addr = true → s.dev.ecc = [] →
    let d := s.dev
    let st := d.get (R.CAN_STAT_STATE c.val)
    let arb := (d.get (R.CAN_ARBT_TQ c.val) + 1) * (d.get (R.CAN_ARBT_NQ c.val) + 1)
    let dat := (d.get (R.CAN_DATT_TQ c.val) + 1) * (d.get (R.CAN_DATT_NQ c.val) + 1)
    let fd : Prop := d.flag (R.CAN_CFG_FDOE c.val) = true
    let odd (nq spq sjw : Nat) : Prop := spq = 0 ∨ nq ≤ spq ∨ nq - spq < sjw + 1 ∨ spq < sjw + 1
    let rate : Prop := fd ∧ (dat < 125 ∨ arb < dat)
    let place : Prop := odd (d.get (R.CAN_ARBT_NQ c.val)) (d.get (R.CAN_ARBT_SPQ c.val)) (d.get (R.CAN_ARBT_SJW c.val))
      ∨ (fd ∧ odd (d.get (R.CAN_DATT_NQ c.val)) (d.get (R.CAN_DATT_SPQ c.val)) (d.get (R.CAN_DATT_SJW c.val)))
    let img : Prop := 16 < d.get (R.CAN_IMG_INUM c.val) ∨ 32 < d.get (R.CAN_IMG_QNUM c.val)
      ∨ (d.get (R.CAN_IMG_QNUM c.val) ≠ 0 ∧ d.get (R.CAN_IMG_PICK c.val) = 0)
    let refused (n : Nat) : Prop := s.ends (.canStart r c) (d.put (R.CAN_STAT_ERR c.val) n)
    let zero (u : Dev) : Prop := u.get (R.CAN_ECNT_TEC c.val) = 0 ∧ u.get (R.CAN_ECNT_REC c.val) = 0 ∧ u.flag (R.CAN_STAT_EWARN c.val) = false
    let monitor : Prop := d.flag (R.CAN_CFG_LOM c.val) = true ∨ d.get R.PAIR_STAT_ROLE = 2
    let off (u : Dev) : Prop := u.get (R.CAN_STAT_STATE c.val) = 0 ∧ u.rd (R.CAN_TXREQ c.val).addr = 0
      ∧ (d.flag ((R.CAN_TXREQ c.val).bit b.val) = true → u.flag ((R.CAN_TXFAIL c.val).bit b.val) = true
        ∧ (u.mw (.can c) (0x402 + 40 * b.val)).toNat / 1024 % 8 = 4)
    let event (u : Dev) (k : Nat) : Prop := u.flag ((R.EV_RAISED ((48 + 4 * c.val + k) / 32)).bit ((48 + 4 * c.val + k) % 32)) = true
    let q := d.canSt c.val
    (st ≠ 0 → s.ignores (.canStart r c))
      ∧ (st = 0 → (arb < 1000 → refused 1) ∧ (1000 ≤ arb → rate → refused 2) ∧ (1000 ≤ arb → ¬ rate → place → refused 3)
          ∧ (1000 ≤ arb → ¬ rate → ¬ place → img → refused 4)
          ∧ (1000 ≤ arb → ¬ rate → ¬ place → ¬ img → s.endsIn (.canStart r c) (fun u => u.get (R.CAN_STAT_STATE c.val) = 1
              ∧ u.get (R.CAN_STAT_ERR c.val) = 0 ∧ zero u ∧ u.get (R.CAN_LDC_LOK c.val) = 0 ∧ u.rd (R.CAN_RXQ_DROP c.val 0).addr = 0
              ∧ u.rd (R.CAN_RXQ_DROP c.val 1).addr = 0 ∧ (u.flag (R.CAN_STAT_LOMF c.val) = true ↔ monitor)
              ∧ u.rd (R.CAN_RXQS c.val 0).addr = d.rd (R.CAN_RXQS c.val 0).addr ∧ (u.mw .live (0x2000 + c.val * 0x100)).toNat % 8 = 1)))
      ∧ (st = 0 → s.ignores (.canStop r c))
      ∧ (st = 2 ∨ st = 3 → s.ends (.canStop r c) (d.updCan c.val (fun q => { q with stopping := true })))
      ∧ (st = 1 ∨ st = 4 ∨ st = 5 → s.endsIn (.canStop r c) off)
      ∧ (q.stopping = true → q.onBus = none → s.endsIn (.canStopDone c) off)
      ∧ (q.stopping = false ∨ q.onBus ≠ none → s.ignores (.canStopDone c))
      ∧ (st = 4 → s.endsIn (.recover r c) (fun u => u.get (R.CAN_STAT_STATE c.val) = 5 ∧ event u 3 ∧ (u.canSt c.val).recAt = d.time))
      ∧ (st ≠ 4 → s.ignores (.recover r c))
      ∧ (st = 1 → s.endsIn (.canSyncDone c) (fun u => u.get (R.CAN_STAT_STATE c.val) = 2 ∧ (u.mw .live (0x2000 + c.val * 0x100)).toNat % 8 = 2))
      ∧ (st ≠ 1 → s.ignores (.canSyncDone c))
      ∧ (st = 5 → q.recAt.toNat + 1408 * arb ≤ d.time.toNat → s.endsIn (.recoverDone c) (fun u =>
          u.get (R.CAN_STAT_STATE c.val) = 2 ∧ zero u ∧ event u 3 ∧ u.rd (R.CAN_TXREQ c.val).addr = d.rd (R.CAN_TXREQ c.val).addr))
      ∧ (st ≠ 5 → s.ignores (.recoverDone c))
      ∧ (monitor → s.ignores (.lomExit c)) ∧ (¬ monitor → s.endsIn (.lomExit c) (fun u => u.get (R.CAN_STAT_LOMF c.val) = 0))

/-- R296, R297, R301, R302, R48: MRA is set; MRW writes two words at MRA, or is refused with DENY in the filter area outside OFF or
under the set-up lock (which counts), in a pending buffer and in a receive queue; MRA advances by 2 in every case, and after a read of
MRR; a request for a pending or bound buffer, or in listen-only, is refused; RXQA releases min(N, COUNT) entries. -/
def Obligations.CanMessageRam : Prop :=
  ∀ (s : State) (r : Req) (e : CoreId) (c : Fin 8) (b : Fin 32) (q : Fin 2) (a : BitVec 13) (n : BitVec 7) (v : BitVec 32),
    s.dev.reaches r (R.CAN_CMD c.val).addr = true → s.dev.ecc = [] →
    let d := s.dev
    let p := d.get (R.CAN_MRA_ADDR c.val)
    let p1 := (p + 1) % 0x2000
    let on (x : Nat) : Prop := d.flag ((R.CAN_TXREQ c.val).bit x) = true
    let filter (x : Nat) : Prop := x < 0x400
    let shut (x : Nat) : Prop := (filter x ∧ (d.get (R.CAN_STAT_STATE c.val) ≠ 0 ∨ d.flag R.SETUP_LOCK_LOCK = true))
      ∨ (0x400 ≤ x ∧ x < 0x900 ∧ on ((x - 0x400) / 40)) ∨ (0x900 ≤ x ∧ x < 0x1D00)
    let next (u : Dev) : Prop := u.get (R.CAN_MRA_ADDR c.val) = (p + 2) % 0x2000
    let bound : Prop := d.flag (R.CAN_STAT_LOMF c.val) = true ∨ ((d.pmapOf (5 + c.val)).getLsbD 31 = true ∧ b.val < d.get (R.CAN_IMG_QNUM c.val))
    let count := d.get (R.CAN_RXQS_COUNT c.val q.val)
    let k := min n.toNat count
    s.ends (.mraWrite r c a) (d.put (R.CAN_MRA_ADDR c.val) a.toNat)
      ∧ (shut p ∨ shut p1 → s.endsIn (.mrwWrite r c v) (fun u => next u ∧ u.mem = d.mem ∧ u.get (R.CAN_STAT_DENY c.val) = 1
          ∧ u.get R.AE_STATUS_LOCK_COUNT = (if (filter p ∨ filter p1) ∧ d.flag R.SETUP_LOCK_LOCK = true
              then min 255 (d.get R.AE_STATUS_LOCK_COUNT + 1) else d.get R.AE_STATUS_LOCK_COUNT)))
      ∧ (¬ shut p → ¬ shut p1 → s.endsIn (.mrwWrite r c v) (fun u => next u
          ∧ u.get (R.CAN_STAT_DENY c.val) = d.get (R.CAN_STAT_DENY c.val)
          ∧ ∀ x : Fin 0x1D00, u.mw (.can c) x.val = (if x.val = p then v.extractLsb' 0 16 else if x.val = p1 then v.extractLsb' 16 16
              else d.mw (.can c) x.val)))
      ∧ s.ends (.mrrRead (.core e) c) (d.put (R.CAN_MRA_ADDR c.val) (p + 2))
      ∧ (d.d3hot = false → d.flag R.BOOT_STAT_DEAD = false → d.hostMay 2 false = true → s.ends (.mrrRead .host c) ((d.put (R.CAN_MRA_ADDR c.val) (p + 2)).emit
          (.bar [(if p1 < 0x1D00 then d.mw (.can c) p1 else 0) ++ (if p < 0x1D00 then d.mw (.can c) p else 0)] false)))
      ∧ s.endsRegs (.txreqWrite r c v) [R.CAN_TXREQ c.val, R.CAN_STAT_DENY c.val] (fun u =>
          (v.getLsbD b.val = true → bound ∨ on b.val → u.get (R.CAN_STAT_DENY c.val) = 1
            ∧ u.flag ((R.CAN_TXREQ c.val).bit b.val) = d.flag ((R.CAN_TXREQ c.val).bit b.val))
          ∧ (v.getLsbD b.val = true → ¬ bound → u.flag ((R.CAN_TXREQ c.val).bit b.val) = true)
          ∧ (v.getLsbD b.val = false → u.flag ((R.CAN_TXREQ c.val).bit b.val) = d.flag ((R.CAN_TXREQ c.val).bit b.val)))
      ∧ s.endsIn (.txcanWrite r c v) (fun u =>
          (v.getLsbD b.val = true → on b.val → (d.canSt c.val).onBus = some b.val →
            u.flag ((R.CAN_TXREQ c.val).bit b.val) = true ∧ u.flag ((R.CAN_TXCAN c.val).bit b.val) = true)
          ∧ (v.getLsbD b.val = true → on b.val → (d.canSt c.val).onBus ≠ some b.val → u.flag ((R.CAN_TXREQ c.val).bit b.val) = false
            ∧ u.flag ((R.CAN_TXFAIL c.val).bit b.val) = true ∧ (u.mw (.can c) (0x402 + 40 * b.val)).toNat / 1024 % 8 = 4)
          ∧ (v.getLsbD b.val = false ∨ ¬ on b.val → u.flag ((R.CAN_TXREQ c.val).bit b.val) = d.flag ((R.CAN_TXREQ c.val).bit b.val)
            ∧ u.flag ((R.CAN_TXFAIL c.val).bit b.val) = d.flag ((R.CAN_TXFAIL c.val).bit b.val)))
      ∧ s.endsIn (.rxqaWrite r c q n) (fun u => u.get (R.CAN_RXQS_COUNT c.val q.val) = count - k
          ∧ u.get (R.CAN_RXQS_GET c.val q.val) = (d.get (R.CAN_RXQS_GET c.val q.val) + k) % 64
          ∧ u.get (R.CAN_RXQS_PUT c.val q.val) = d.get (R.CAN_RXQS_PUT c.val q.val))

/-- R299, R300, R306, R309, R310, Tables 12.5, 12.8, 12.9: the first filter element that matches names the queue and the image slot of a
received frame: its entry stands at PUT, PUT advances, or a full queue counts the drop; FRAMES counts a matched frame; an unmatched one
follows NOMATCH. The error counters move in ACTIVE and PASSIVE, and 128 is PASSIVE, above 255 BUSOFF. -/
def Obligations.CanReception : Prop :=
  ∀ (s : State) (c : Fin 8) (f : CanFrame) (i : Fin 128) (o : Fin 24), s.dev.sys.held = false → s.dev.ecc = [] →
    let d := s.dev
    let st := d.get (R.CAN_STAT_STATE c.val)
    let live : Prop := (st = 2 ∨ st = 3) ∧ ¬ (f.fdf = true ∧ d.flag (R.CAN_CFG_FDOE c.val) = false)
    let dw (k : Fin 128) (j : Nat) : BitVec 32 := d.mw (.can c) (8 * k.val + j + 1) ++ d.mw (.can c) (8 * k.val + j)
    let kind (k : Fin 128) : Nat := ((dw k 4).extractLsb' 0 2).toNat
    let fits (k : Fin 128) : Prop := (dw k 0).extractLsb' 30 2 ≠ 0 ∧ (dw k 0).getLsbD 29 = f.xtd
      ∧ f.id &&& (dw k 2).extractLsb' 0 29 = (dw k 0).extractLsb' 0 29 &&& (dw k 2).extractLsb' 0 29
      ∧ (kind k = 0 ∨ (kind k = 1 ∧ f.fdf = false) ∨ (kind k = 2 ∧ f.fdf = true))
    let first : Prop := fits i ∧ ∀ k : Fin 128, k < i → ¬ fits k
    let route := ((dw i 0).extractLsb' 30 2).toNat
    let slot := ((dw i 4).extractLsb' 16 5).toNat
    let none' : Prop := ∀ k : Fin 128, ¬ fits k
    let size (q : Nat) : Nat := if q = 0 then 0x900 else 0x1300
    let byte (j : Nat) : BitVec 8 := if f.rtr = false ∧ j < canLen f.fdf f.dlc.val then f.data.getD j 0 else 0
    let stored (q fidx : Nat) (u : Dev) : Prop :=
      let put := d.get (R.CAN_RXQS_PUT c.val q)
      let at' (j : Nat) : BitVec 16 := u.mw (.can c) (size q + 40 * put + j)
      d.get (R.CAN_RXQS_COUNT c.val q) < 64 → d.get R.PAIR_STAT_ROLE ≠ 2 →
        u.get (R.CAN_RXQS_COUNT c.val q) = d.get (R.CAN_RXQS_COUNT c.val q) + 1 ∧ u.get (R.CAN_RXQS_PUT c.val q) = (put + 1) % 64
          ∧ at' 1 ++ at' 0 = BitVec.ofBool f.esi ++ BitVec.ofBool f.xtd ++ BitVec.ofBool f.rtr ++ f.id
          ∧ at' 3 ++ at' 2 = (0 : BitVec 1) ++ BitVec.ofNat 7 fidx ++ BitVec.ofBool f.fdf ++ BitVec.ofBool f.brs ++ (0 : BitVec 2) ++ BitVec.ofNat 4 f.dlc.val ++ (0 : BitVec 16)
          ∧ at' 7 ++ at' 6 ++ at' 5 ++ at' 4 = f.sof ∧ at' (8 + o.val) = byte (2 * o.val + 1) ++ byte (2 * o.val)
    let dropped (q : Nat) (u : Dev) : Prop := d.get (R.CAN_RXQS_COUNT c.val q) = 64 → d.get R.PAIR_STAT_ROLE ≠ 2 →
      u.rd (R.CAN_RXQS c.val q).addr = d.rd (R.CAN_RXQS c.val q).addr
        ∧ u.get (R.CAN_RXQ_DROP c.val q) = min 0xFFFFFFFF (d.get (R.CAN_RXQ_DROP c.val q) + 1)
    let kept (u : Dev) : Prop := ∀ q : Fin 2, u.rd (R.CAN_RXQS c.val q.val).addr = d.rd (R.CAN_RXQS c.val q.val).addr
    let base := 0x2000 + c.val * 0x100
    let img := base + 8 + 8 * slot
    (¬ live → s.ignores (.canFrameReceive c f))
      ∧ (live → first → s.endsIn (.canFrameReceive c f) (fun u => (route = 1 → stored 0 i.val u ∧ dropped 0 u)
          ∧ (route = 2 → stored 1 i.val u ∧ dropped 1 u) ∧ (route = 3 → kept u)
          ∧ u.mw .live (base + 3) = d.mw .live (base + 3) + 1 ∧ (∀ j : Fin 4, u.mw .live (base + 4 + j.val) = f.sof.extractLsb' (16 * j.val) 16)
          ∧ (1 ≤ slot → slot ≤ 16 → u.mw .live img = d.mw .live img + 1 ∧ u.mw .live (img + 7) = d.mw .live img + 1
              ∧ u.mw .live (img + 1) = BitVec.ofBool f.fdf ++ BitVec.ofBool f.rtr ++ (0 : BitVec 10) ++ BitVec.ofNat 4 f.dlc.val
              ∧ (f.rtr = false → ∀ j : Fin 4, u.mw .live (img + 2 + j.val) = byte (2 * j.val + 1) ++ byte (2 * j.val)))))
      ∧ (live → none' → s.endsIn (.canFrameReceive c f) (fun u => u.mw .live (base + 3) = d.mw .live (base + 3)
          ∧ (d.get (R.CAN_CFG_NOMATCH c.val) = 1 → stored 0 0x7F u ∧ dropped 0 u)
          ∧ (d.get (R.CAN_CFG_NOMATCH c.val) = 2 → stored 1 0x7F u ∧ dropped 1 u)
          ∧ (d.get (R.CAN_CFG_NOMATCH c.val) = 0 ∨ d.get (R.CAN_CFG_NOMATCH c.val) = 3 → kept u)))
      ∧ ((st ≠ 2 ∧ st ≠ 3) ∨ d.flag (R.CAN_STAT_LOMF c.val) = true → ∀ e, s.ignores (.canBusError c e))
      ∧ (st = 2 ∨ st = 3 → d.flag (R.CAN_STAT_LOMF c.val) = false → ∀ e : CanErr,
          let tec := d.get (R.CAN_ECNT_TEC c.val) + (if e = .tec8 then 8 else 0)
          let rec' := min 255 (d.get (R.CAN_ECNT_REC c.val) + (match e with | .rec1 => 1 | .rec8 => 8 | .tec8 => 0))
          s.endsIn (.canBusError c e) (fun u => u.get (R.CAN_ECNT_REC c.val) = rec'
            ∧ (tec ≤ 255 → u.get (R.CAN_ECNT_TEC c.val) = tec ∧ u.get (R.CAN_STAT_STATE c.val) = (if 128 ≤ tec ∨ 128 ≤ rec' then 3 else 2)
                ∧ (u.flag (R.CAN_STAT_EWARN c.val) = true ↔ 96 ≤ tec ∨ 96 ≤ rec'))
            ∧ (255 < tec → u.get (R.CAN_ECNT_TEC c.val) = 255 ∧ u.get (R.CAN_STAT_STATE c.val) = 4
                ∧ u.get (R.CAN_ECNT_BOFF_CNT c.val) = min 255 (d.get (R.CAN_ECNT_BOFF_CNT c.val) + 1) ∧ (u.canSt c.val).onBus = none)))

/-- R302 to R305, R312, Table 12.6: on an idle bus the eligible buffer with the lowest arbitration field starts its frame, and a buffer
in a format that can never be sent ends with 0x6; a frame that ends clears TXREQ with its result, or stays pending to compete again; a
deadline ends a TAT buffer with 0x3; a pickup fills the bound buffers from the Q region and makes them pending. -/
def Obligations.CanTransmission : Prop :=
  ∀ (s : State) (c : Fin 8) (b k : Fin 32) (idle : Bool), s.dev.sys.held = false → s.dev.ecc = [] →
    let d := s.dev
    let st := d.get (R.CAN_STAT_STATE c.val)
    let q := d.canSt c.val
    let w (j : Nat) : BitVec 16 := d.mw (.can c) (0x400 + 40 * b.val + j)
    let pend (x : Fin 32) : Prop := d.flag ((R.CAN_TXREQ c.val).bit x.val) = true
    let tat : Prop := (w 2).getLsbD 14 = true
    let bound (x : Fin 32) : Prop := (d.pmapOf (5 + c.val)).getLsbD 31 = true ∧ x.val < d.get (R.CAN_IMG_QNUM c.val)
    let time := (w 7 ++ w 6 ++ w 5 ++ w 4).toNat
    let due : Prop := pend b ∧ (tat → bound b ∨ time ≤ d.time.toNat)
    let bad : Prop := (w 3).getLsbD 7 = true ∧ (d.flag (R.CAN_CFG_FDOE c.val) = false ∨ (w 1).getLsbD 13 = true)
    let may : Prop := (st = 2 ∨ st = 3) ∧ q.stopping = false ∧ q.onBus = none ∧ d.flag (R.CAN_STAT_LOMF c.val) = false
      ∧ d.sys.fatal = false ∧ d.sys.outsOff = false
    let alone : Prop := ∀ x : Fin 32, pend x → x = b
    let loop : Prop := d.flag (R.CAN_CFG_LBK c.val) = true
    let oneShot : Prop := (w 2).getLsbD 15 = true ∨ d.flag (R.CAN_CFG_OSM c.val) = true
    let cancel : Prop := d.flag ((R.CAN_TXCAN c.val).bit b.val) = true
    let done (n : Nat) (u : Dev) : Prop := u.flag ((R.CAN_TXREQ c.val).bit b.val) = false ∧ u.flag ((R.CAN_TXCAN c.val).bit b.val) = false
      ∧ (u.mw (.can c) (0x402 + 40 * b.val)).toNat / 1024 % 8 = n
      ∧ u.flag ((if n = 0 then R.CAN_TXOK c.val else R.CAN_TXFAIL c.val).bit b.val) = true
    let lost (n : Nat) (u : Dev) : Prop := (u.canSt c.val).onBus = none ∧ (oneShot → done n u) ∧ (¬ oneShot → cancel → done 4 u)
      ∧ (¬ oneShot → ¬ cancel → u.flag ((R.CAN_TXREQ c.val).bit b.val) = d.flag ((R.CAN_TXREQ c.val).bit b.val))
    let frame : Prop := q.onBus = some b.val ∧ q.held = [] ∧ d.get R.PAIR_STAT_ROLE ≠ 2
    let win := d.get (R.CAN_TAT_WIN_WIN c.val)
    let late : Prop := pend b ∧ tat ∧ ¬ bound b ∧ q.onBus ≠ some b.val ∧ win ≠ 0 ∧ time + 1000 * win ≤ d.time.toNat
    let pick := 1000 * d.get (R.CAN_IMG_PICK c.val)
    let half := d.mws (.qHalf (!d.scan.qShadow)) ((d.pmapOf (5 + c.val)).extractLsb' 16 15).toNat (4 * d.get (R.CAN_IMG_QNUM c.val))
    let sends (i : Instr) : Prop := s.ends i ((fun u : Dev => if loop then u else u.emit (.can c.val (u.txFrame c.val b.val)))
      (d.updCan c.val (fun q => { q with onBus := some b.val, sof := d.time })))
    (may → due → ¬ bad → alone → sends (.canTxChoice c) ∧ (tat → ¬ bound b → sends (.tatTimeReached c b true)))
      ∧ (may → due → ¬ bad → (∀ x : Fin 32, pend x → ¬ d.txFormatBad c.val x.val = true) →
          (∀ x : Fin 32, x ≠ b → d.txEligible c.val x.val = true → arbKey (d.txFrame c.val b.val) < arbKey (d.txFrame c.val x.val)) → sends (.canTxChoice c))
      ∧ (may → due → bad → s.endsIn (.canTxChoice c) (done 6))
      ∧ (may → (∀ x : Fin 32, ¬ pend x) → s.ignores (.canTxChoice c))
      ∧ (¬ may → s.ignores (.canTxChoice c)) ∧ (idle = false ∨ ¬ tat ∨ ¬ due → s.ignores (.tatTimeReached c b idle))
      ∧ (q.onBus = none → d.get R.PAIR_STAT_ROLE ≠ 2 → ∀ o, s.ignores (.canTxEnd c o none))
      ∧ (frame → ¬ loop → s.endsIn (.canTxEnd c .ok none) (fun u => done 0 u ∧ (u.canSt c.val).onBus = none
          ∧ u.get (R.CAN_ECNT_TEC c.val) = d.get (R.CAN_ECNT_TEC c.val) - 1
          ∧ (∀ j : Fin 4, u.mw (.can c) (0x404 + 40 * b.val + j.val) = q.sof.extractLsb' (16 * j.val) 16)))
      ∧ (frame → s.endsIn (.canTxEnd c .lost none) (lost 1)) ∧ (frame → s.endsIn (.canTxEnd c (.err false) none) (lost 2))
      ∧ (late → s.endsIn (.tatDeadline c b) (done 3)) ∧ (¬ late → s.ignores (.tatDeadline c b))
      ∧ (pick ≠ 0 → d.time.toNat % pick = 0 → q.pickAt ≠ d.time → st ≠ 0 → d.flag (R.CAN_STAT_LOMF c.val) = false → bound k →
          d.get (R.CAN_IMG_QNUM c.val) ≤ 32 → q.onBus ≠ some k.val → s.endsIn (.canQPickup c) (fun u => u.flag ((R.CAN_TXREQ c.val).bit k.val) = true
            ∧ ∀ j : Fin 4, u.mw (.can c) (0x408 + 40 * k.val + j.val) = half.getD (4 * k.val + j.val) 0))
      ∧ (pick = 0 ∨ d.time.toNat % pick ≠ 0 → s.ignores (.canQPickup c))

/-! ## The 24 V field channels -/

/-- R315, R319 to R324, Table 13.2: a field tick takes the directions, and every output its command from the Q region, a joined set that
of its lowest channel; a latch ends with a command of 0 and wins over a command of 1; the image follows 500 ns later, and with it the
change events of the samples that it shows (R132, R327); DIR and PAR writes that a joined set does not allow are discarded with DENY. -/
def Obligations.FieldTickImageAndSets : Prop :=
  ∀ (s : State) (r : Req) (g : Fin 8) (i : Fin 32) (v : BitVec 32) (t : BitVec 64), s.dev.sys.held = false → s.dev.ecc = [] →
    let d := s.dev
    let f := d.fio
    let new := d.rd R.FIO_DIR.addr
    let set (i : Fin 32) : List Nat := d.fioSet i.val
    let half (o : Nat) : BitVec 16 := if (d.pmapOf 0).getLsbD 31 then d.mw (.qHalf (!d.scan.qShadow)) (((d.pmapOf 0).extractLsb' 16 15).toNat + o) else 0
    let q : BitVec 32 := half 1 ++ half 0
    let off : Prop := d.flag R.FIO_STAT_SBY = true ∨ d.sys.outsOff = true ∨ d.sys.fatal = true ∨ d.flag R.NV_STAT_PFDONE = true
    let cmd (i : Fin 32) : Prop := new.getLsbD i.val = true ∧ f.dir.getLsbD i.val = true ∧ q.getLsbD ((set i).headD 0) = true ∧ ¬ off
    let latched (i : Fin 32) : Prop := ∃ j : Fin 32, j.val ∈ set i ∧ j.val ∈ f.latched ∧ cmd j
    let due : Prop := d.time.toNat % 8000 = 0 ∧ f.tickAt ≠ some d.time
    let inp := f.filt &&& ~~~f.dir
    let live (u : Dev) (k : Nat) : BitVec 16 := u.mw .live (0x2800 + k)
    let seq := BitVec.ofNat 16 (f.ticks + 1)
    let joined : Prop := ∃ i : Fin 32, d.get (R.FIO_GCFG_PAR (i.val / 4)) ≠ 0 ∧ v.getLsbD i.val = false
    let par := (v.extractLsb' 0 2).toNat
    let badPar : Prop := par = 3 ∨ (par ≠ 0 ∧ ∃ j : Fin 4, new.getLsbD (4 * g.val + j.val) = false)
    (due → d.pair.sbyTicks = 0 → s.endsIn .fieldTick (fun u => u.fio.dir = new
          ∧ (u.flag (R.FIO_OUT.bit i.val) = true ↔ cmd i)
          ∧ (u.fio.on.getLsbD i.val = true ↔ cmd i ∧ ¬ latched i ∧ f.lockout = false)
          ∧ (i.val ∈ u.fio.latched ↔ i.val ∈ f.latched ∧ cmd i) ∧ u.fio.tickAt = some d.time ∧ u.mem = d.mem))
      ∧ (¬ due → s.ignores .fieldTick)
      ∧ (set i = match d.get (R.FIO_GCFG_PAR (i.val / 4)) with
          | 1 => [i.val / 2 * 2, i.val / 2 * 2 + 1]
          | 2 => [i.val / 4 * 4, i.val / 4 * 4 + 1, i.val / 4 * 4 + 2, i.val / 4 * 4 + 3]
          | _ => [i.val])
      ∧ (f.tickAt = some t → f.written = false → t.toNat + 500 ≤ d.time.toNat → s.endsIn .fieldImageWrite (fun u =>
          u.rd R.FIO_IN.addr = inp ∧ u.rd R.FIO_RB.addr = f.rb ∧ live u 0 = seq ∧ live u 7 = seq ∧ live u 2 ++ live u 1 = inp
            ∧ live u 4 ++ live u 3 = f.rb ∧ live u 6 = 0 ∧ live u 11 ++ live u 10 ++ live u 9 ++ live u 8 = t ∧ u.fio.written = true
            ∧ u.fio.chg = [] ∧ (∀ g ∈ f.chg, g < 8 → u.raised (82 + g))
            ∧ (live u 5).toNat = d.get R.FIO_STAT_FIO_FAULT + 2 * d.get R.FIO_STAT_VFLD_OK + 4 * d.get R.FIO_STAT_SBY))
      ∧ (f.tickAt = none ∨ f.written = true → s.ignores .fieldImageWrite)
      ∧ (d.writes r R.FIO_DIR = true → (joined → s.ends (.fioDirWrite r v) (d.put R.FIO_STAT_DENY 1))
          ∧ (¬ joined → s.ends (.fioDirWrite r v) (d.wrReg R.FIO_DIR.addr v)))
      ∧ (d.writes r (R.FIO_GCFG g.val) = true → (badPar → s.ends (.parWrite r g v) ((d.put R.FIO_STAT_DENY 1).lay (R.FIO_GCFG g.val) 0x7F00 v))
          ∧ (¬ badPar → s.ends (.parWrite r g v) (d.lay (R.FIO_GCFG g.val) 0x7F03 v)))

/-- R316, R317, R324 to R327: a group's sample 900 ns after its pulse start sets the readback of its channels and filters its inputs, noting a change event;
an output in current limit, a latch after 200 µs or above 170 °C, the die at 140 °C and a supply loss set FIO_FAULT, count it and raise
event 80 once; a latch holds the whole set off until FIO_RETRY; FIO_FAULT stays while a condition holds. -/
def Obligations.FieldSamplesAndFaults : Prop :=
  ∀ (s : State) (r : Req) (g : Fin 8) (j : Fin 4) (raw : BitVec 4) (i k : Fin 32) (v : BitVec 32) (t : Nat), s.dev.sys.held = false →
    let d := s.dev
    let f := d.fio
    let now := d.time.toNat
    let per := 8000 * max 1 (min 125 (d.get (R.FIO_GCFG_SPER g.val)))
    let ofs := 1000 * g.val + 900
    let due : Prop := ofs ≤ now ∧ (now - ofs) % per = 0 ∧ 1000000 ≤ (d.time - f.relAt).toNat ∧ Store.get (fun _ => 0) f.sampled g.val ≠ now + 1
    let c := 4 * g.val + j.val
    let x : Bool := raw.getLsbD j.val || (f.on.getLsbD c && (Store.look c f.limit).isNone)
    let run := if f.rb.getLsbD c = x then Store.get (fun _ => 0) f.runs c + 1 else 1
    let turns : Prop := d.get (R.FIO_CCFG_FILT c) + 1 ≤ min 16 run ∧ f.filt.getLsbD c ≠ x ∧ f.dir.getLsbD c = false
    let event (u : Dev) (n : Nat) : Prop := u.flag ((R.EV_RAISED (n / 32)).bit (n % 32)) = true
    let fault (u : Dev) : Prop := u.get R.FIO_STAT_FIO_FAULT = 1 ∧ (d.get R.FIO_STAT_FIO_FAULT = 0 → event u 80
      ∧ u.get R.FIO_STAT_FAULT_CNT = min 255 (d.get R.FIO_STAT_FAULT_CNT + 1)) ∧ (d.get R.FIO_STAT_FIO_FAULT = 1 → u.regs = d.regs)
    let set := d.fioSet i.val
    let latch (u : Dev) : Prop := fault u ∧ (k.val ∈ set → k.val ∈ u.fio.latched ∧ u.fio.on.getLsbD k.val = false)
      ∧ (k.val ∉ set → (k.val ∈ u.fio.latched ↔ k.val ∈ f.latched) ∧ u.fio.on.getLsbD k.val = f.on.getLsbD k.val)
    let limited : Prop := Store.look i.val f.limit = some (t + 1)
    let held := (d.time - BitVec.ofNat 64 t).toNat
    (due → s.endsIn (.fieldGroupSample g raw) (fun u => u.fio.rb.getLsbD c = x
          ∧ (turns → u.fio.filt.getLsbD c = x ∧ (d.flag (R.FIO_CCFG_CHG_EV c) = true → g.val ∈ u.fio.chg))
          ∧ (¬ turns → u.fio.filt.getLsbD c = f.filt.getLsbD c)
          ∧ (k.val / 4 ≠ g.val → u.fio.rb.getLsbD k.val = f.rb.getLsbD k.val ∧ u.fio.filt.getLsbD k.val = f.filt.getLsbD k.val)))
      ∧ (¬ due → s.ignores (.fieldGroupSample g raw))
      ∧ (f.on.getLsbD i.val = true → Store.look i.val f.limit = none → s.endsIn (.currentLimitEntry i) (fun u => fault u
          ∧ Store.look i.val u.fio.limit = some (now + 1) ∧ u.fio.on = f.on))
      ∧ (f.on.getLsbD i.val = false → s.ignores (.currentLimitEntry i))
      ∧ s.ends (.currentLimitExit i) (d.updFio (fun q => { q with limit := Store.erase i.val q.limit }))
      ∧ (limited → 200000 ≤ held → s.endsIn (.outputLatch i) latch)
      ∧ (limited → held < 200000 → s.ignores (.outputLatch i))
      ∧ (f.dir.getLsbD i.val = true → s.endsIn (.thermalShutdown i) latch)
      ∧ (f.dir.getLsbD i.val = false → s.ignores (.thermalShutdown i))
      ∧ s.endsIn (.fieldTempWarning true) (fun u => fault u ∧ u.fio = { f with hot := true })
      ∧ s.ends (.fieldTempWarning false) (d.updFio (fun q => { q with hot := false }))
      ∧ s.endsIn .vfldLockout (fun u => u.fio.on = 0 ∧ u.fio.lockout = true ∧ u.fio.latched = f.latched ∧ u.regs = d.regs)
      ∧ s.ends .vfldRecover (d.updFio (fun q => { q with lockout := false }))
      ∧ s.endsIn .supplyLoss (fun u => u.get R.FIO_STAT_FIO_FAULT = 1 ∧ u.get R.FIO_STAT_VFLD_OK = 0 ∧ u.fio = { f with loss := true }
          ∧ (d.flag R.FIO_STAT_VFLD_OK = true → event u 81) ∧ (d.get R.FIO_STAT_FIO_FAULT = 0 → event u 80))
      ∧ s.endsIn .vfldOkRestore (fun u => u.get R.FIO_STAT_VFLD_OK = 1 ∧ u.fio = { f with loss := false }
          ∧ (d.flag R.FIO_STAT_VFLD_OK = false → event u 81) ∧ u.get R.FIO_STAT_FIO_FAULT = d.get R.FIO_STAT_FIO_FAULT)
      ∧ (d.reaches r R.FIO_RETRY.addr = true → s.endsIn (.fioRetry r v) (fun u =>
          u = d.updFio (fun q => { q with latched := u.fio.latched })
            ∧ (k.val ∈ u.fio.latched ↔ k.val ∈ f.latched ∧ ¬ ∃ m : Fin 32, v.getLsbD m.val = true ∧ k.val ∈ d.fioSet m.val)))
      ∧ (d.reaches r R.FIO_STAT.addr = true →
          (f.limit = [] → f.hot = false → f.loss = false → s.ends (.fioFaultClear r) (d.put R.FIO_STAT_FIO_FAULT 0))
          ∧ (f.limit ≠ [] ∨ f.hot = true ∨ f.loss = true → s.endsRegs (.fioFaultClear r) [] (fun u => u.get R.FIO_STAT_FIO_FAULT = d.get R.FIO_STAT_FIO_FAULT)))

/-! ## The host interface -/

/-- R338 to R340, R342, R349, R351, R358: an enable is refused with DENY when the queue is enabled, its base not aligned, SZ outside 4 to
12, or its completion queue disabled; DIS aborts what has not started; doorbells out of range set DBERR, or put a command queue into
ERROR, and wait while RDY is 0 (R360); a page flag changes only as Table 14.9 permits; HOST_IRQ sends a vector. -/
def Obligations.HostQueuesDoorbellsAndPages : Prop :=
  ∀ (s : State) (r : Req) (q p cq : Fin 16) (ien : Bool) (iv : Fin 32) (sz : Fin 16) (v : BitVec 32) (pi : BitVec 16)
      (ents : List (List (BitVec 16))) (g : Fin 16) (pg : Fin 512) (old new : Fin 4) (e : SegRing) (c : HostCmd),
    s.dev.sys.held = false →
    let d := s.dev
    let en := d.flag (R.CMDQ_STAT_EN q.val)
    let cen := d.flag (R.CPLQ_STAT_EN p.val)
    let w : BitVec 32 := BitVec.ofNat 32 (0x80000000 + cq.val * 65536 + sz.val)
    let x : BitVec 32 := BitVec.ofNat 32 (0x80000000 + (b2n ien) * 0x8000 + iv.val * 256 + sz.val)
    let size : Prop := 4 ≤ sz.val ∧ sz.val ≤ 12
    let ok : Prop := (d.rd (R.CMDQ_BASE_LO q.val).addr).extractLsb' 0 6 = 0 ∧ size ∧ d.flag (R.CPLQ_STAT_EN cq.val) = true
    let cok : Prop := (d.rd (R.CPLQ_BASE_LO p.val).addr).extractLsb' 0 6 = 0 ∧ size
    let named : Prop := ∃ z : Fin 16, d.flag (R.CMDQ_STAT_EN z.val) = true ∧ d.get (R.CMDQ_CFG_CPLQ z.val) = p.val
    let used := natAt d.hif.cplUsed p.val
    let n := 2 ^ d.get (R.CPLQ_CFG_SZ p.val)
    let rel := (v.toNat + n - natAt d.hif.cplHead p.val) % n
    let dberr := d.put R.HIF_STAT_DBERR 1
    let keeps (off : Nat) (x : BitVec 32) (es : List (List (BitVec 16))) : Dev :=
      d.updHif (fun h => { h with kept := h.kept ++ [(off, x, es)] })
    let occ := (pi.toNat + 65536 - e.cIdx) % 65536
    let flag := d.get (pageFlagFld pg.val)
    let may : Prop := (r = .host ∧ ((old = 0 ∧ new = 1) ∨ (old = 1 ∧ new = 0) ∨ (old = 1 ∧ new = 2)))
      ∨ (r ≠ .host ∧ ((old = 0 ∧ new = 2) ∨ (old = 2 ∧ new = 0) ∨ (old = 2 ∧ new = 1)))
    let free : Prop := d.cplFree (d.get (R.CMDQ_CFG_CPLQ q.val)) = true
    (d.writes .host (R.CMDQ_CFG q.val) = true → d.writes .host (R.CPLQ_CFG p.val) = true →
        (en = true → s.ends (.cmdqEna q cq sz) (d.put R.HIF_STAT_DENY 1))
        ∧ (en = false → ¬ ok → s.ends (.cmdqEna q cq sz) ((d.lay (R.CMDQ_CFG q.val) 0xF000F w).put R.HIF_STAT_DENY 1))
        ∧ (en = false → ok → s.endsIn (.cmdqEna q cq sz) (fun u => u.get (R.CMDQ_STAT_EN q.val) = 1 ∧ u.get (R.CMDQ_STAT_ERR q.val) = 0
            ∧ u.get (R.CMDQ_STAT_HEAD q.val) = 0 ∧ u.flag (R.HIF_STAT_QERR.bit q.val) = false ∧ u.get (R.CMDQ_CFG_CPLQ q.val) = cq.val
            ∧ u.get (R.CMDQ_CFG_SZ q.val) = sz.val ∧ natAt u.hif.tailDb q.val = 0 ∧ natAt u.hif.fetchIx q.val = 0))
        ∧ (en = true → d.fetchedOf q.val = [c] → free → (∀ x ∈ d.hif.running, x.q ≠ q.val) → s.endsIn (.cmdqDis q) (fun u => u.get (R.CMDQ_STAT_EN q.val) = 0
            ∧ u.get (R.CMDQ_STAT_ERR q.val) = d.get (R.CMDQ_STAT_ERR q.val) ∧ u.get (R.CMDQ_STAT_HEAD q.val) = d.get (R.CMDQ_STAT_HEAD q.val)
            ∧ u.fetchedOf q.val = [] ∧ d.cplEntry q.val c.cid 8 (d.get (R.CMDQ_STAT_HEAD q.val)) 0 ∈ u.out ∧ u.raised 115))
        ∧ (en = false → s.endsRegs (.cmdqDis q) [] (fun _ => True))
        ∧ (cen = true → s.ends (.cplqEna p ien iv sz) ((d.lay (R.CPLQ_CFG p.val) 0x8000 x).put R.HIF_STAT_DENY 1))
        ∧ (cen = false → ¬ cok → s.ends (.cplqEna p ien iv sz) ((d.lay (R.CPLQ_CFG p.val) 0x9F0F x).put R.HIF_STAT_DENY 1))
        ∧ (cen = false → cok → s.endsIn (.cplqEna p ien iv sz) (fun u => u.get (R.CPLQ_STAT_EN p.val) = 1 ∧ u.get (R.CPLQ_STAT_TAIL p.val) = 0
            ∧ u.get (R.CPLQ_STAT_P p.val) = 1 ∧ u.get (R.CPLQ_CFG_SZ p.val) = sz.val ∧ u.get (R.CPLQ_CFG_IV p.val) = iv.val
            ∧ natAt u.hif.cplUsed p.val = 0))
        ∧ (cen = true → named → s.endsRegs (.cplqDis p) [R.HIF_STAT_DENY] (fun u => u.get R.HIF_STAT_DENY = 1))
        ∧ (cen = true → ¬ named → s.endsRegs (.cplqDis p) [R.CPLQ_STAT_EN p.val] (fun u => u.get (R.CPLQ_STAT_EN p.val) = 0)))
      ∧ (d.bellRight = true → d.flag R.HIF_STAT_RDY = true →
        (en = false → s.ends (.cmdqTailDoorbell q v) dberr)
        ∧ (en = true → d.flag (R.CMDQ_STAT_ERR q.val) = true → s.ignores (.cmdqTailDoorbell q v))
        ∧ (en = true → d.flag (R.CMDQ_STAT_ERR q.val) = false → v.toNat < 2 ^ d.get (R.CMDQ_CFG_SZ q.val) →
            s.ends (.cmdqTailDoorbell q v) (d.updHif (fun h => { h with tailDb := setNat h.tailDb q.val v.toNat })))
        ∧ (en = true → d.flag (R.CMDQ_STAT_ERR q.val) = false → 2 ^ d.get (R.CMDQ_CFG_SZ q.val) ≤ v.toNat →
            s.endsIn (.cmdqTailDoorbell q v) (fun u => u.get (R.CMDQ_STAT_ERR q.val) = 1 ∧ u.get (R.CMDQ_STAT_ECODE q.val) = 1
              ∧ u.flag (R.HIF_STAT_QERR.bit q.val) = true ∧ u.raised 116
              ∧ (free → d.cplEntry q.val 0xFFFF 0xA (d.get (R.CMDQ_STAT_HEAD q.val)) 0 ∈ u.out)))
        ∧ (cen = false ∨ n ≤ v.toNat ∨ used < rel → s.ends (.cplqHeadDoorbell p v) dberr)
        ∧ (cen = true → v.toNat < n → rel ≤ used → d.hif.owed = [] → s.endsIn (.cplqHeadDoorbell p v) (fun u =>
            natAt u.hif.cplHead p.val = v.toNat ∧ natAt u.hif.cplUsed p.val = used - rel ∧ (used = rel → u.out = d.out)
              ∧ (used ≠ rel → d.flag (R.CPLQ_CFG_IEN p.val) = true → d.hif.link = true → d.hif.msixEn = true →
                d.msixMasked (d.get (R.CPLQ_CFG_IV p.val)) = false → u.out = .msix (d.get (R.CPLQ_CFG_IV p.val)) :: d.out)))
        ∧ (d.segOf g.val = none ∨ (d.segOf g.val = some e ∧ e.size < occ) → s.ends (.segrDoorbell g pi ents) dberr)
        ∧ (d.segOf g.val = some e → occ ≤ e.size → s.endsIn (.segrDoorbell g pi ents) (fun u => ∃ f, u.segOf g.val = some f
            ∧ f.pIdx = pi.toNat ∧ f.cIdx = e.cIdx ∧ f.ents.length = occ ∧ (e.ents.length + ents.length = occ → f.ents = e.ents ++ ents))))
      ∧ (d.bellRight = true → d.flag R.HIF_STAT_RDY = false →
        s.ends (.cmdqTailDoorbell q v) (keeps (8 * q.val) v [])
        ∧ s.ends (.cplqHeadDoorbell p v) (keeps (8 * p.val + 4) v [])
        ∧ s.ends (.segrDoorbell g pi ents) (keeps (0x100 + 4 * g.val) (pi.zeroExtend 32) ents))
      ∧ (d.d3hot = false → d.flag R.BOOT_STAT_DEAD = false → d.hostMay 3 true = false →
          s.ends (.cmdqTailDoorbell q v) ((d.accessError 0xFB 4 (0x100000 + 8 * q.val)).raise 112))
      ∧ (d.reaches r R.PG_CMD.addr = true →
        (flag = old.val → may → s.endsIn (.pgCmd r pg old new) (fun u => u.get (pageFlagFld pg.val) = new.val
            ∧ (old = 1 → new = 2 → u.raised 113) ∧ (¬ (old = 1 ∧ new = 2) → u = d.put (pageFlagFld pg.val) new.val)))
        ∧ (flag ≠ old.val ∨ ¬ may → s.ends (.pgCmd r pg old new) (d.put R.WIN_STAT_TRAN_FAIL (min 65535 (d.get R.WIN_STAT_TRAN_FAIL + 1)))))
      ∧ (d.reaches r R.HOST_IRQ.addr = true → d.hif.link = true → d.hif.msixEn = true →
        (d.msixMasked iv.val = false → s.ends (.hostIrq r iv) (d.emit (.msix iv.val)))
        ∧ (d.msixMasked iv.val = true → s.ends (.hostIrq r iv) (d.updHif (fun h => { h with pba := h.pba ||| BitVec.twoPow 32 iv.val }))))

/-- R339, R341 to R344, Tables 14.3 to 14.6: a fetched descriptor waits in its queue; the command whose turn it is ends with the first
status its checks give (OPCODE, FIELD, DENIED, AREA, STATE, NOPOOL), completes, or runs on: HEAD and TAIL advance, the entry is written
with the phase, and a status other than SUCCESS raises event 115. -/
def Obligations.HostCommandsStart : Prop :=
  ∀ (s : State) (q : Fin 16) (c : HostCmd) (rest : List HostCmd) (ws : List (BitVec 16)) (x : HostRead) (z : Fin 65536), s.dev.sys.held = false →
    let d := s.dev
    let turn : Prop := d.turnOf q c rest
    let k := d.took q.val rest
    let check := d.cmdCheck c
    let done (st res : Nat) : Dev := k.hostComplete q.val c.cid st res true
    let stops (n : Nat) (i : Instr) : Prop := (turn → c.opc = n → check ≠ 0 → s.ends i (done check 0)) ∧ (d.fetchedOf q.val = [] → s.ignores i)
    let waits (u : Dev) (w : HostWait) : Dev := u.hostWait q.val c w
    let page (w : HostWait) : Dev := (waits k w).lockPage q.val
    let moves (n : Nat) (i : Instr) : Prop := turn → c.opc = n → check = 0 → s.ends i (page .chunk)
    let passes (n : Nat) : Prop := turn ∧ c.opc = n ∧ check = 0
    let scan := d.get R.SCAN_STAT_STATE
    let prog := k.progCmd c
    let pst := prog.2.get R.PROG_STAT_STATE
    let seg : Option SegRing := if c.arg0 / 2 ^ 31 % 2 = 1 then none
      else some { base := c.haddr, size := c.len, ciAddr := c.arg1 + 2 ^ 32 * c.arg2, pIdx := 0, cIdx := 0, ents := [] }
    let err := k.handoverErr
    let p := d.get (R.CMDQ_CFG_CPLQ q.val)
    let tail := d.get (R.CPLQ_STAT_TAIL p)
    let fetch := d.emit (.hostFetch (d.get (R.CMDQ_BASE_LO q.val) + 2 ^ 32 * d.get (R.CMDQ_BASE_HI q.val) + 32 * natAt d.hif.fetchIx q.val) 32)
    let w (i : Nat) : Nat := (ws.getD i 0).toNat
    let read : HostCmd := HostCmd.mk (w 0 % 256) (w 0 / 256) (w 1) (w 2 + 65536 * w 3)
      (w 4 + 65536 * w 5 + 2 ^ 32 * w 6 + 2 ^ 48 * w 7) (w 8 + 65536 * w 9) (w 10 + 65536 * w 11) (w 12 + 65536 * w 13)
      (w 14 + 65536 * w 15)
    let can : Prop := d.flag (R.CMDQ_STAT_EN q.val) = true ∧ d.flag (R.CMDQ_STAT_ERR q.val) = false ∧ d.flag R.HIF_STAT_RDY = true ∧ d.d3hot = false
      ∧ natAt d.hif.fetchIx q.val ≠ natAt d.hif.tailDb q.val
    stops 0 (.hostNop q) ∧ stops 1 (.readW q) ∧ stops 2 (.writeW q) ∧ stops 3 (.snapRead q) ∧ stops 4 (.forceWr q) ∧ stops 5 (.stage q)
      ∧ stops 6 (.progCmd q) ∧ stops 7 (.scanCmd q) ∧ stops 8 (.segBind q) ∧ stops 9 (.nvRead q) ∧ stops 0xA (.nvWrite q)
      ∧ stops 0xB (.fwStage q) ∧ stops 0xC (.fwHandover q) ∧ stops 0xD (.devReset q)
      ∧ (turn → 0xD < c.opc → s.ends (.reservedCommand q) (done 1 0))
      ∧ moves 1 (.readW q) ∧ moves 2 (.writeW q) ∧ moves 4 (.forceWr q) ∧ moves 5 (.stage q) ∧ moves 9 (.nvRead q) ∧ moves 0xA (.nvWrite q)
      ∧ moves 0xB (.fwStage q)
      ∧ (passes 3 → scan ≠ 0 → s.ends (.snapRead q) (page .snap))
      ∧ (passes 0 → s.ends (.hostNop q) (done 0 0) ∧ s.endsIn (.hostNop q) (fun u => u.get (R.CMDQ_STAT_HEAD q.val) = d.nextHead q.val
          ∧ d.cplEntry q.val c.cid 0 (d.nextHead q.val) 0 ∈ u.out ∧ u.get (R.CPLQ_STAT_TAIL p) = (tail + 1) % 2 ^ d.get (R.CPLQ_CFG_SZ p)
          ∧ (u.get (R.CPLQ_STAT_P p) = d.get (R.CPLQ_STAT_P p) ↔ (tail + 1) % 2 ^ d.get (R.CPLQ_CFG_SZ p) ≠ 0)
          ∧ natAt u.hif.cplUsed p = natAt d.hif.cplUsed p + 1))
      ∧ (passes 6 → (prog.1 = true → s.ends (.progCmd q) (prog.2.hostComplete q.val c.cid 5 (prog.2.rd R.PROG_STAT.addr).toNat true))
          ∧ (prog.1 = false → pst < 2 ∨ pst = 3 → s.ends (.progCmd q)
            (prog.2.hostComplete q.val c.cid 0 (prog.2.rd R.PROG_STAT.addr).toNat true).payOwed)
          ∧ (prog.1 = false → pst = 2 → s.ends (.progCmd q) (waits prog.2 .prog)))
      ∧ (passes 7 → (c.arg0 % 8 = 4 → scan = 3 → s.ends (.scanCmd q) ((waits k .scanStop).updScan (fun x => { x with stopPend := true })))
          ∧ (c.arg0 % 8 = 4 → scan = 6 → s.endsIn (.scanCmd q) (fun u => u.get R.SCAN_STAT_STATE = 0 ∧ u.hif.running = []
              ∧ u.get (R.CMDQ_STAT_HEAD q.val) = d.nextHead q.val))
          ∧ (c.arg0 % 8 ≠ 4 → s.endsIn (.scanCmd q) (fun u => (u.get R.SCAN_STAT_STATE = 1 ∧ u.hif.running = (waits k .scanStart).hif.running)
              ∨ (u.get R.SCAN_STAT_STATE = 2 ∧ u.hif.running = [] ∧ u.get (R.CMDQ_STAT_HEAD q.val) = d.nextHead q.val))))
      ∧ (passes 8 → s.ends (.segBind q) ((k.setSeg (c.arg0 % 16) seg).hostComplete q.val c.cid 0 0 true))
      ∧ (passes 0xC → (err ≠ 0 → s.ends (.fwHandover q) (((k.put R.FW_STAT_ERR err).raise 15).hostComplete q.val c.cid 5 0 true))
          ∧ (err = 0 → s.endsIn (.fwHandover q) (fun u => u.flag R.FW_STAT_HBUSY = true ∧ u.get R.FW_STAT_ERR = 0
              ∧ u.hif.running = (waits k .handover).hif.running
              ∧ (z.val < (d.nvWord 0x580004).toNat / 2 → d.nvWord 0x580005 = 0 → u.mw (.bell (!d.sys.bellBank)) z.val = d.nvWord (0x580100 + z.val)))))
      ∧ (passes 0xD → s.ends (.devReset q) ((done 0 0).updHif (fun h => { h with resetDue := true })))
      ∧ (can → s.ends (.descriptorFetch q (.data ws)) ((fetch.updHif (fun h => { h with
            fetchIx := setNat h.fetchIx q.val ((natAt d.hif.fetchIx q.val + 1) % 2 ^ d.get (R.CMDQ_CFG_SZ q.val)) })).setFetched q.val
              (d.fetchedOf q.val ++ [read])))
      ∧ (can → (∀ y, x ≠ .data y) → s.endsIn (.descriptorFetch q x) (fun u => u.get (R.CMDQ_STAT_ERR q.val) = 1
          ∧ u.get (R.CMDQ_STAT_ECODE q.val) = 2 ∧ u.flag (R.HIF_STAT_QERR.bit q.val) = true ∧ u.raised 116))
      ∧ (¬ can → s.ignores (.descriptorFetch q x))

/-- R345 to R348, R355, R356, R363: a chunk of at most 2,048 words moves through the locked page: host memory takes the words of the
device, or the device those of host memory; the last one completes the command with the words moved; a read of host memory that fails
ends it with HOSTMEM, a timeout through AER; a snapshot read takes place in GAP or STOP. -/
def Obligations.HostTransfers : Prop :=
  ∀ (s : State) (q : Fin 16) (r : HostRun) (p : Fin 512) (ws : List (BitVec 16)) (j : Fin 2048) (x : HostRead),
    s.dev.sys.held = false → s.dev.ecc = [] →
    let d := s.dev
    let c := r.cmd
    let left := c.len - r.done
    let n := min 2048 left
    let runs (w : HostWait) : Prop := d.hif.running = [r] ∧ r.q = q.val ∧ r.wait = w ∧ r.page = some p.val ∧ r.counts = true ∧ r.bad = none
      ∧ r.done < c.len ∧ d.get R.PROG_STAT_STATE ≠ 5
    let inM : Prop := 0x30000 ≤ c.daddr ∧ c.daddr + c.len ≤ 0x40000
    let mark := d.mws .mark (c.daddr - 0x30000 + r.done) n
    let dest := c.haddr + 2 * r.done
    let ended (u : Dev) (st res : Nat) : Prop := u.hif.running = [] ∧ d.cplEntry q.val c.cid st (d.nextHead q.val) res ∈ u.out
      ∧ u.get (R.CMDQ_STAT_HEAD q.val) = d.nextHead q.val ∧ u.get (pageFlagFld p.val) = 0 ∧ (st ≠ 0 → u.raised 115)
    let goesOn (u : Dev) : Prop := ∃ y, u.hif.running = [y] ∧ y.done = r.done + n ∧ y.cmd = c ∧ y.q = q.val ∧ y.wait = .chunk
      ∧ (∀ z, y.page = some z → u.get (pageFlagFld z) = 3)
    let moved (u : Dev) : Prop := (left ≤ 2048 → ended u 0 c.len) ∧ (2048 < left → goesOn u)
    (runs .chunk → c.opc = 1 → inM → s.endsIn (.transferChunk q x) (fun u => moved u ∧ .hostWrite dest mark ∈ u.out
          ∧ (j.val < n → u.mw .win (p.val * 2048 + j.val) = d.mw .mark (c.daddr - 0x30000 + r.done + j.val))
          ∧ ∀ o : Fin 65536, u.mw .mark o.val = d.mw .mark o.val))
      ∧ (runs .chunk → c.opc = 2 → inM → ws.length = n → s.endsIn (.transferChunk q (.data ws)) (fun u => moved u
          ∧ .hostFetch dest (2 * n) ∈ u.out ∧ (j.val < n → u.mw .mark (c.daddr - 0x30000 + r.done + j.val) = ws.getD j.val 0)))
      ∧ (runs .chunk → (c.opc = 2 ∨ c.opc = 4 ∨ c.opc = 5 ∨ c.opc = 0xA ∨ c.opc = 0xB) → ¬ ((c.opc = 2) ∧ ¬ inM) →
          (∀ y, x ≠ .data y) → s.endsIn (.transferChunk q x) (fun u => ended u 6 r.done))
      ∧ (d.hif.running = [] → s.ignores (.transferChunk q x))
      ∧ (runs .chunk → (c.opc = 2 ∨ c.opc = 4 ∨ c.opc = 5 ∨ c.opc = 0xA ∨ c.opc = 0xB) →
          s.endsIn (.hostCompletionTimeout q false) (fun u => ended u 6 r.done ∧ (u.cfgRd 65).getLsbD 14 = true))
      ∧ (d.canFetch q.val = true → s.endsIn (.hostCompletionTimeout q true) (fun u => u.get (R.CMDQ_STAT_ERR q.val) = 1
          ∧ u.get (R.CMDQ_STAT_ECODE q.val) = 2 ∧ u.raised 116 ∧ (u.cfgRd 65).getLsbD 14 = true))
      ∧ (d.canFetch q.val = false → s.ignores (.hostCompletionTimeout q true))
      ∧ (runs .snap → r.done = 0 → c.opc = 3 → inM → c.len ≤ 2048 → (d.get R.SCAN_STAT_STATE = 6 ∧ d.hif.snapPend = true) ∨ d.get R.SCAN_STAT_STATE = 0 →
          d.prog.swapWait = false → s.endsIn .hostSnapshotRead (fun u => ended u 0 c.len ∧ .hostWrite dest mark ∈ u.out ∧ u.hif.snapPend = false))
      ∧ (d.hif.running = [] ∨ ¬ ((d.get R.SCAN_STAT_STATE = 6 ∧ d.hif.snapPend = true) ∨ d.get R.SCAN_STAT_STATE = 0) → s.ignores .hostSnapshotRead)

/-- R46, R47, R51, R331, R336, R350, R359, R361, R362, R364, R511, R527: host reads and writes that pass, that the fuses deny, that the
Dead state discards and that are outside both BARs; a write to a DEVICE or LOCKED page is discarded and counted; a link event frees HOST
and LOCKED pages, zeroes the indices and stops what runs, and the queues stay configured. -/
def Obligations.HostTlpsAndLink : Prop :=
  ∀ (s : State) (o : BitVec 22) (a : BitVec 20) (k m v : BitVec 16) (fn : Fin 8) (dw : Fin 1024) (be : BitVec 4) (y : BitVec 32) (b : Bool),
    s.dev.ecc = [] →
    let d := s.dev
    let up : Prop := d.sys.held = false ∧ d.d3hot = false
    let error (kind addr : Nat) : Dev := (d.accessError 0xFB kind addr).raise 112
    let gives (u : Dev) (w : List (BitVec 32)) : Dev := u.emit (.bar w false)
    let dead : Prop := d.flag R.BOOT_STAT_DEAD = true
    let page := d.get (pageFlagFld (a.toNat / 2048))
    let shut : Prop := page = 2 ∨ page = 3
    let word : Bool := d.hostMay 3 false
    let refused := d.setCfg 65 (d.cfgRd 65 ||| BitVec.twoPow 32 20)
    (up → (¬ dead → d.hostMay 2 false = true → s.ends (.hostBarRead (.dword 0x1008)) (gives d [d.rd R.SCAN_GAP.addr])
          ∧ s.ends (.hostBarRead (.qword 0x1008)) (gives d [d.rd R.SCAN_GAP.addr, d.rd R.SCAN_CEIL.addr]))
        ∧ (¬ dead → d.hostMay 2 false = false → s.ends (.hostBarRead (.dword 0x1008)) (gives (error 4 0x1008) [0]))
        ∧ (dead → s.ends (.hostBarRead (.dword 0x1008)) (gives d [0]))
        ∧ (o.toNat % 4 ≠ 0 → s.ends (.hostBarRead (.dword o)) (gives (error 7 o.toNat) [0]))
        ∧ s.ends (.hostBarRead .outside) (refused.emit (.cfg false 0))
        ∧ (¬ dead → word = true → a.toNat % 2 = 0 → s.ends (.hostBarRead (.bar2 (BitVec.ofNat 21 (2 * a.toNat)) 4))
            (d.emit (.barWin [d.mw .win a.toNat, d.mw .win (a.toNat + 1)] false)))
        ∧ (a.toNat % 2048 ≠ 2047 → ¬ dead → d.hostMay 3 true = true →
            (¬ shut → s.endsIn (.hostBar2Write a [(k, v), (m, y.extractLsb' 0 16)]) (fun u => u.regs = d.regs
              ∧ u.mw .win a.toNat = (d.mw .win a.toNat &&& ~~~k) ||| (v &&& k)
              ∧ u.mw .win (a.toNat + 1) = (d.mw .win (a.toNat + 1) &&& ~~~m) ||| (y.extractLsb' 0 16 &&& m)
              ∧ ∀ x : Fin 1048576, x.val ≠ a.toNat → x.val ≠ a.toNat + 1 → u.mw .win x.val = d.mw .win x.val))
            ∧ (shut → s.endsIn (.hostBar2Write a [(k, v), (m, y.extractLsb' 0 16)]) (fun u => u.mem = d.mem ∧ u.raised 112
              ∧ u.get R.WIN_STAT_DISC_CNT = min 65535 (d.get R.WIN_STAT_DISC_CNT + 1)
              ∧ (d.flag R.AE_STATUS_VALID = false → u.get R.AE_STATUS_KIND = 5))))
        ∧ (¬ dead → d.hostMay 3 true = false → s.ends (.hostBar2Write a [(k, v)]) (error 4 (0x800000 + 2 * a.toNat))))
      ∧ s.ends .poisonedWrite (d.setCfg 65 (d.cfgRd 65 ||| BitVec.twoPow 32 12))
      ∧ (fn ≠ 0 → s.ends (.pcieConfigRequest fn b dw be y) (refused.emit (.cfg false 0)))
      ∧ s.ends (.pcieConfigRequest 0 false dw be y) (d.emit (.cfg true (d.cfgRd dw.val)))
      ∧ s.endsIn (.pcieConfigRequest 0 true 15 be y) (fun u => u.out = .cfg true 0 :: d.out ∧ u.regs = d.regs
          ∧ u.cfgRd 15 = laid (if be.getLsbD 0 then 0xFF else 0) (d.cfgRd 15) y)
      ∧ (d.sys.held = false → (d.hif.link = true → s.endsIn .pcieLinkDown (fun u => d.linkWasReset u ∧ u.hif.link = false))
          ∧ (d.hif.link = false → s.ignores .pcieLinkDown)
          ∧ s.endsIn .functionLevelReset (fun u => d.linkWasReset u ∧ u.hif.link = d.hif.link)
          ∧ s.endsIn .hotReset (fun u => d.linkWasReset u ∧ u.hif.link = d.hif.link)
          ∧ (d.hif.perst = true → d.hif.link = false → s.endsIn .pcieLinkUp (fun u => u.hif.link = true ∧ u.raised 114))
          ∧ (d.hif.perst = false ∨ d.hif.link = true → s.ignores .pcieLinkUp))
      ∧ s.ends .perstRelease (d.updHif (fun h => { h with perst := true }))

/-! ## The unit fabric -/

/-- R368, R369, R370, R372, Tables 15.2 to 15.4: what a link does with a frame that it cannot use; HELLO goes out on every enabled link;
the third good HELLO brings a link UP with the AND of the capabilities; another MAJOR makes it MISMATCH, a failed handshake DENIED; a
lower root is adopted, a root lost for 3 ms discarded; the election settles after 1 ms; every such change raises event 7 (R383). -/
def Obligations.FabricLinks : Prop :=
  ∀ (s : State) (r : Req) (l : Fin 4) (f : FabFrame), s.dev.sys.held = false →
    let d := s.dev
    let en : Prop := d.flag R.FAB_CFG_EN = true
    let on (k : Nat) : Prop := (d.get R.FAB_CFG_LINKEN).testBit k = true
    let k := d.link l.val
    let st := d.get (R.LINK_STAT_STATE l.val)
    let fst := d.get R.FAB_STAT_STATE
    let root : Prop := d.flag R.FAB_STAT_ROOT = true
    let listens : Prop := en ∧ on l.val ∧ k.lock = true
    let known : Prop := f.kind.toNat ∈ [1, 2, 3, 4, 5, 6, 0x10]
    let lost (i : Instr) : Prop := (¬ listens → s.ignores i)
      ∧ (listens → f.crcOk = false → f.kind ≠ 1 → s.ends i (d.satAdd (R.LINK_CRC l.val) 1))
      ∧ (listens → f.crcOk = true → (f.ver.toNat / 16 ≠ 1 ∨ ¬ known) ∨ (f.kind ≠ 1 ∧ st ≠ 2) → s.ends i (d.satAdd R.FAB_DROP 1))
    let hello : Prop := listens ∧ f.crcOk = true ∧ f.ver.toNat / 16 = 1 ∧ f.kind = 1
    let p := f.payload
    let cap := leAt p 20 4
    let same : Prop := cap / 2 ^ 28 = 1
    let proof := (p.drop 48).take 16
    let keyed : Prop := d.fabAuth = true
    let silent : Prop := ∀ x ∈ proof, x = 0
    let proves : Prop := ∃ q ∈ d.fabKey, proof = authProof q (leAt p 0 8) d.uid k.nonce
    let answers : Prop := 64 ≤ p.length ∧ ¬ silent ∧ proves
    let denied : Prop := keyed ∧ (d.fabKey = none ∨ (64 ≤ p.length ∧ ¬ silent ∧ ¬ proves))
    let goes (i : Instr) (n : Nat) : Prop := s.endsIn i (fun u => u.get (R.LINK_STAT_STATE l.val) = n ∧ (n ≠ st → u.raised 7)
      ∧ u.get (R.LINK_CAP l.val) = (if n = st then d.get (R.LINK_CAP l.val) else if n = 2 then (BitVec.ofNat 32 cap &&& 0x10000007).toNat else 0)
      ∧ u.get (R.LINK_STAT_NDEV l.val) = leAt p 17 1 ∧ u.get (R.LINK_STAT_NVALID l.val) = leAt p 18 1 % 2)
    let down (u : Dev) : Prop := u.get (R.LINK_STAT_STATE l.val) = 0 ∧ u.get (R.LINK_STAT_NDEV l.val) = 0
      ∧ u.get (R.LINK_STAT_NVALID l.val) = 0 ∧ (st ≠ 0 → u.get (R.LINK_CAP l.val) = 0 ∧ u.raised 7)
    let others (x : Nat) : Prop := ∀ j : Fin 4, j ≠ l → d.fabLinkUp j.val = true → (d.link j.val).nHops < 15 → x < (d.link j.val).nRoot
    let n := (List.range 4).countP (fun j => (d.get R.FAB_CFG_LINKEN).testBit j)
    lost (.helloReceive l f) ∧ lost (.joinReceive l f) ∧ lost (.assignReceive l f) ∧ lost (.lsaReceive l f)
      ∧ lost (.fabricFrameReceive l f) ∧ lost (.publishReceive l f) ∧ lost (.tsyncReqReceive l f) ∧ lost (.tsyncResponse l f)
      ∧ (listens → f.crcOk = false → f.kind = 1 →
          s.ends (.helloReceive l f) ((d.satAdd (R.LINK_CRC l.val) 1).updLink l.val (fun k => { k with good := 0 })))
      ∧ (¬ en → s.ignores .helloSend)
      ∧ (en → s.endsIn .helloSend (fun u => u.out.drop n = d.out ∧ u.regs = d.regs ∧ ∀ j : Fin 4, on j.val → ∃ h, Out.fabric j.val h ∈ u.out.take n
          ∧ h.kind = 1 ∧ h.ver = 0x10 ∧ h.dst = 0 ∧ h.ttl = 1 ∧ h.crcOk = true ∧ leAt h.payload 0 8 = d.uid
          ∧ leAt h.payload 8 8 = d.fab.root % 2 ^ 64 ∧ leAt h.payload 16 1 = d.fab.hops % 256 ∧ leAt h.payload 17 1 = d.get R.FAB_STAT_DEVNUM
          ∧ leAt h.payload 18 1 % 2 = d.get R.FAB_STAT_VALID ∧ (leAt h.payload 18 1 / 2 = 1 ↔ d.get R.PAIR_STAT_ROLE = 2)
          ∧ leAt h.payload 19 1 = j.val ∧ leAt h.payload 20 4 = 0x10000007 ∧ leAt h.payload 24 2 = d.fab.epoch % 65536
          ∧ leAt h.payload 26 6 = 0 ∧ (keyed → (h.payload.drop 32).take 16 = bytesBE 16 (d.link j.val).nonce.toNat)
          ∧ h.payload.length = if d.fabAuth then 64 else 32))
      ∧ (hello → st < 4 → denied → goes (.helloReceive l f) 4)
      ∧ (hello → st = 4 → goes (.helloReceive l f) 4)
      ∧ (hello → st < 4 → ¬ denied → ¬ same → goes (.helloReceive l f) 3)
      ∧ (hello → st < 4 → ¬ denied → same → 2 ≤ k.good → ¬ keyed ∨ answers ∨ k.auth = true → goes (.helloReceive l f) 2)
      ∧ (hello → st < 3 → ¬ denied → same → k.good < 2 → goes (.helloReceive l f) st
        ∧ s.endsIn (.helloReceive l f) (fun u => (u.link l.val).good = k.good + 1 ∧ (u.link l.val).lastHello = d.time))
      ∧ (hello → st < 3 → ¬ denied → same → keyed → ¬ answers → k.auth = false → goes (.helloReceive l f) st)
      ∧ (hello → st = 1 ∨ st = 2 → same → 2 ≤ k.good → ¬ keyed → fst ≠ 0 → d.fab.dead = none → leAt p 16 1 < 15 →
          leAt p 8 8 < d.uid → others (leAt p 8 8) → leAt p 8 8 ≠ d.fab.root → d.fab.root ≤ d.uid →
          s.endsIn (.helloReceive l f) (fun u => u.get64 R.ROOT_LO R.ROOT_HI = leAt p 8 8 ∧ u.get R.FAB_STAT_ROOT = 0
            ∧ u.get R.TSYNC_STAT_PARENT = l.val ∧ u.get R.FAB_STAT_STATE = 1 ∧ u.raised 7 ∧ u.fab.hops = leAt p 16 1 + 1
            ∧ u.fab.rootSince = d.time ∧ u.get R.FAB_STAT_VALID = d.get R.FAB_STAT_VALID ∧ u.get R.FAB_STAT_DEVNUM = d.get R.FAB_STAT_DEVNUM))
      ∧ (st ≠ 0 → 300000 ≤ (d.time - k.lastHello).toNat → s.endsIn (.helloTimeout l) down)
      ∧ (st = 0 ∨ (d.time - k.lastHello).toNat < 300000 → s.ignores (.helloTimeout l))
      ∧ s.endsIn (.fabricLinkLoss l) (fun u => down u ∧ (u.link l.val).lock = false)
      ∧ (en → on l.val → st = 0 → s.endsIn (.fabricBlockLock l) (fun u => u.get (R.LINK_STAT_STATE l.val) = 1 ∧ u.raised 7
          ∧ (u.link l.val).lock = true ∧ (u.link l.val).good = 0 ∧ (u.link l.val).auth = false
          ∧ (u.link l.val).nonce = BitVec.ofNat 128 (Config.trng d.key.draws).toNat ∧ u.key.draws = d.key.draws + 1))
      ∧ (¬ en ∨ ¬ on l.val ∨ st ≠ 0 → s.ends (.fabricBlockLock l) (d.updLink l.val (fun k => { k with lock := true })))
      ∧ (fst = 1 → 1000000 ≤ (d.time - d.fab.rootSince).toNat → s.endsIn .electionSettled (fun u => u.get R.FAB_STAT_STATE = 2 ∧ u.raised 7
          ∧ u.fab.joinAt = d.time))
      ∧ (fst ≠ 1 ∨ (d.time - d.fab.rootSince).toNat < 1000000 → s.ignores .electionSettled)
      ∧ (root → fst ≠ 0 → s.ends .epochTick (d.updFab (fun b => { b with epoch := (b.epoch + 1) % 65536, epochAt := d.time })))
      ∧ (¬ root ∨ fst = 0 → s.ignores .epochTick)
      ∧ (¬ root → fst ≠ 0 → 3000000 ≤ (d.time - d.fab.epochAt).toNat → d.fab.root ≠ d.uid →
          (∀ j : Fin 4, d.fabLinkUp j.val = true → (d.link j.val).nHops < 15 → d.uid < (d.link j.val).nRoot
            ∨ ((d.link j.val).nRoot = d.fab.root ∧ (d.link j.val).nEpoch = d.fab.epoch)) →
          s.endsIn .rootTimeout (fun u => u.get R.FAB_STAT_ROOT = 1 ∧ u.get64 R.ROOT_LO R.ROOT_HI = d.uid
            ∧ u.get R.TSYNC_STAT_PARENT = 0xFF ∧ u.get R.FAB_STAT_STATE = 1 ∧ u.raised 7 ∧ u.fab.hops = 0))
      ∧ (root ∨ fst = 0 ∨ (d.time - d.fab.epochAt).toNat < 3000000 → s.ignores .rootTimeout)
      ∧ (d.writes r R.FAB_CMD_CNT_CLR = true → s.endsRegs (.fabCntClr r) [R.FAB_DROP, R.LINK_CRC 0, R.LINK_CRC 1, R.LINK_CRC 2, R.LINK_CRC 3]
          (fun u => u.get R.FAB_DROP = 0 ∧ ∀ j : Fin 4, u.get (R.LINK_CRC j.val) = 0))

/-- R373, R374, R366: JOIN carries the present and the requested number; the root keeps present numbers (the lower UID where two claim one),
grants requested ones and gives out the lowest free; ASSIGN returns on the link of the JOIN; LSAs flood where newer and age out after
30 ms; routes take the lowest link to a neighbour; a number claimed by a lower UID is given up. -/
def Obligations.FabricNumbersAndRoutes : Prop :=
  ∀ (s : State) (r : Req) (l : Fin 4) (f : FabFrame) (x : BitVec 64), s.dev.sys.held = false →
    let d := s.dev
    let fst := d.get R.FAB_STAT_STATE
    let root : Prop := d.flag R.FAB_STAT_ROOT = true
    let par := d.get R.TSYNC_STAT_PARENT
    let got (n : Nat) : Prop := d.flag R.FAB_CFG_EN = true ∧ (d.get R.FAB_CFG_LINKEN).testBit l.val = true ∧ (d.link l.val).lock = true
      ∧ f.crcOk = true ∧ f.ver.toNat / 16 = 1 ∧ d.get (R.LINK_STAT_STATE l.val) = 2 ∧ f.kind = BitVec.ofNat 8 n
    let p := f.payload
    let u0 := leAt p 0 8
    let cur : Option Nat := if (leAt p 10 1).testBit 0 then some (leAt p 8 1) else none
    let req : Option Nat := if (leAt p 10 1).testBit 1 then some (leAt p 9 1) else none
    let used (n : Nat) : Prop := ∃ e ∈ d.fab.nums ++ d.fab.lsdb.map (fun a => (a.num, a.uid)), e.1 = n ∧ e.2 ≠ u0
    let free (o : Option Nat) : Prop := ∃ n ∈ o, ¬ used n
    let low (n : Nat) : Prop := ¬ used n ∧ ∀ m < n, used m
    let later : Prop := got 2 ∧ root ∧ d.fab.assigned = true
    let answer (b v : Nat) : Prop := s.endsIn (.joinReceive l f) (fun u => (∃ h, u.out = .fabric l.val h :: d.out ∧ h.kind = 3
      ∧ leAt h.payload 0 8 = u0 ∧ leAt h.payload 8 1 = b % 256 ∧ leAt h.payload 9 1 = v ∧ h.payload.length = 12)
      ∧ (v = 1 → (b, u0) ∈ u.fab.nums))
    let onward (k : Nat) (u : Dev) : Prop := (1 < f.ttl.toNat → u.out = .fabric k { f with ttl := f.ttl - 1 } :: d.out)
      ∧ (f.ttl.toNat ≤ 1 → u.get R.FAB_DROP = min 0xFFFFFFFF (d.get R.FAB_DROP + 1) ∧ u.out = d.out)
    let own : JoinRec := JoinRec.mk d.uid (if d.flag R.FAB_STAT_VALID then some (d.get R.FAB_STAT_DEVNUM) else none)
      (if d.flag R.FAB_CFG_REQEN then some (d.get R.FAB_CFG_REQ) else none)
    let all := own :: d.fab.joins.filter (fun j => j.uid ≠ d.uid)
    let claims (j : JoinRec) (n : Nat) : Prop := j.cur = some n ∧ ∀ k ∈ all, k.cur = some n → j.uid ≤ k.uid
    let wants (j : JoinRec) (n : Nat) : Prop := j.req = some n ∧ (∀ k ∈ all, k.cur ≠ some n) ∧ (∀ m ∈ j.cur, ¬ claims j m)
      ∧ ∀ k ∈ all, k.req = some n → (∀ m ∈ k.cur, ¬ claims k m) → j.uid ≤ k.uid
    let gathers : Prop := root ∧ fst = 2 ∧ 1000000 ≤ (d.time - d.fab.joinAt).toNat
    let takes (n : Nat) (u : Dev) : Prop := u.get R.FAB_STAT_DEVNUM = n ∧ u.get R.FAB_STAT_VALID = 1 ∧ u.get R.FAB_STAT_FULL = 0
      ∧ u.get R.FAB_STAT_STATE = 3 ∧ u.get R.FAB_ADDR_LEVELS = n ∧ u.routeOf n = 0xA0
    let leaves (u : Dev) : Prop := u.get R.FAB_STAT_VALID = 0 ∧ u.get R.FAB_STAT_DEVNUM = 0 ∧ u.get R.FAB_ADDR_LEVELS = 0xFFFFFF
      ∧ u.get R.FAB_STAT_STATE = 2 ∧ u.raised 7
    let back : Option (Nat × Nat) := d.fab.via.find? (fun e => e.1 == u0)
    let ups := (List.range 4).filter (fun k => d.get (R.LINK_STAT_STATE k) = 2)
    let a := lsaOfBytes p d.time
    let new : Prop := a.uid ≠ d.uid ∧ ∀ y, d.fab.lsdb.find? (fun y => y.uid == a.uid) = some y →
      1 ≤ (a.lseq + 65536 - y.lseq) % 65536 ∧ (a.lseq + 65536 - y.lseq) % 65536 ≤ 0x7FFF
    let old : Prop := ∃ y ∈ d.fab.lsdb, y.uid = x.toNat ∧ 30000000 ≤ (d.time - y.at_).toNat
    let clash : Prop := d.flag R.FAB_STAT_VALID = true ∧ fst = 3
    let num := d.get R.FAB_STAT_DEVNUM
    let beside (k m : Nat) (u : Dev) : Prop := d.get (R.LINK_STAT_STATE k) = 2 ∧ d.flag (R.LINK_STAT_NVALID k) = true
      ∧ d.get (R.LINK_STAT_NDEV k) = m ∧ u.joined num m = true
    (fst = 2 → ¬ root → par < 4 → s.endsIn .joinSend (fun u => ∃ h, u.out = .fabric par h :: d.out ∧ h.kind = 2 ∧ h.ttl = 16 ∧ h.payload.length = 12
        ∧ leAt h.payload 0 8 = d.uid ∧ leAt h.payload 8 1 = num ∧ leAt h.payload 9 1 = d.get R.FAB_CFG_REQ
        ∧ leAt h.payload 10 1 = d.get R.FAB_STAT_VALID + 2 * d.get R.FAB_CFG_REQEN))
      ∧ (fst ≠ 2 ∨ root ∨ 4 ≤ par → s.ignores .joinSend)
      ∧ (later → free cur → answer (cur.getD 0) 1)
      ∧ (later → ¬ free cur → free req → answer (req.getD 0) 1)
      ∧ (later → ¬ free cur → ¬ free req → ∀ n : Fin 256, low n.val → answer n.val 1)
      ∧ (later → (∀ n : Fin 256, used n.val) → answer 0 0)
      ∧ (got 2 → root → d.fab.assigned = false → s.endsIn (.joinReceive l f) (fun u => JoinRec.mk u0 cur req ∈ u.fab.joins ∧ u.out = d.out))
      ∧ (got 2 → ¬ root → par < 4 → s.endsIn (.joinReceive l f) (onward par))
      ∧ (got 2 → s.endsIn (.joinReceive l f) (fun u => u.fab.via.find? (fun e => e.1 == u0) = some (u0, l.val)))
      ∧ (gathers → d.fab.joins.Pairwise (fun j k => j.uid < k.uid) → s.endsIn .rootAssign (fun u =>
          (∀ e ∈ u.fab.nums, ∀ g ∈ u.fab.nums, e.1 = g.1 ↔ e.2 = g.2)
          ∧ (∀ j ∈ all, ∀ n, claims j n ∨ wants j n → (n, j.uid) ∈ u.fab.nums)
          ∧ (d.fab.joins.length < 256 → ∃ n, (n, d.uid) ∈ u.fab.nums ∧ takes n u ∧ u.raised 7 ∧ ∀ j ∈ all, ∃ e ∈ u.fab.nums, e.2 = j.uid)
          ∧ u.fab.joins = [] ∧ u.fab.assigned = true))
      ∧ (¬ gathers → s.ignores .rootAssign)
      ∧ (got 3 → u0 = d.uid → fst = 2 → leAt p 9 1 % 2 = 1 → s.endsIn (.assignReceive l f) (fun u => takes (leAt p 8 1) u ∧ u.raised 7))
      ∧ (got 3 → u0 = d.uid → fst = 2 → leAt p 9 1 % 2 = 0 → s.ends (.assignReceive l f) (d.put R.FAB_STAT_FULL 1))
      ∧ (got 3 → u0 = d.uid → fst ≠ 2 → s.ignores (.assignReceive l f))
      ∧ (got 3 → u0 ≠ d.uid → ∀ e ∈ back, s.endsIn (.assignReceive l f) (onward e.2))
      ∧ (got 3 → u0 ≠ d.uid → back = none → s.ends (.assignReceive l f) (d.satAdd R.FAB_DROP 1))
      ∧ (fst = 3 → s.endsIn .lsaSend (fun u => (∃ b ∈ u.fab.lsdb, b.uid = d.uid ∧ b.num = num ∧ b.lseq = (d.fab.lseq + 1) % 65536)
          ∧ u.out.drop ups.length = d.out ∧ ∀ k ∈ ups, ∃ h, Out.fabric k h ∈ u.out.take ups.length ∧ h.kind = 4 ∧ h.payload.length = 24
            ∧ leAt h.payload 0 1 = num ∧ leAt h.payload 2 2 = (d.fab.lseq + 1) % 65536 ∧ leAt h.payload 4 8 = d.uid
            ∧ ∀ j : Fin 4, (leAt h.payload (13 + 2 * j.val) 1 = 1 ↔ j.val ∈ ups ∧ d.flag (R.LINK_STAT_NVALID j.val) = true)
              ∧ (leAt h.payload (13 + 2 * j.val) 1 = 1 → leAt h.payload (12 + 2 * j.val) 1 = d.get (R.LINK_STAT_NDEV j.val))))
      ∧ (fst ≠ 3 → s.ignores .lsaSend)
      ∧ (got 4 → ¬ new → s.ignores (.lsaReceive l f))
      ∧ (got 4 → new → s.endsIn (.lsaReceive l f) (fun u => a ∈ u.fab.lsdb
          ∧ (f.ttl.toNat ≤ 1 → u.out = d.out)
          ∧ (1 < f.ttl.toNat → u.out.drop (ups.length - 1) = d.out ∧ ∀ k ∈ ups, k ≠ l.val → .fabric k { f with ttl := f.ttl - 1 } ∈ u.out)
          ∧ (clash → a.num = num → a.uid < d.uid → leaves u ∧ u.get R.FAB_STAT_CONFL = 1)
          ∧ (clash → (∀ y ∈ a :: d.fab.lsdb, y.num = num → d.uid ≤ y.uid) → u.get R.FAB_STAT_VALID = 1 ∧ u.routeOf num = 0xA0
            ∧ (∀ m : Fin 256, m.val ≠ num → (∀ k : Fin 4, ¬ beside k.val m.val u) → (∀ y ∈ u.fab.lsdb, y.num ≠ m.val) → u.routeOf m.val = 0xFF)
            ∧ ∀ (k : Fin 4) (m : Fin 256), m.val ≠ num → beside k.val m.val u → (∀ j : Fin 4, j < k → ¬ beside j.val m.val u) →
              u.routeOf m.val = 32 * k.val + 1)))
      ∧ (x.toNat ≠ d.uid → old → s.endsIn (.lsaExpire x) (fun u => ∀ y ∈ u.fab.lsdb, y.uid ≠ x.toNat))
      ∧ (x.toNat = d.uid ∨ ¬ old → s.ignores (.lsaExpire x))
      ∧ (d.writes r R.FAB_CMD_REJOIN = true → (fst = 3 → s.endsIn (.rejoin r) leaves) ∧ (fst ≠ 3 → s.endsRegs (.rejoin r) [] (fun _ => True)))

/-- R366, R367, R371, R376 to R382: a routed frame reaches this device, its next hop with TTL one less, or is dropped and counted; PUBLISH goes
out at multiples of its period with PSEQ one more; a publication is accepted where hash and length agree, and sets STALE otherwise; AGE
counts periods; an exchange of time gives the offset, TLOCK after 16 within 50 ns, and a step above 10 µs where permitted. The rate
correction itself is free within 100 ppm (DESIGN CHOICE, log 9). -/
def Obligations.PublishedVariablesAndTime : Prop :=
  ∀ (s : State) (l : Fin 4) (f : FabFrame) (k : Fin 32), s.dev.sys.held = false → s.dev.ecc = [] →
    let d := s.dev
    let dst := f.dst.toNat
    let got (n : Nat) : Prop := d.flag R.FAB_CFG_EN = true ∧ (d.get R.FAB_CFG_LINKEN).testBit l.val = true ∧ (d.link l.val).lock = true
      ∧ f.crcOk = true ∧ f.ver.toNat / 16 = 1 ∧ d.get (R.LINK_STAT_STATE l.val) = 2 ∧ f.kind = BitVec.ofNat 8 n
    let num := d.get R.FAB_STAT_DEVNUM
    let valid : Prop := d.flag R.FAB_STAT_VALID = true
    let here (dst : Nat) : Prop := dst / 256 = 0xFFFFFF ∨ (dst / 65536 = 0 ∧ valid ∧ dst / 256 % 256 = num)
    let away (dst : Nat) : Prop := dst / 65536 = 0 ∧ ¬ (valid ∧ dst / 256 % 256 = num)
    let wrong (dst : Nat) : Prop := dst / 256 ≠ 0xFFFFFF ∧ (dst / 2 ^ 24 ≠ 0 ∨ (dst / 65536 % 256 ≠ 0 ∧ dst / 256 % 256 ≠ 0)
      ∨ (dst / 65536 % 256 ≠ 0 ∧ ∀ a ∈ d.fab.lsdb, ∀ e ∈ a.grps, e.1 ≠ dst / 65536 % 256))
    let hop (dst : Nat) := d.routeOf (dst / 256 % 256)
    let open_ (dst : Nat) : Prop := hop dst / 32 < 4 ∧ d.get (R.LINK_STAT_STATE (hop dst / 32)) = 2 ∧ (d.get (R.LINK_CAP (hop dst / 32))).testBit 0 = true
    let drop := d.satAdd R.FAB_DROP 1
    let grp := dst / 65536
    let flagged (a : Lsa) (b : Nat) : Prop := ∃ e ∈ a.grps, e.1 = grp ∧ e.2.testBit b = true
    let near (a : Lsa) : Prop := (∃ e ∈ a.grps, e.1 = grp) ∧ ((valid ∧ a.num = num) ∨ d.routeOf a.num / 32 < 4)
    let pair : Prop := ∃ a ∈ d.fab.lsdb, near a ∧ flagged a 1
    let may (a : Lsa) : Prop := near a ∧ (pair → flagged a 2) ∧ (¬ pair → flagged a 0)
    let leads (a : Lsa) : Prop := may a ∧ ∀ b ∈ d.fab.lsdb, may b → b = a ∨ a.uid < b.uid
    let lead (i : Instr) : Prop := got 0x10 → 1 ≤ grp → grp < 256 → dst / 256 % 256 = 0 → ∀ a ∈ d.fab.lsdb, leads a → ¬ (valid ∧ a.num = num) →
      a.num < 256 → 1 < f.ttl.toNat → open_ (256 * a.num) → s.ends i (d.emit (.fabric (hop (256 * a.num) / 32) { f with ttl := f.ttl - 1 }))
    let routed (i : Instr) : Prop := lead i ∧ (got 0x10 → away dst → 1 < f.ttl.toNat → open_ dst → s.ends i (d.emit (.fabric (hop dst / 32) { f with ttl := f.ttl - 1 })))
      ∧ (got 0x10 → wrong dst ∨ (away dst ∧ (f.ttl.toNat ≤ 1 ∨ ¬ open_ dst)) → s.ends i drop)
    let p := f.payload
    let w := d.get (R.SUB_DST_ADDR k.val)
    let len := d.get (R.SUB_DST_LEN k.val)
    let usable (w n len : Nat) : Prop := 0x30000 ≤ w ∧ w + n + len ≤ 0x40000 ∧ 1 ≤ len ∧ len ≤ 124
    let m (u : Dev) (i : Nat) : BitVec 16 := u.mw .mark (w + i - 0x30000)
    let want := (m d 2).toNat + 65536 * (m d 3).toNat
    let mine (j : Fin 32) : Prop := d.get (R.SUB_CTRL_SRCDEV j.val) = f.src.toNat / 256 % 256 ∧ d.get (R.SUB_CTRL_PUB_ID j.val) = leAt p 0 1
    let only : Prop := mine k ∧ d.flag (R.SUB_CTRL_EN k.val) = true ∧ ∀ j : Fin 32, j ≠ k → ¬ mine j
    let agrees : Prop := leAt p 4 4 = want ∧ want ≠ 0 ∧ p.length = 8 + 2 * len
    let arrives : Prop := got 0x10 ∧ here dst ∧ only
    let sub := d.subSt k.val
    let still (u : Dev) : Prop := ∀ a : Fin 65536, 0x30000 + a.val < w ∨ w + len + 4 ≤ 0x30000 + a.val → u.mw .mark a.val = d.mw .mark a.val
    let per (n : Nat) : Nat := max 1 n * 15625
    let sw := d.get (R.PUB_SRC_ADDR k.val)
    let sl := d.get (R.PUB_SRC_LEN k.val)
    let due : Prop := d.flag (R.PUB_CTRL_EN k.val) = true ∧ d.flag R.FAB_CFG_EN = true ∧ d.time.toNat % per (d.get (R.PUB_CTRL_PER k.val)) = 0
    let pd := d.get (R.PUB_DST k.val)
    let ticks : Prop := d.time.toNat % per (d.get (R.SUB_CTRL_PER k.val)) = 0 ∧ d.flag (R.SUB_CTRL_EN k.val) = true
    let par := d.get R.TSYNC_STAT_PARENT
    let follows : Prop := d.get R.FAB_STAT_STATE = 3 ∧ d.flag R.FAB_STAT_ROOT = false
    let asks : Prop := follows ∧ d.get R.PAIR_STAT_ROLE ≠ 2 ∧ par < 4 ∧ d.get (R.LINK_STAT_STATE par) = 2 ∧ (d.get (R.LINK_CAP par)).testBit 1 = true
    let t (i : Nat) : Int := (leAt p i 8 : Nat)
    let now : Int := (d.time.toNat : Nat)
    let ofs : Int := ((t 8 - t 0) - (now - t 16)).tdiv 2
    let mine1 : Prop := d.fab.t1 = some (BitVec.ofNat 64 (leAt p 0 8)) ∧ follows
    let steps : Prop := d.flag R.FAB_CFG_STEPEN = true ∧ d.get R.SCAN_STAT_STATE = 0
      ∧ ∀ x : Fin 4, d.get (R.RING_STAT_STATE x.val) = 0 ∨ d.get (R.RING_STAT_STATE x.val) = 7
    let lock (u : Dev) : Nat := u.get R.FAB_STAT_TLOCK
    routed (.fabricFrameReceive l f) ∧ routed (.publishReceive l f)
      ∧ (arrives → usable w 4 len → agrees → s.endsIn (.publishReceive l f) (fun u => m u 0 = 0 ∧ m u 1 = BitVec.ofNat 16 (leAt p 2 2)
          ∧ m u 2 = m d 2 ∧ m u 3 = m d 3 ∧ (∀ i < len, m u (4 + i) = BitVec.ofNat 16 (leAt p (8 + 2 * i) 2)) ∧ still u ∧ u.out = d.out
          ∧ (u.subSt k.val).got = true))
      ∧ (arrives → usable w 4 len → ¬ agrees → sub.stale = true → s.ignores (.publishReceive l f))
      ∧ (arrives → usable w 4 len → ¬ agrees → sub.stale = false → s.endsIn (.publishReceive l f) (fun u =>
          m u 0 = BitVec.ofNat 16 (0x8000 + sub.age) ∧ (∀ i < len + 3, m u (1 + i) = m d (1 + i)) ∧ still u ∧ u.raised 7))
      ∧ (arrives → ¬ usable w 4 len → s.ends (.publishReceive l f) (d.put R.FAB_STAT_CFGERR 1))
      ∧ (got 0x10 → here dst → (∀ j : Fin 32, ¬ mine j) → s.ignores (.publishReceive l f) ∧ s.ignores (.fabricFrameReceive l f))
      ∧ (¬ due → s.ignores (.publishSend k))
      ∧ (due → ¬ usable sw 2 sl → s.ends (.publishSend k) (d.put R.FAB_STAT_CFGERR 1))
      ∧ (due → usable sw 2 sl → away pd → open_ pd → s.endsIn (.publishSend k) (fun u => ∃ h, u.out = .fabric (hop pd / 32) h :: d.out
          ∧ h.kind = 0x10 ∧ h.ver = 0x10 ∧ h.ttl = 16 ∧ h.dst.toNat = pd ∧ h.src.toNat = (if d.flag R.FAB_STAT_VALID then num * 256 else 0xFFFFFF00)
          ∧ leAt h.payload 0 1 = k.val ∧ leAt h.payload 2 2 = (Store.get (fun _ => 0) d.fab.pseq k.val + 1) % 65536
          ∧ h.payload.length = 8 + 2 * sl ∧ (∀ i < sl + 2, leAt h.payload (4 + 2 * i) 2 = (d.mw .mark (sw + i - 0x30000)).toNat)
          ∧ u.mem = d.mem ∧ u.regs = d.regs))
      ∧ (due → usable sw 2 sl → wrong pd ∨ (away pd ∧ ¬ open_ pd) → s.endsIn (.publishSend k) (fun u =>
          u.get R.FAB_DROP = min 0xFFFFFFFF (d.get R.FAB_DROP + 1) ∧ u.out = d.out))
      ∧ (¬ ticks → s.ignores (.subAgeTick k))
      ∧ (ticks → ¬ usable w 4 len → s.ends (.subAgeTick k) (d.put R.FAB_STAT_CFGERR 1))
      ∧ (ticks → usable w 4 len → s.endsIn (.subAgeTick k) (fun u => m u 0 = BitVec.ofNat 16 ((if sub.stale then 0x8000 else 0)
          + (if sub.got then 0 else if sub.age = 0xFF then 0xFF else min 0xFE (sub.age + 1))) ∧ still u ∧ u.out = d.out
          ∧ (∀ i < len + 3, m u (1 + i) = m d (1 + i)) ∧ (u.subSt k.val).got = false))
      ∧ (asks → s.endsIn .tsyncRequest (fun u => ∃ h, u.out = .fabric par h :: d.out ∧ h.kind = 5 ∧ h.ttl = 1 ∧ h.payload.length = 8
          ∧ leAt h.payload 0 8 = d.time.toNat ∧ u.fab.t1 = some d.time))
      ∧ (¬ asks → s.ignores .tsyncRequest)
      ∧ (got 5 → p.length = 8 → (d.get (R.LINK_CAP l.val)).testBit 1 = true → s.endsIn (.tsyncReqReceive l f) (fun u => ∃ h,
          u.out = .fabric l.val h :: d.out ∧ h.kind = 6 ∧ h.ttl = 1 ∧ h.payload.length = 24 ∧ leAt h.payload 0 8 = leAt p 0 8
          ∧ leAt h.payload 8 8 = d.time.toNat ∧ leAt h.payload 16 8 = d.time.toNat))
      ∧ (got 5 → (d.get (R.LINK_CAP l.val)).testBit 1 = false → s.ends (.tsyncReqReceive l f) drop)
      ∧ (got 6 → mine1 → s.endsIn (.tsyncResponse l f) (fun u => u.getS R.TSYNC_OFS = max (-(2 ^ 31)) (min (2 ^ 31 - 1) ofs) ∧ u.fab.t1 = none
          ∧ u.fab.delay = ((now - t 0) - (t 16 - t 8)).tdiv 2
          ∧ (50 < ofs.natAbs → lock u = 0 ∧ u.fab.exch = 0)
          ∧ (ofs.natAbs ≤ 50 → d.fab.exch < 15 → lock u = lock d ∧ u.fab.exch = d.fab.exch + 1)
          ∧ (ofs.natAbs ≤ 50 → 15 ≤ d.fab.exch → lock u = 1)
          ∧ (10000 < ofs.natAbs → steps → (u.time.toNat : Int) = (now + ofs) % 2 ^ 64 ∧ u.raised 14)
          ∧ (ofs.natAbs ≤ 10000 ∨ ¬ steps → u.time = d.time ∧ (u.getS R.TB_ADJ).natAbs ≤ 100000)))
      ∧ (got 6 → ¬ mine1 → s.ignores (.tsyncResponse l f))
      ∧ (lock d = 1 → 10000000 ≤ (d.time - d.fab.exchAt).toNat → s.endsIn .tlockTimeout (fun u => lock u = 0 ∧ u.fab.exch = 0))
      ∧ (lock d = 0 ∨ (d.time - d.fab.exchAt).toNat < 10000000 → s.ignores .tlockTimeout)

/-! ## The redundant pair -/

/-- R391, R405, R406, R494, Tables 16.2 and 16.5: HEARTBEAT goes out at whole multiples of 10,000 ns; a received one is noted, proves or denies
the partner, and ends the synchronization where its version or role says so; a lost lane raises event 8, and the last one ends the
synchronization with CAUSE 1; the standby's TIME exchange. Where the spec gives no law: the rate correction (log 9). -/
def Obligations.PairLinkAndTime : Prop :=
  ∀ (s : State) (h : Heartbeat) (lane : Fin 2) (t1 t2 t3 : BitVec 64), s.dev.sys.held = false →
    let d := s.dev
    let role := d.get R.PAIR_STAT_ROLE
    let sync := d.get R.PAIR_STAT_SYNC
    let up : Prop := d.flag R.PAIR_STAT_LANE0 = true ∨ d.flag R.PAIR_STAT_LANE1 = true
    let keyed : Prop := (d.rd R.PS_POL.addr).getLsbD 4 = true
    let opened : Prop := up ∧ (keyed → d.pair.auth = true)
    let this : Fld := if lane = 0 then R.PAIR_STAT_LANE0 else R.PAIR_STAT_LANE1
    let other : Fld := if lane = 0 then R.PAIR_STAT_LANE1 else R.PAIR_STAT_LANE0
    let sends : Prop := role ≠ 0 ∧ up ∧ d.time.toNat % 10000 = 0 ∧ d.sys.fatal = false
    let hears : Prop := role ≠ 0 ∧ up
    let calm : Prop := d.prog.checkEnd = none ∧ d.prog.markDue = false
    let quiet : Prop := d.pair.hand = none ∧ d.pair.sbyTicks = 0
    let major : Prop := h.ver.toNat / 256 = 1
    let lost : Prop := (role = 2 ∧ h.role ≠ 1) ∨ (role = 1 ∧ (h.role ≠ 2 ∨ (sync = 2 ∧ h.sync = 0)))
    let takes (P : Dev → Prop) : Prop := calm → s.endsIn (.heartbeatReceive h) P
    let undecided : Prop := keyed ∧ d.pair.auth = false ∧ d.pair.denied = false
    let proves (k : BitVec 256) : Prop := bytesBE 16 h.proof.toNat = authProof k h.uid.toNat d.uid d.pair.nonce
    let ofs : Int := (((t2.toNat : Int) - t1.toNat) - ((d.time.toNat : Int) - t3.toNat)).tdiv 2
    let follows : Prop := role = 2 ∧ opened
    let steps : Prop := 10000 < ofs.natAbs ∧ d.flag R.FAB_CFG_STEPEN = true ∧ d.get R.SCAN_STAT_STATE = 0
      ∧ ∀ x : Fin 4, d.get (R.RING_STAT_STATE x.val) = 0 ∨ d.get (R.RING_STAT_STATE x.val) = 7
    (sends → s.endsIn .heartbeatSend (fun u => ∃ b, u.out = .pair 0x20 b :: d.out ∧ b.take 6 = [role, sync, d.get R.PAIR_CFG_SIDE, 0x100,
        d.get R.MIR_PT, d.get R.MIR_CYC] ∧ (¬ keyed → b.length = 6) ∧ (keyed → b.length = 23 ∧ b.getD 6 0 = d.pair.nonce.toNat)
        ∧ (keyed → ∀ k ∈ d.pairKey, ∀ n ∈ d.pair.pNonce, b.drop 7 = (authProof k d.uid d.pair.pUid n).map (fun x => x.toNat))
        ∧ u.regs = d.regs ∧ u.pair = d.pair))
      ∧ (¬ sends → s.ignores .heartbeatSend)
      ∧ (¬ hears → s.ignores (.heartbeatReceive h))
      ∧ (hears → takes (fun u => u.flag R.PAIR_STAT_PACT = h.act ∧ u.get R.MIR_VER_PARTNER = h.ver.toNat ∧ u.pair.hbAt = some d.time
          ∧ u.pair.pRole = h.role.val ∧ u.pair.pSync = h.sync.val ∧ u.pair.pUid = h.uid.toNat
          ∧ u.pair.hbActAt = (if h.role = 1 then some d.time else d.pair.hbActAt) ∧ u.get R.PAIR_STAT_ROLE = role ∧ u.mem = d.mem ∧ u.out = d.out))
      ∧ (hears → ¬ major → takes (fun u => u.get R.PAIR_STAT_SYNC = 0 ∧ u.get R.PAIR_STAT_CAUSE = 2))
      ∧ (hears → major → quiet → sync ≠ 0 → lost → takes (fun u => u.get R.PAIR_STAT_SYNC = 0 ∧ u.get R.PAIR_STAT_CAUSE = 5 ∧ u.pair.stage = []))
      ∧ (hears → major → quiet → ¬ lost → takes (fun u => u.get R.PAIR_STAT_SYNC = sync ∧ u.get R.PAIR_STAT_CAUSE = d.get R.PAIR_STAT_CAUSE
          ∧ u.pair.stage = d.pair.stage))
      ∧ (hears → undecided → d.pairKey = none → takes (fun u => u.pair.auth = false ∧ u.pair.denied = true ∧ u.raised 8))
      ∧ (hears → undecided → h.proof ≠ 0 → ∀ k ∈ d.pairKey, takes (fun u => (u.pair.auth = true ↔ proves k) ∧ (u.pair.denied = true ↔ ¬ proves k)
          ∧ (¬ proves k → u.raised 8)))
      ∧ (hears → keyed → takes (fun u => u.pair.pNonce = some h.nonce))
      ∧ (hears → keyed → ¬ undecided ∨ (h.proof = 0 ∧ d.pairKey ≠ none) → takes (fun u => u.pair.auth = d.pair.auth ∧ u.pair.denied = d.pair.denied))
      ∧ s.endsIn (.pairBlockLock lane) (fun u => u.get this = 1 ∧ u.get other = d.get other ∧ u.get R.PAIR_STAT_SYNC = sync
          ∧ u.pair.nonce = BitVec.ofNat 128 (Config.trng d.key.draws).toNat ∧ u.key.draws = d.key.draws + 1
          ∧ (¬ up → u.pair.auth = false ∧ u.pair.denied = false ∧ u.pair.pNonce = none) ∧ (up → u.pair.auth = d.pair.auth))
      ∧ (d.flag this = true → d.flag other = true ∨ calm → s.endsIn (.pairLaneLoss lane) (fun u => u.get this = 0 ∧ u.get other = d.get other ∧ u.raised 8
          ∧ u.get R.PAIR_STAT_ROLE = role ∧ (d.flag other = true → u.get R.PAIR_STAT_SYNC = sync ∧ u.pair.auth = d.pair.auth)
          ∧ (d.flag other = false → u.get R.PAIR_STAT_SYNC = 0 ∧ u.pair.auth = false ∧ u.pair.fenceAt = d.pair.fenceAt
            ∧ (sync ≠ 0 → u.get R.PAIR_STAT_CAUSE = 1))))
      ∧ (d.flag this = false → s.ignores (.pairLaneLoss lane))
      ∧ (follows → s.endsIn (.pairTimeExchange t1 t2 t3) (fun u => (ofs.natAbs ≤ 10 → u.tm.good = min 16 (d.tm.good + 1))
          ∧ (10 < ofs.natAbs → u.tm.good = 0)
          ∧ (steps → (u.time.toNat : Int) = ((d.time.toNat : Int) + ofs) % 2 ^ 64 ∧ u.raised 14)
          ∧ (¬ steps → u.time = d.time ∧ (u.getS R.TB_ADJ).natAbs ≤ 100000)))
      ∧ (¬ follows → s.ignores (.pairTimeExchange t1 t2 t3))

/-- R387, R400 to R402, R407, R408, Tables 16.5: a failure of the partner makes a SYNCED standby fence it; a takeover follows where PARTNER_ACT
reads low in time, and FENCE_FAIL where not; GO_ACTIVE needs a silent partner; DUAL demotes the member with SIDE 1; SWITCH closes a
point with HANDOVER, and the two members exchange their roles around t_h without a lost ring cycle. -/
def Obligations.PairFailureAndSwitchover : Prop :=
  ∀ (s : State) (r : Req) (x : Fin 4) (t : BitVec 64) (p th : Nat) (o : Fin 2048), s.dev.sys.held = false → s.dev.ecc = [] →
    let d := s.dev
    let now := d.time.toNat
    let role := d.get R.PAIR_STAT_ROLE
    let sync := d.get R.PAIR_STAT_SYNC
    let up : Prop := d.flag R.PAIR_STAT_LANE0 = true ∨ d.flag R.PAIR_STAT_LANE1 = true
    let opened : Prop := role ≠ 0 ∧ up ∧ ((d.rd R.PS_POL.addr).getLsbD 4 = true → d.pair.auth = true)
    let keeps (u : Dev) : Prop := u.get R.PAIR_STAT_ROLE = role ∧ u.pair.fenceAt = d.pair.fenceAt
    let calm : Prop := d.prog.checkEnd = none ∧ d.prog.markDue = false
    let fails (i : Instr) : Prop :=
      (role = 2 → sync = 2 → d.pair.fencing = false → s.endsIn i (fun u => u.pair.fenceAt = some d.time ∧ u.pair.fencing = true ∧ u.raised 8
        ∧ u.get R.PAIR_STAT_ROLE = 2 ∧ u.get R.PAIR_STAT_SYNC = 2))
      ∧ (role = 2 → sync = 2 → d.pair.fencing = true → s.endsIn i (fun u => keeps u ∧ u.get R.PAIR_STAT_SYNC = 2))
      ∧ (role = 2 → sync ≠ 2 → calm → s.endsIn i (fun u => keeps u ∧ u.get R.PAIR_STAT_SYNC = 0 ∧ u.raised 8 ∧ u.pair.fencing = d.pair.fencing))
      ∧ (role = 1 → calm → s.endsIn i (fun u => keeps u ∧ u.get R.PAIR_STAT_SYNC = 0 ∧ (sync ≠ 0 → u.get R.PAIR_STAT_CAUSE = 5) ∧ u.mem = d.mem))
    let missed : Prop := up ∧ d.pair.hbAt = some t ∧ t.toNat / 10000 * 10000 + 31000 ≤ now
    let tn := now / d.ringT x.val * d.ringT x.val
    let ringOf (x : Nat) := Store.get (fun _ => 0) d.pair.pRings x
    let absent : Prop := role = 2 ∧ ringOf x.val / 2 = 5 ∧ (∀ b ∈ d.pair.hbAt, b.toNat + 10000 ≤ now)
      ∧ tn + (d.ring x.val).standbyDs + 1000 ≤ now ∧ (d.ring x.val).mfAt.toNat < tn
    let fenced : Prop := d.pair.fenceAt = some t ∧ d.pair.fencing = true
    let takes : Prop := fenced ∧ role = 2 ∧ sync = 2 ∧ now ≤ t.toNat + 10000
    let works (u : Dev) : Prop := u.get R.PAIR_STAT_ROLE = 1 ∧ u.get R.FIO_STAT_SBY = 0 ∧ u.get R.SCAN_STAT_STATE = 2
      ∧ u.get R.SCAN_STAT_COLD = b2n d.pair.cold ∧ u.scan.takeover = true ∧ u.scan.first = false ∧ u.pair.stage = [] ∧ u.pair.mwIn = []
      ∧ u.pair.hand = none
      ∧ (d.forcesOf true = [] → u.mw (.qHalf (!u.scan.qShadow)) o.val = d.mw (.qHalf d.scan.qShadow) o.val)
      ∧ (ringOf x.val / 2 ≠ 5 → u.get (R.RING_STAT_STATE x.val) = d.get (R.RING_STAT_STATE x.val))
    let silent : Prop := role = 2 ∧ d.get R.PAIR_STAT_PACT = 0 ∧ d.pair.pactAt.toNat + 1000000 ≤ now
      ∧ ∀ b ∈ d.pair.hbActAt, b.toNat + 1000000 ≤ now
    let idle (u : Dev) : Prop := u.get R.PAIR_STAT_ROLE = 2 ∧ u.get R.SCAN_STAT_STATE = 0
      ∧ (d.get (R.RING_STAT_STATE x.val) ≠ 7 → u.get (R.RING_STAT_STATE x.val) = 0)
    let may : Prop := role = 1 ∧ sync = 2 ∧ d.pair.switch = false
    let longest := (List.range 4).foldl (fun m y => if d.get (R.RING_STAT_STATE y) = 5 then max m (d.ringT y) else m) 0
    let hand : Prop := d.pair.hand = some (p, th)
    let late : Prop := hand ∧ d.pair.switch = true ∧ d.pair.handAck = false ∧ th ≤ now + 5000
    let leaves : Prop := hand ∧ role = 1 ∧ d.pair.switch = true ∧ d.pair.handAck = true ∧ th ≤ now + 3000
    let enters : Prop := hand ∧ role = 2 ∧ th ≤ now + 1000
    (missed → fails .heartbeatMiss) ∧ (d.pair.hbAt = some t → ¬ missed → s.ignores .heartbeatMiss)
      ∧ (d.pair.hbAt = none → s.ignores .heartbeatMiss)
      ∧ (opened → fails .noticeReceive) ∧ (¬ opened → s.ignores .noticeReceive)
      ∧ (role = 2 → d.pair.pRole = 1 → d.pair.hand = none → fails .partnerActLow)
      ∧ (role ≠ 2 ∨ d.pair.pRole ≠ 1 ∨ d.pair.hand ≠ none → s.endsIn .partnerActLow (fun u => keeps u ∧ u.get R.PAIR_STAT_SYNC = sync))
      ∧ s.endsIn .partnerActLow (fun u => u.get R.PAIR_STAT_PACT = 0)
      ∧ (absent → fails (.masterFrameAbsent x)) ∧ (¬ absent → s.ignores (.masterFrameAbsent x))
      ∧ (fenced → calm → t.toNat + 10000 ≤ now → s.endsIn .fenceTimeout (fun u => u.get R.PAIR_STAT_FENCE_FAIL = 1 ∧ u.get R.PAIR_STAT_SYNC = 0
          ∧ (sync ≠ 0 → u.get R.PAIR_STAT_CAUSE = 4) ∧ keeps u ∧ u.pair.fencing = false))
      ∧ (d.pair.fenceAt = some t → d.pair.fencing = false ∨ now < t.toNat + 10000 → s.ignores .fenceTimeout)
      ∧ (d.pair.fenceAt = some t → t.toNat + 100000 ≤ now → s.ends .fenceRelease (d.updPair (fun q => { q with fenceAt := none })))
      ∧ (d.pair.fenceAt = some t → now < t.toNat + 100000 → s.ignores .fenceRelease)
      ∧ (takes → s.endsIn .takeover (fun u => works u ∧ u.get R.TKO_CNT_TAKE = min 65535 (d.get R.TKO_CNT_TAKE + 1) ∧ u.get R.PAIR_STAT_SYNC = 0
          ∧ u.pair.fencing = false ∧ u.pair.fenceAt = some t ∧ u.pair.sbyTicks = 0
          ∧ (ringOf x.val / 2 = 5 → u.get (R.RING_STAT_STATE x.val) = 5 ∧ u.get (R.RING_STAT_HEALED x.val) = 1
            ∧ u.get (R.RING_HEAL_STAT_PHASE x.val) = 2 ∧ u.raised 6
            ∧ (u.ring x.val).startAt = BitVec.ofNat 64 (now + 2000))))
      ∧ (d.pair.fenceAt = some t → ¬ takes → s.ignores .takeover)
      ∧ (d.pair.fenceAt = none → s.ignores .takeover ∧ s.ignores .fenceTimeout ∧ s.ignores .fenceRelease)
      ∧ (d.writes r R.PAIR_CTRL_GO_ACTIVE = true →
        (silent → s.endsIn (.goActive r) (fun u => u.get R.PAIR_STAT_ROLE = 1 ∧ u.get R.FIO_STAT_SBY = 0
          ∧ u.get R.SCAN_STAT_STATE = d.get R.SCAN_STAT_STATE ∧ u.scan.takeover = true ∧ u.mem = d.mem))
        ∧ (¬ silent → s.endsRegs (.goActive r) [R.PAIR_STAT_DENY] (fun u => u.get R.PAIR_STAT_DENY = 1))
        ∧ (may → s.endsIn (.switch r) (fun u => u.pair.switch = true ∧ u.pair.hold = true ∧ u.get R.PAIR_STAT_ROLE = 1
          ∧ (d.get R.SCAN_STAT_STATE = 0 ∨ d.get R.SCAN_STAT_STATE = 6 → d.pair.unsent = false → longest ≠ 0 → ∃ n, u.pair.hand = some (u.pair.point, n * longest)
            ∧ now + 20000 ≤ n * longest ∧ n * longest < now + 20000 + longest ∧ u.pair.point = (d.pair.point + 1) % 2 ^ 32
            ∧ u.out.head? = some (.pair 0x26 [u.pair.point, d.get R.SCAN_CNT_CNT, 1, 1, n % 2 ^ 32, d.get R.SCAN_STAT_COLD]))
          ∧ (d.get R.SCAN_STAT_STATE ≠ 0 → d.get R.SCAN_STAT_STATE ≠ 6 → u.pair.hand = none)))
        ∧ (¬ may → s.endsRegs (.switch r) [R.PAIR_STAT_DENY] (fun u => u.get R.PAIR_STAT_DENY = 1)))
      ∧ (role = 1 → d.pair.hand = none → s.endsIn .dualActive (fun u => u.get R.PAIR_STAT_PACT = 1 ∧ u.get R.PAIR_STAT_DUAL = 1 ∧ u.raised 8
          ∧ (d.flag R.PAIR_CFG_SIDE = true → calm → idle u ∧ u.get R.PAIR_STAT_SYNC = 0 ∧ u.get R.FIO_STAT_SBY = 1 ∧ u.fio.on = 0)
          ∧ (d.flag R.PAIR_CFG_SIDE = false → u.get R.PAIR_STAT_ROLE = 1 ∧ u.get R.SCAN_STAT_STATE = d.get R.SCAN_STAT_STATE)))
      ∧ (role ≠ 1 ∨ d.pair.hand ≠ none → s.endsIn .dualActive (fun u => u.get R.PAIR_STAT_PACT = 1 ∧ u.get R.PAIR_STAT_DUAL = d.get R.PAIR_STAT_DUAL
          ∧ keeps u))
      ∧ (late → s.ends .switchoverAckTimeout ((d.put R.PAIR_STAT_DENY 1).updPair (fun q => { q with hold := false, switch := false, hand := none })))
      ∧ (hand → ¬ late → s.ignores .switchoverAckTimeout)
      ∧ (leaves → s.endsIn .switchoverHandoff (fun u => u.get R.PAIR_STAT_ROLE = 2 ∧ u.get R.PAIR_STAT_SYNC = sync ∧ u.get R.SCAN_STAT_STATE = 0
          ∧ u.pair.hold = false ∧ u.pair.switch = false ∧ u.get R.TKO_CNT_PLAN = min 65535 (d.get R.TKO_CNT_PLAN + 1)
          ∧ u.get R.FIO_STAT_SBY = d.get R.FIO_STAT_SBY ∧ u.pair.sbyTicks = 2 ∧ u.fio.on = d.fio.on
          ∧ (d.get (R.RING_STAT_STATE x.val) = 5 → u.get (R.RING_STAT_STATE x.val) = 0 ∧ Store.get (fun _ => 0) u.pair.pRings x.val / 2 = 5)))
      ∧ (enters → s.endsIn .switchoverHandoff (fun u => works u ∧ u.get R.TKO_CNT_PLAN = min 65535 (d.get R.TKO_CNT_PLAN + 1)
          ∧ u.get R.PAIR_STAT_SYNC = sync ∧ (ringOf x.val / 2 = 5 → u.get (R.RING_STAT_STATE x.val) = 5
            ∧ u.get (R.RING_STAT_HEALED x.val) = ringOf x.val % 2 ∧ (u.ring x.val).startAt = BitVec.ofNat 64 th)))
      ∧ (hand → ¬ leaves → ¬ enters → s.ignores .switchoverHandoff)
      ∧ (d.pair.hand = none → s.ignores .switchoverAckTimeout ∧ s.ignores .switchoverHandoff)

/-- R392 to R399, R405, Tables 16.2: Mule writes and lines wait on the standby for their record and their point; a record whose check values
differ ends the synchronization with CAUSE 3; POINT_END applies the lines of its own point alone and is acknowledged; a point closes at
its timer unless the last one is unsent, which counts as LAG; a change and a resynchronization as the stream carries them. -/
def Obligations.PairMirrorStream : Prop :=
  ∀ (s : State) (ws : List MuleWr) (m : MuleRec) (w : BitVec 24) (n scan pid : BitVec 32) (ls : List (BitVec 16)) (image cold : Bool)
      (hand : Option (BitVec 32)) (f : ChangeFrame) (c : SyncCopy) (ok : Bool) (off : BitVec 21), s.dev.sys.held = false → s.dev.ecc = [] →
    let d := s.dev
    let role := d.get R.PAIR_STAT_ROLE
    let sync := d.get R.PAIR_STAT_SYNC
    let prog := d.get R.PROG_STAT_STATE
    let opened : Prop := (d.flag R.PAIR_STAT_LANE0 = true ∨ d.flag R.PAIR_STAT_LANE1 = true) ∧ ((d.rd R.PS_POL.addr).getLsbD 4 = true → d.pair.auth = true)
    let receives : Prop := role = 2 ∧ opened ∧ sync ≠ 0
    let sends : Prop := role = 1 ∧ (sync = 1 ∨ sync = 2)
    let line (w : Nat) : Prop := w % 64 = 0 ∧ ((0x28000 ≤ w ∧ w < 0xC0000) ∨ (0xE4000 ≤ w ∧ w < 0xE8000) ∨ (0x100000 ≤ w ∧ w < 0x200000))
    let staged : Prop := receives ∧ line w.toNat ∧ ls.length = 64
    let sound : Prop := ∀ e ∈ d.pair.stage, line e.2.1 ∧ e.2.2.length = 64
    let mine := d.pair.stage.filter (fun e => e.1 = n.toNat)
    let due : Prop := role = 1 ∧ d.flag R.PAIR_CFG_POLICY = false ∧ d.get R.SCAN_STAT_STATE = 0
      ∧ d.time.toNat % (max 1 (d.get R.PAIR_CFG_MPER) * d.ringT (d.get R.PAIR_CFG_REF)) = 0 ∧ d.pair.lastEnd ≠ d.time.toNat
    let next := (d.pair.point + 1) % 2 ^ 32
    let record : Prop := receives ∧ m.ok = true ∧ sync = 2
    let calm : Prop := d.prog.checkEnd = none ∧ d.prog.markDue = false
    let mine1 : Prop := opened ∧ role = 1 ∧ n.toNat = d.pair.point
    let marker : Out := .pair 0x28 [4, d.pkgId d.inactive]
    let again : Prop := opened ∧ role = 2 ∧ sync = 2
    let starts : Prop := opened ∧ d.get R.MIR_VER_PARTNER / 256 = 1 ∧ sync = 0
    let stby : Prop := role = 2 ∧ d.pair.pRole = 1
    let actv : Prop := role = 1 ∧ d.pair.pRole = 2
    let ends : Prop := opened ∧ sync = 1
    let changes (f : ChangeFrame) (P : Dev → Prop) : Prop := s.endsIn (.changeReceive f) P
    (receives → s.ends (.muleWrReceive ws) (d.updPair (fun p => { p with mwIn := p.mwIn ++ ws })))
      ∧ (¬ receives → s.ignores (.muleWrReceive ws))
      ∧ (staged → s.ends (.lineReceive w n ls) (d.updPair (fun p => { p with stage := p.stage ++ [(n.toNat, w.toNat, ls)] })))
      ∧ (¬ staged → s.ignores (.lineReceive w n ls))
      ∧ (¬ record → s.ignores (.muleRecordReceive m))
      ∧ (record → calm → m.state = 5 → s.endsIn (.muleRecordReceive m) (fun u => u.get R.MIR_CYC = m.cyc.toNat ∧ u.get R.PAIR_STAT_ROLE = 2
          ∧ Store.get (fun _ => 0) u.pair.pRings m.x.val = 10 + b2n m.healed
          ∧ ((∀ r ∈ m.recs, u.axisChecks r.n.val = r.checks) → u.get R.PAIR_STAT_SYNC = 2)
          ∧ (¬ (∀ r ∈ m.recs, u.axisChecks r.n.val = r.checks) → u.get R.PAIR_STAT_SYNC = 0 ∧ u.get R.PAIR_STAT_CAUSE = 3 ∧ u.raised 8)))
      ∧ (record → m.state ≠ 5 → s.endsIn (.muleRecordReceive m) (fun u => u.get R.MIR_CYC = d.get R.MIR_CYC ∧ u.get R.PAIR_STAT_SYNC = 2
          ∧ Store.get (fun _ => 0) u.pair.pRings m.x.val = 2 * m.state.val + b2n m.healed))
      ∧ (¬ receives → s.ignores (.pointEndReceive n scan image hand cold))
      ∧ (receives → sound → s.endsIn (.pointEndReceive n scan image hand cold) (fun u => u.out = .pair 0x27 [n.toNat] :: d.out
          ∧ u.get R.MIR_PT = n.toNat ∧ u.get R.SCAN_CNT_CNT = scan.toNat ∧ u.get R.MIR_LAG_LINES = min 65535 mine.length
          ∧ u.pair.stage = d.pair.stage.filter (fun e => e.1 ≠ n.toNat) ∧ u.pair.cold = cold
          ∧ (∀ a : Fin 65536, (∀ e ∈ mine, (0x30000 + a.val) / 64 ≠ e.2.1 / 64) → u.mw .mark a.val = d.mw .mark a.val)
          ∧ (∀ e ∈ mine, (∀ g ∈ mine, g.2.1 = e.2.1 → g = e) → ∀ i : Fin 64, 0x30000 ≤ e.2.1 → e.2.1 < 0x40000 →
            u.mw .mark (e.2.1 - 0x30000 + i.val) = e.2.2.getD i.val 0)))
      ∧ (mine1 → d.pair.late = none → d.prog.markDue = false → s.endsIn (.ackReceive n) (fun u => u.get R.MIR_PT = n.toNat
          ∧ (d.pair.switch = false → u = (d.put R.MIR_PT n.toNat).updPair (fun p => { p with unsent := false, copied := true, handAck := u.pair.handAck }))
          ∧ ((∃ t, d.pair.hand = some (n.toNat, t)) → u.pair.handAck = true)))
      ∧ (mine1 → sends → d.pair.late = some image → d.prog.markDue = false → d.pair.switch = false → s.endsIn (.ackReceive n) (fun u =>
          u.get R.MIR_PT = n.toNat ∧ u.pair.point = next ∧ u.pair.unsent = true ∧ u.pair.late = none ∧ u.pair.lines = []
          ∧ u.out.head? = some (.pair 0x26 [next, d.get R.SCAN_CNT_CNT, b2n image, 0, 0, d.get R.SCAN_STAT_COLD])))
      ∧ (mine1 → sends → d.pair.late = none → d.prog.markDue = true → d.pair.switch = false → s.endsIn (.ackReceive n) (fun u =>
          u.prog.markDue = false ∧ u.pair.point = next ∧ u.pair.unsent = true ∧ marker ∈ u.out))
      ∧ (¬ opened ∨ role ≠ 1 ∨ n.toNat ≠ d.pair.point → s.ignores (.ackReceive n))
      ∧ (¬ due → s.ignores .mirrorPointTimer)
      ∧ (due → sends → d.pair.unsent = true → s.endsIn .mirrorPointTimer (fun u => u.get R.PAIR_STAT_LAG = 1
          ∧ u.get R.MIR_LAG_CNT = min 65535 (d.get R.MIR_LAG_CNT + 1) ∧ u.raised 9 ∧ u.out = d.out ∧ u.pair.point = d.pair.point))
      ∧ (due → sends → d.pair.unsent = false → s.endsIn .mirrorPointTimer (fun u => u.pair.point = next ∧ u.pair.unsent = true ∧ u.pair.lines = []
          ∧ u.out.head? = some (.pair 0x26 [next, d.get R.SCAN_CNT_CNT, 1, 0, 0, d.get R.SCAN_STAT_COLD])
          ∧ u.out.drop (d.pair.lines.length + 1) = d.out ∧ u.get R.MIR_LAG_LINES = min 65535 d.pair.lines.length
          ∧ ∀ l ∈ d.pair.lines, .pair 0x25 (next :: 64 * l :: (d.lineWords l).map (fun x => x.toNat)) ∈ u.out))
      ∧ (due → ¬ sends → s.endsIn .mirrorPointTimer (fun u => u.out = d.out ∧ u.regs = d.regs ∧ u.mem = d.mem))
      ∧ (role = 1 → opened → d.prog.checkEnd = none → s.ends (.changeReceive (.result ok)) { d with prog := { d.prog with pairRes := some ok } })
      ∧ (role = 1 → opened → sync = 2 → prog = 2 → d.prog.checkEnd = some false → s.endsIn (.changeReceive (.result ok)) (fun u =>
          u.get R.PROG_STAT_STATE = (if ok = true ∧ d.packageErr d.inactive = 0 then 3 else 6)
          ∧ (ok = false → d.packageErr d.inactive = 0 → u.get R.PROG_STAT_ERR = 0x0C)))
      ∧ (role ≠ 1 ∨ ¬ opened → s.ignores (.changeReceive (.result ok)))
      ∧ (¬ receives → (∀ b, f ≠ .result b) → s.ignores (.changeReceive f))
      ∧ (receives → prog = 0 ∨ prog = 1 ∨ prog = 3 ∨ prog = 6 → changes .opened (fun u => u.get R.PROG_STAT_STATE = 1 ∧ u.get R.STAGE_PTR_PTR = 0
          ∧ u.get R.PROG_STAT_ERR = 0))
      ∧ (receives → prog = 1 → changes .prepare (fun u => u.get R.PROG_STAT_STATE = 2))
      ∧ (receives → prog ≠ 0 → prog ≠ 5 → changes .abort (fun u => u.get R.PROG_STAT_STATE = 0))
      ∧ (receives → prog = 0 → s.ignores (.changeReceive .abort))
      ∧ (receives → prog = 1 → off.toNat + ls.length ≤ 0x100000 → changes (.words off ls) (fun u => u.get R.STAGE_PTR_PTR = (off.toNat + ls.length) % 2 ^ 21
          ∧ ∀ i : Fin 64, i.val < ls.length → u.mw (.prog d.inactive) (off.toNat + i.val) = ls.getD i.val 0))
      ∧ (receives → prog = 3 → d.pkgId d.inactive = pid.toNat → changes (.marker pid) (fun u => u.get R.PROG_STAT_STATE = 0
          ∧ u.get R.PROG_STAT_ACTIVE = 1 - d.get R.PROG_STAT_ACTIVE))
      ∧ (prog ≠ 3 ∨ d.pkgId d.inactive ≠ pid.toNat → s.ignores (.changeReceive (.marker pid)))
      ∧ (starts → stby → s.endsIn (.resyncStart pid) (fun u => u.get R.PAIR_STAT_SYNC = 1 ∧ u.out = .pair 0x29 [0, d.get R.PROG_ID] :: d.out
          ∧ u.pair.stage = [] ∧ u.pair.mwIn = []))
      ∧ (starts → actv → s.endsIn (.resyncStart pid) (fun u => u.get R.PAIR_STAT_SYNC = 1
          ∧ (∀ l : Fin 0x8000, (l.val ∈ u.pair.lines ↔ line (64 * l.val)))
          ∧ (pid.toNat ≠ d.get R.PROG_ID → d.prog.loaded = true → Out.pair 0x28 [4, d.pkgId (d.get R.PROG_STAT_ACTIVE == 1)] ∈ u.out)))
      ∧ (¬ starts ∨ (¬ stby ∧ ¬ actv) → s.ignores (.resyncStart pid))
      ∧ (ends → role = 2 → d.pair.copied = true → s.endsIn (.resyncDone c) (fun u => u.get R.PAIR_STAT_SYNC = 2 ∧ u.raised 8
          ∧ u.axes = c.axes ∧ u.groups = c.groups ∧ u.mule = c.mule ∧ u.mem = d.mem))
      ∧ (ends → role = 1 → d.pair.copied = true → d.pair.unsent = false → s.endsIn (.resyncDone c) (fun u => u.get R.PAIR_STAT_SYNC = 2 ∧ u.raised 8
          ∧ u.mem = d.mem ∧ u.axes = d.axes))
      ∧ (again → s.endsIn (.resyncDone c) (fun u => u.get R.PAIR_STAT_SYNC = 2 ∧ u.mem = d.mem ∧ u.axes = d.axes ∧ u.groups = d.groups
          ∧ ∀ (x : Fin 4) (v : BitVec 32), c.regs = [((R.RING_TAPPLY x.val).addr, v)] → u.rd (R.RING_TAPPLY x.val).addr = v))
      ∧ (¬ again → ¬ ends ∨ (role ≠ 1 ∧ role ≠ 2) ∨ d.pair.copied = false ∨ (role = 1 ∧ d.pair.unsent = true) → s.ignores (.resyncDone c))

/-! ## Time and the Goose -/

/-- With no command a nanosecond passes (DESIGN CHOICE, log entry 3): the timebase advances by 0, 1 or 2 so that it stays within
1 ns of the corrected rate (R412), and COUNT of the Goose advances each µs up to PERIOD (R420). A step of the timebase sets it
and raises event 14, or is refused (R414). A read of TIME_LO fills the reader's own latch (R410). A write of 1 clears a pending
bit of the host (R419). Table 17.4 classifies a check-in (R422), the close of a period decides on MISSING, STAGE, the warning
and the reset (R423, R424), and PERIOD, OPEN and REG are written once and take effect with the next period (R421). -/
def Obligations.TimeEventsAndGoose : Prop :=
  ∀ (s : State) (r : Req) (c : CoreId) (k : Fin 4) (reg : Fin 3) (key : BitVec 16) (id : Fin 16) (v : BitVec 32),
    let d := s.dev
    let count := d.get R.GOOSE_COUNT_COUNT
    let seen := d.get R.GOOSE_SEEN
    let at_ := d.get R.TB_SET_LO + 2 ^ 32 * d.get R.TB_SET_HI
    let source := if d.get R.FAB_STAT_STATE = 3 ∧ d.flag R.FAB_STAT_ROOT = false ∧ d.get R.PAIR_STAT_ROLE ≠ 2 then 1
      else if d.get R.PAIR_STAT_ROLE = 2 ∧ (d.flag R.PAIR_STAT_LANE0 = true ∨ d.flag R.PAIR_STAT_LANE1 = true) then 2 else 0
    let free : Prop := (∀ x : Fin 4, d.get (R.RING_STAT_STATE x.val) = 0 ∨ d.get (R.RING_STAT_STATE x.val) = 7)
      ∧ d.get R.SCAN_STAT_STATE = 0 ∧ d.get R.PAIR_STAT_ROLE ≠ 2 ∧ source = 0
    let hi := d.time.extractLsb' 32 32
    let chk : Prop := d.reaches r R.GOOSE_CHK.addr = true ∧ key = 0x4E57
    let regd : Prop := d.tm.gReg.testBit id.val = true
    let failed (u : Dev) : Dev := u.updTm (fun t => { t with gFail := true })
    let full : Prop := d.sys.held = false ∧ count = d.tm.gPeriod
    let served : Prop := d.tm.gReg &&& seen = d.tm.gReg ∧ d.tm.gFail = false
    let fresh (u : Dev) : Prop := u.get R.GOOSE_COUNT_COUNT = 0 ∧ u.get R.GOOSE_SEEN = 0 ∧ u.tm.gFail = false ∧ u.tm.gooseNs = 0
      ∧ u.tm.gPeriod = min 1000000 (max 1000 (d.get R.GOOSE_PERIOD_PERIOD)) ∧ u.tm.gReg = d.get R.GOOSE_REG_IDS
      ∧ u.tm.gOpen = (if d.get R.GOOSE_OPEN_OPEN < u.tm.gPeriod then d.get R.GOOSE_OPEN_OPEN else 0)
      ∧ u.get R.GOOSE_DUP = d.get R.GOOSE_DUP
    let misses (u : Dev) : Prop := ∀ i : Fin 16, (u.get R.GOOSE_MISSING).testBit i.val = (d.tm.gReg.testBit i.val && !seen.testBit i.val)
    let f := match reg with
      | 0 => R.GOOSE_PERIOD_PERIOD
      | 1 => R.GOOSE_OPEN_OPEN
      | _ => R.GOOSE_REG_IDS
    let done : Prop := d.tm.rw1.contains (32 * f.addr) = true
    let one (n : Nat) : Nat := if reg = 2 then n ||| 1 else n
    (s.pending = [] → ∃ t, step s = .next t ∧ t = s.on t.dev ∧ t.dev.mem = d.mem
        ∧ (∃ n : Nat, n ≤ 2 ∧ t.dev.time = d.time + BitVec.ofNat 64 n ∧ ((n : Int) - 1) * 1000000000 + t.dev.tm.ppbAcc = d.tm.ppbAcc + d.getS R.TB_ADJ)
        ∧ (d.tm.ppbAcc.natAbs < 1000000000 → (d.getS R.TB_ADJ).natAbs ≤ 100000 → t.dev.tm.ppbAcc.natAbs < 1000000000)
        ∧ (d.sys.held = false → d.tm.gooseNs < 999 → t.dev.tm.gooseNs = d.tm.gooseNs + 1 ∧ t.dev.get R.GOOSE_COUNT_COUNT = count)
        ∧ (d.sys.held = false → 999 ≤ d.tm.gooseNs → d.tm.gPeriod ≤ 1000000 → t.dev.tm.gooseNs = 0
          ∧ t.dev.get R.GOOSE_COUNT_COUNT = if count < d.tm.gPeriod then count + 1 else count)
        ∧ (d.sys.held = true → t.dev.tm.gooseNs = d.tm.gooseNs ∧ t.dev.get R.GOOSE_COUNT_COUNT = count))
      ∧ (d.writes r R.TB_CTRL_STEP = true →
        (free → s.endsIn (.tbStep r) (fun u => u.time = BitVec.ofNat 64 at_ ∧ u.raised 14 ∧ u.get (R.EV_TSL 14) = at_ % 2 ^ 32
          ∧ u.get R.TB_STAT_STEP_CNT = min 65535 (d.get R.TB_STAT_STEP_CNT + 1) ∧ u.get R.TB_STAT_DENY = d.get R.TB_STAT_DENY
          ∧ u.mem = d.mem ∧ u.tm.gooseNs = d.tm.gooseNs ∧ u.get R.GOOSE_COUNT_COUNT = count ∧ u.bk = d.bk))
        ∧ (¬ free → s.ends (.tbStep r) (d.put R.TB_STAT_DENY 1)))
      ∧ (d.sys.held = false → s.ends (.timeLoRead (.core c))
          (d.updCore c (fun e => if e.inSet1 then { e with timeLat1 := hi } else { e with timeLat0 := hi })))
      ∧ (d.sys.held = false → d.d3hot = false → d.flag R.BOOT_STAT_DEAD = false → d.hostMay 1 false = true → s.ends (.timeLoRead .host)
          ((d.updTm (fun t => { t with hostLat := hi })).emit (.bar [d.time.extractLsb' 0 32] false)))
      ∧ (d.writes r (R.EV_HPEND k.val) = true → s.ends (.evHpendClear r k v)
          (d.wrReg (R.EV_HPEND k.val).addr (d.rd (R.EV_HPEND k.val).addr &&& ~~~v)))
      ∧ (d.reaches r R.GOOSE_CHK.addr = true → key ≠ 0x4E57 → s.ends (.gooseCheckIn r key id) (failed (d.put R.GOOSE_STAT_BADKEY 1)))
      ∧ (chk → ¬ regd → s.ends (.gooseCheckIn r key id) (d.put R.GOOSE_STAT_UNREG 1))
      ∧ (chk → regd → count < d.tm.gOpen → s.ends (.gooseCheckIn r key id) (failed (d.put R.GOOSE_STAT_EARLY 1)))
      ∧ (chk → regd → d.tm.gOpen ≤ count → count < d.tm.gPeriod →
        (seen.testBit id.val = false → s.endsRegs (.gooseCheckIn r key id) [R.GOOSE_SEEN.bit id.val] (fun u => (u.get R.GOOSE_SEEN).testBit id.val = true))
        ∧ (seen.testBit id.val = true → s.endsRegs (.gooseCheckIn r key id) [R.GOOSE_DUP.bit id.val] (fun u => (u.get R.GOOSE_DUP).testBit id.val = true)))
      ∧ (chk → regd → d.tm.gOpen ≤ count → d.tm.gPeriod ≤ count → s.ends (.gooseCheckIn r key id) (d.put R.GOOSE_STAT_LATE 1))
      ∧ (¬ full → s.ignores .goosePeriodClose)
      ∧ (full → served → s.endsIn .goosePeriodClose (fun u => fresh u ∧ u.get R.GOOSE_STAT_STAGE = 0 ∧ u.out = d.out ∧ u.time = d.time
          ∧ u.get R.GOOSE_MISSING = d.get R.GOOSE_MISSING ∧ u.get R.GOOSE_STAT_WARN = d.get R.GOOSE_STAT_WARN ∧ u.sys = d.sys))
      ∧ (full → ¬ served → d.get R.GOOSE_STAT_STAGE = 0 → s.endsIn .goosePeriodClose (fun u => fresh u ∧ misses u ∧ u.raised 0
          ∧ u.get R.GOOSE_STAT_STAGE = 1 ∧ u.get R.GOOSE_STAT_WARN = 1 ∧ u.sys = d.sys))
      ∧ (full → ¬ served → d.get R.GOOSE_STAT_STAGE = 1 → s.endsIn .goosePeriodClose (fun u => fresh u ∧ misses u ∧ u.sys.due.contains .goose = true
          ∧ u.sys.outsOff = true ∧ u.fio.on = 0 ∧ (d.get R.PAIR_STAT_ROLE ≠ 0 → d.flag R.PAIR_STAT_LANE0 = true → u.out = .pair 0x21 [] :: d.out)))
      ∧ (d.reaches r f.addr = true → ¬ done → s.endsIn (.gooseConfigWrite r reg v) (fun u => u.get f = one (f.of v)
          ∧ u.tm.rw1.contains (32 * f.addr) = true ∧ u.tm.gPeriod = d.tm.gPeriod ∧ u.tm.gOpen = d.tm.gOpen ∧ u.tm.gReg = d.tm.gReg
          ∧ u.get R.GOOSE_COUNT_COUNT = count))
      ∧ (d.reaches r f.addr = true → done → s.ends (.gooseConfigWrite r reg v) (if reg = 2 then d.put R.GOOSE_REG_IDS (d.get R.GOOSE_REG_IDS ||| 1) else d))

/-! ## The Hen, MRAM and the backup clock -/

/-- The oldest waiting occurrence becomes the record of Table 18.1 with SEQ = HEN_SEQ + 1: its stamp, source, class, up to 48
words of the class's ranges in order (here those in M; R429, R430, R432, R433), and the tag of R434. It enters buffer entry
SEQ mod 512; an unflushed record there is lost (R438). A flush starts after it where R439 says so, or is due. A flush of one
record brings its words to its slot (R436, R437, R439), unless only the direct path is used and the slot's page is verified
(R441). VERIFY takes one record at a time (R435), ERASE_ALL needs FACTORY and ERASE_RUN leaves the brood (R445), CNT_CLR zeroes
the two counters, a bad range is discarded (R431), and HEN_RSEL holds the selection (R444). -/
def Obligations.HenRecorder : Prop :=
  ∀ (s : State) (r : Req) (o : HenOcc) (rest : List HenOcc) (key : BitVec 256) (b : Bool) (idx : Nat) (c : Fin 16) (k : Fin 4)
    (v : BitVec 32) (i : Fin 2560) (j : Fin 64),
    let d := s.dev
    let seq := d.get R.HEN_SEQ + 1
    let word (u : Dev) (n : Nat) := (u.mw .henBuf (64 * (seq % 512) + n)).toNat
    let cls := (d.get (R.HEN_MAP (o.src / 8))) / 16 ^ (o.src % 8) % 16
    let a0 := d.get (R.HEN_RANGE_ADDR cls 0)
    let a1 := d.get (R.HEN_RANGE_ADDR cls 1)
    let n0 := d.get (R.HEN_RANGE_CNT cls 0)
    let n1 := d.get (R.HEN_RANGE_CNT cls 1)
    let inM (a n : Nat) : Prop := 0x30000 ≤ a ∧ a + n ≤ 0x40000 ∧ ∀ x < n, d.eccAt .mark (a + x - 0x30000) = .ok
    let num := min 48 (n0 + n1)
    let snap (x : Nat) := (d.mw .mark ((if x < n0 then a0 + x else a1 + x - n0) - 0x30000)).toNat
    let plain : Prop := inM a0 n0 ∧ inM a1 n1 ∧ d.get (R.HEN_RANGE_CNT cls 2) = 0 ∧ d.get (R.HEN_RANGE_CNT cls 3) = 0
    let taken : Prop := d.sys.held = false ∧ d.hen.occ = o :: rest ∧ plain ∧ seq < 2 ^ 32 ∧ o.src < 128
    let lostOne : Prop := d.hen.floor + 512 < seq
    let flush : Prop := d.flag (R.HEN_CLS_FLUSH cls) = true ∨ o.special = true ∨ o.src = 0 ∨ o.src = 2
      ∨ (d.flag R.HEN_CFG_AUTOFL = true ∧ d.hen.floor + 256 = seq)
    let busy : Prop := d.flag R.HEN_STAT_FLUSHING = true ∨ d.flag R.HEN_STAT_ERASING = true ∨ (d.nv.closed = true ∧ d.nv.pfRun = false)
    let tagOf (ws : List (BitVec 16)) : List (BitVec 8) :=
      (bytesBE 32 (Config.hmacSha256 (bytesBE 32 key.toNat) (d.uidBytes ++ wordBytes (ws.take 56 ++ (ws.drop 60).take 2))).toNat).take 8
    let slot (n : Nat) := 0x680000 + (if n ≤ 512 then 64 * (n - 1) else 0x8000 + 64 * ((n - 513) % 2048))
    let here := 0x680000 + (if i.val < 512 then 64 * i.val else 0x8000 + 64 * (i.val - 512)) + j.val
    let q := d.hen.floor + 1
    let hard : Prop := d.hen.flushDirect = true ∨ d.nv.pfRun = true ∨ d.sys.fatal = true ∨ d.sys.due ≠ []
    let single : Prop := d.sys.held = false ∧ d.flag R.HEN_STAT_FLUSHING = true ∧ d.hen.flushTo = q ∧ d.get R.HEN_SEQ < q + 512 ∧ q < 2 ^ 32
      ∧ d.hen.due = false ∧ d.ecc = []
    let sel : List (BitVec 16) := if b then (if idx < 512 then d.mws .henBuf (64 * idx) 64 else List.replicate 64 0)
      else (if idx < 2560 then d.nvWords (slot (idx + 1)) 64 else List.replicate 64 0)
    let verifies : Prop := d.sys.held = false ∧ d.hen.verIdx = some (b, idx) ∧ d.key.root.value.isSome = true
    let nokey : Prop := (sel.getD 6 0).getLsbD 14 = true ∨ (ofWords (sel.take 2) ≤ d.hen.oldSeq ∧ (sel.getD 6 0).getLsbD 13 = false)
    let tagged : Prop := ∀ y ∈ d.key.root.value, (bytesBE 32 (Config.hmacSha256 (bytesBE 32 (kdf y "T9648 HEN" d.uidBytes).toNat)
      (d.uidBytes ++ wordBytes (sel.take 56 ++ (sel.drop 60).take 2))).toNat).take 8 = wordBytes ((sel.drop 56).take 4)
    let vres (n : Nat) : Prop := s.ends .henVerifyDone (((d.put R.HEN_STAT_VRES n).put R.HEN_STAT_VBUSY 0).updHen (fun h => { h with verIdx := none }))
    let cnt := v.toNat / 2 ^ 24 % 64
    let adr := v.toNat % 2 ^ 24
    let range : Prop := cnt = 0 ∨ (cnt ≤ 48 ∧ ((0x20000 ≤ adr ∧ adr + cnt ≤ 0xF0000) ∨ (0x200000 ≤ adr ∧ adr + cnt ≤ 0x500000)))
    (d.hen.occ = [] → s.ignores .henCapture)
      ∧ (taken → s.endsIn .henCapture (fun u => u.get R.HEN_SEQ = seq ∧ word u 0 = seq % 65536 ∧ word u 1 = seq / 65536
          ∧ (∀ x < 4, word u (2 + x) = o.ts.toNat / 65536 ^ x % 65536) ∧ word u 6 % 256 = o.src ∧ word u 6 / 256 % 16 = cls
          ∧ (word u 6 / 256 / 16 % 2 = 1 ↔ flush) ∧ word u 6 / 256 / 64 % 2 = b2n (d.key.root.value.isNone) ∧ word u 6 / 32768 = 0
          ∧ word u 7 % 256 = num ∧ word u 7 / 256 = b2n (2000 < d.time.toNat - o.ts.toNat)
          ∧ (∀ x < 48, word u (8 + x) = if x < num then snap x else 0) ∧ word u 60 = min 65535 d.hen.lost ∧ word u 61 = 0
          ∧ word u 62 = seq % 65536 ∧ word u 63 = seq / 65536
          ∧ (d.henKey = some key → wordBytes (u.mws .henBuf (64 * (seq % 512) + 56) 4) = tagOf (u.mws .henBuf (64 * (seq % 512)) 64))
          ∧ (d.henKey = none → u.mws .henBuf (64 * (seq % 512) + 56) 4 = [0, 0, 0, 0])
          ∧ (lostOne → u.raised 12 ∧ min 65535 (d.get R.HEN_STAT_LOST_CNT + 1) ≤ u.get R.HEN_STAT_LOST_CNT)
          ∧ (¬ lostOne → u.hen.occ = rest ∧ u.get R.HEN_STAT_LOST_CNT = d.get R.HEN_STAT_LOST_CNT)
          ∧ (flush → ¬ busy → u.get R.HEN_STAT_FLUSHING = 1 ∧ u.hen.flushTo = seq)
          ∧ (flush → busy → u.hen.due = true ∧ u.get R.HEN_STAT_FLUSHING = d.get R.HEN_STAT_FLUSHING)
          ∧ (¬ flush → u.hen.due = d.hen.due ∧ u.get R.HEN_STAT_FLUSHING = d.get R.HEN_STAT_FLUSHING)))
      ∧ (d.flag R.HEN_STAT_FLUSHING = false → s.ignores .henFlushDone)
      ∧ (single → ¬ (hard ∧ d.pageVerified (slot q / 128) = true) → s.endsIn .henFlushDone (fun u =>
          u.nvWord (slot q + j.val) = d.mw .henBuf (64 * (q % 512) + j.val)
          ∧ ((here < slot q ∨ slot q + 64 ≤ here) → (∀ e ∈ d.nv.buf, ∀ f ∈ d.nv.buf, e.gran = f.gran → e = f) → u.nvWord here = d.nvWord here)
          ∧ u.get R.HEN_FSEQ = q ∧ u.get R.HEN_STAT_FLUSHING = 0 ∧ u.hen.floor = q ∧ u.get R.HEN_SEQ = d.get R.HEN_SEQ
          ∧ (q = 512 → u.get R.HEN_STAT_BFULL = 1 ∧ u.raised 12)))
      ∧ (single → hard → d.pageVerified (slot q / 128) = true → s.ends .henFlushDone
          (((d.put R.HEN_STAT_LOST_CNT (min 65535 (d.get R.HEN_STAT_LOST_CNT + 1))).put R.HEN_STAT_FLUSHING 0).updHen (fun h => { h with floor := q })))
      ∧ (d.writes r R.HEN_CMD = true →
        (¬ busy → s.ends (.henFlush r) ((d.put R.HEN_STAT_FLUSHING 1).updHen (fun h => { h with flushTo := d.get R.HEN_SEQ, flushDirect := false })))
        ∧ (busy → s.ends (.henFlush r) (d.updHen (fun h => { h with due := true })))
        ∧ (d.flag R.HEN_STAT_VBUSY = false → s.ends (.verify r)
          ((d.put R.HEN_STAT_VBUSY 1).updHen (fun h => { h with verIdx := some (d.flag R.HEN_RSEL_BUF, d.get R.HEN_RSEL_IDX) })))
        ∧ (d.flag R.HEN_STAT_VBUSY = true → s.ends (.verify r) (d.put R.HEN_STAT_DENY 1))
        ∧ s.ends (.henCntClr r) ((d.put R.HEN_STAT_LOST_CNT 0).put R.HEN_SUPP 0)
        ∧ s.ends (.eraseRun r) (d.put R.HEN_STAT_ERASING 1)
        ∧ (d.get R.LC_STAT_STATE ≠ 0 ∨ d.flag R.HEN_STAT_ERASING = true ∨ d.flag R.HEN_STAT_FLUSHING = true → s.ends (.eraseAll r) (d.put R.HEN_STAT_DENY 1))
        ∧ (d.get R.LC_STAT_STATE = 0 → d.flag R.HEN_STAT_ERASING = false → d.flag R.HEN_STAT_FLUSHING = false → s.endsIn (.eraseAll r) (fun u =>
            u.nvWord here = 0 ∧ u.mw .henBuf (64 * (i.val % 512) + j.val) = 0 ∧ u.get R.HEN_SEQ = 0 ∧ u.get R.HEN_FSEQ = 0
            ∧ u.get R.HEN_STAT_BFULL = 0 ∧ u.hen.occ = d.hen.occ ∧ u.nvWord 0x67FFFF = d.nvWord 0x67FFFF ∧ u.nvWord 0x700000 = d.nvWord 0x700000)))
      ∧ (verifies → nokey → vres 3) ∧ (verifies → ¬ nokey → tagged → vres 1) ∧ (verifies → ¬ nokey → ¬ tagged → vres 2)
      ∧ (d.sys.held = false → d.hen.verIdx = some (b, idx) → d.key.root.value = none → vres 3)
      ∧ (d.hen.verIdx = none → s.ignores .henVerifyDone)
      ∧ (d.flag R.HEN_STAT_ERASING = false → s.ignores .eraseRunDone)
      ∧ (d.sys.held = false → d.flag R.HEN_STAT_ERASING = true → s.endsIn .eraseRunDone (fun u =>
          (512 ≤ i.val → u.nvWord here = 0) ∧ (i.val < 512 → u.nvWord here = d.nvWord here) ∧ u.get R.HEN_STAT_ERASING = 0
          ∧ u.get R.HEN_SEQ = d.get R.HEN_SEQ ∧ u.mw .henBuf (64 * (i.val % 512) + j.val) = d.mw .henBuf (64 * (i.val % 512) + j.val)
          ∧ (d.hen.due = true → d.flag R.HEN_STAT_FLUSHING = false → d.nv.closed = false → u.get R.HEN_STAT_FLUSHING = 1)))
      ∧ (d.writes r (R.HEN_RANGE c.val k.val) = true →
        (range → s.ends (.henRangeWrite r c k v) (d.lay (R.HEN_RANGE c.val k.val) 0x3FFFFFFF v))
        ∧ (¬ range → s.ends (.henRangeWrite r c k v) (d.put R.HEN_STAT_CFGERR 1)))
      ∧ (d.writes r R.HEN_RSEL = true → s.ends (.henRselWrite r v) (d.lay R.HEN_RSEL 0x80000FFF v))

/-- The oldest buffer entry drains into the array, through a whole page where the page is verified, and no reader sees it
(R448, R449, R452); a partial entry of an uncorrectable granule is lost (R456). A verified pass is repeated up to three times
and then leaves the page with VFAIL (R453, R454). The record engine refuses, denies or starts a command (R460); a read delivers
the copy that Table 19.3 selects (R459), a write makes the other copy the current one (R457, R458). A wear ring is refused or
loads its newest slot (R461, R462); a trigger starts an update or keeps one pending, and the update writes the slot after the
current one with SEQ + 1 (R463). Lengths outside 1 to 1,018 are refused like the rest (log entry 47). -/
def Obligations.NonvolatileStore : Prop :=
  ∀ (s : State) (r : Req) (e : NvEnt) (rest : List NvEnt) (p n : Nat) (fails : List (Fin 32 × Ecc)) (op : NvOp) (k : Fin 16)
    (v : BitVec 32) (off : Fin 0x800000) (i : Nat) (g : Fin 32),
    let d := s.dev
    let page := e.gran / 32
    let verified (p : Nat) : Prop := (∃ x : Fin 8, d.get (R.NV_VRANGE_FIRST x.val) ≤ p ∧ p ≤ d.get (R.NV_VRANGE_LAST x.val))
      ∨ (d.get R.NV_CFG_VTHR ≠ 0 ∧ d.get R.NV_CFG_VTHR ≤ d.pageCount p) ∨ d.eccAt .mram (0x700400 + p / 4) = .unc
    let port : Prop := d.sys.held = false ∧ d.flag R.NV_STAT_VBUSY = false
    let front : Prop := port ∧ d.nv.buf = e :: rest ∧ e.gran < 0x200000
    let forced : Prop := d.nv.pfRun = true ∨ d.sys.fatal = true ∨ d.sys.due ≠ []
    let whole : Prop := e.mask = BitVec.allOnes 64
    let bads := fails.filter (fun x => x.2 != .ok)
    let pass : Prop := d.sys.held = false ∧ d.nv.vpage = some (p, n)
    let addr := d.get R.NVR_ADDR_OFS
    let buf := d.get R.NVR_BUF_ADDR
    let len := d.get R.NVR_LEN_LEN
    let pages (l : Nat) := (l + 6 + 127) / 128
    let refuse : Prop := addr % 128 ≠ 0 ∨ addr < 0x600000 ∨ 0x680000 < addr + 128 * pages len + len + 6 ∨ len = 0 ∨ 1018 < len
      ∨ ¬ ((0x30000 ≤ buf ∧ buf + len ≤ 0xC0000) ∨ (0x200000 ≤ buf ∧ buf + len ≤ 0x300000))
    let result (n : Nat) := (d.put R.NVR_RES_RESULT n).put R.NVR_RES_TIE 0
    let starts (i : Instr) (w : Bool) : Prop := (d.flag R.NV_STAT_BUSY = true → s.ends i (d.put R.NV_STAT_DENY 1))
      ∧ (d.flag R.NV_STAT_BUSY = false → d.nv.closed = true → s.ends i (result 6))
      ∧ (d.flag R.NV_STAT_BUSY = false → d.nv.closed = false → refuse → s.ends i (result 5))
      ∧ (d.flag R.NV_STAT_BUSY = false → d.nv.closed = false → ¬ refuse → s.ends i
          ((d.put R.NV_STAT_BUSY 1).updNv (fun x => { x with op := some { write := w, addr := addr, buf := buf, len := len } })))
    let cA := op.addr
    let cB := op.addr + 128 * pages op.len
    let ok (c : Nat) : Prop := ofWords (d.nvWords (c + op.len + 4) 2) = crc32 (wordBytes (d.nvWords c (op.len + 4)))
      ∧ (d.nvWord (c + 2)).toNat = op.len
    let sq (c : Nat) := ofWords (d.nvWords c 2)
    let newer (a b : Nat) : Prop := 1 ≤ (a + 2 ^ 32 - b) % 2 ^ 32 ∧ (a + 2 ^ 32 - b) % 2 ^ 32 ≤ 0x7FFFFFFF
    let pickB : Prop := ok cB ∧ (ok cA → newer (sq cB) (sq cA))
    let tie : Prop := ok cA ∧ ok cB ∧ sq cA = sq cB ∧ d.nvWords (cA + 4) op.len ≠ d.nvWords (cB + 4) op.len
    let runs (w : Bool) : Prop := d.sys.held = false ∧ d.nv.op = some op ∧ op.write = w ∧ d.ecc = [] ∧ 1 ≤ op.len ∧ op.len ≤ 1018
      ∧ op.addr % 128 = 0 ∧ 0x600000 ≤ op.addr ∧ cB + op.len + 6 ≤ 0x680000 ∧ 0x30000 ≤ op.buf ∧ op.buf + op.len ≤ 0x40000
    let gives (u : Dev) (c : Nat) : Prop := u.get R.NVR_SEQ = sq c ∧ (i < op.len → u.mw .mark (op.buf + i - 0x30000) = d.nvWord (c + 4 + i))
      ∧ u.get R.NVR_RES_RESULT = (if c = cA then 1 else 2) ∧ u.get R.NV_STAT_BUSY = 0 ∧ u.nv.op = none
    let written (u : Dev) (c q l : Nat) (pay : Nat → BitVec 16) : Prop := u.nvArr c = BitVec.ofNat 16 q ∧ u.nvArr (c + 1) = BitVec.ofNat 16 (q / 65536)
      ∧ u.nvArr (c + 2) = BitVec.ofNat 16 l ∧ u.nvArr (c + 3) = 0 ∧ (i < l → u.nvArr (c + 4 + i) = pay i)
      ∧ (u.nvArr (c + l + 4)).toNat + 65536 * (u.nvArr (c + l + 5)).toNat = crc32 (wordBytes ((List.range (l + 4)).map (fun x => u.nvArr (c + x))))
      ∧ ((off.val < c ∨ c + l + 6 ≤ off.val) → u.nvArr off.val = d.nvArr off.val)
    let other := if ¬ ok cA ∧ ¬ ok cB then cA else if pickB then cA else cB
    let next := if ¬ ok cA ∧ ¬ ok cB then 1 else if pickB then (sq cB + 1) % 2 ^ 32 else (sq cA + 1) % 2 ^ 32
    let cfg := (d.lay (R.WRING_CFG k.val) 0xDFCF0FFF (v ||| 0x80000000))
    let size (x : Dev) (q : Nat) := 4 * ((x.get (R.WRING_CFG_P q) + 9) / 4)
    let slots (x : Dev) (q : Nat) := if x.get (R.WRING_CFG_N q) = 0 then 4096 else max 2 (x.get (R.WRING_CFG_N q))
    let base (q : Nat) := d.get (R.WRING_BASE_OFS q)
    let last (x : Dev) (q : Nat) := base q + slots x q * size x q
    let pw := cfg.get (R.WRING_CFG_P k.val)
    let src := d.get (R.WRING_SRC_ADDR k.val)
    let denied : Prop := base k.val % 4 ≠ 0 ∨ base k.val < 0x600000 ∨ 0x680000 < last cfg k.val ∨ pw = 0 ∨ 12 < pw ∨ src < 0x30000 ∨ 0xC0000 < src + pw
      ∨ ∃ q : Fin 16, q ≠ k ∧ d.flag (R.WRING_CFG_EN q.val) = true ∧ base k.val < last cfg q.val ∧ base q.val < last cfg k.val
    let ring := d.wr k.val
    let rp := d.get (R.WRING_CFG_P k.val)
    let at_ (x : Nat) := base k.val + x * size d k.val
    let good (x : Nat) : Prop := ofWords (d.nvWords (at_ x + rp + 4) 2) = crc32 (wordBytes (d.nvWords (at_ x) (rp + 4))) ∧ (d.nvWord (at_ x + 2)).toNat = rp
    let newest : Prop := i < slots d k.val ∧ good i ∧ ∀ x < slots d k.val, x ≠ i → good x → newer (sq (at_ i)) (sq (at_ x))
    let loads : Prop := d.sys.held = false ∧ ring.loading = true ∧ ring.pend = false ∧ d.ecc = []
    let loaded (u : Dev) : Prop := u.wr k.val = { ring with loading := false, loaded := true, slot := (u.wr k.val).slot } ∧ u.mem = d.mem
    let trig (x : WringSt) : WringSt := { x with trigs := x.trigs - 1 }
    let waits : Prop := ring.busy = true ∨ ring.loaded = false
    let copies : Prop := 0x30000 ≤ src ∧ src + rp ≤ 0x40000
    let dest := match ring.slot with
      | none => 0
      | some x => (x + 1) % slots d k.val
    let rseq := (d.get (R.WRING_SEQ k.val) + 1) % 2 ^ 32
    let trg := d.sys.held = false ∧ ring.trigs ≠ 0
    (d.flag R.NV_STAT_VBUSY = true ∨ d.nv.buf = [] → s.ignores .bufferDrain)
      ∧ (front → whole ∨ d.eccAt .mram (4 * e.gran) = .ok → s.endsIn .bufferDrain (fun u => u.nv.buf = rest
          ∧ (∀ x < 4, u.nvArr (4 * e.gran + x) = (d.nvArr (4 * e.gran + x) &&& ~~~(granWord e.mask x)) ||| (granWord e.val x &&& granWord e.mask x))
          ∧ ((∀ f ∈ rest, f.gran ≠ e.gran) → u.nvWord off.val = d.nvWord off.val)
          ∧ (verified page → ¬ forced → u.get R.NV_STAT_VBUSY = 1 ∧ u.nv.vpage = some (page, 0))
          ∧ (¬ verified page ∨ forced → u.get R.NV_STAT_VBUSY = 0 ∧ u.nv.vpage = d.nv.vpage)))
      ∧ (front → ¬ whole → d.eccAt .mram (4 * e.gran) = .unc → s.endsIn .bufferDrain (fun u => u.nv.buf = rest ∧ u.nvArr off.val = d.nvArr off.val))
      ∧ (d.nv.vpage = none → s.ignores (.verifyPassDone fails))
      ∧ (pass → bads ≠ [] → n < 3 → s.ends (.verifyPassDone fails) (d.updNv (fun x => { x with vpage := some (p, n + 1) })))
      ∧ (pass → bads = [] → s.ends (.verifyPassDone fails) ((d.put R.NV_STAT_VBUSY 0).updNv (fun x => { x with vpage := none })))
      ∧ (pass → bads ≠ [] → 3 ≤ n → s.endsIn (.verifyPassDone fails) (fun u => u.get R.NV_STAT_VFAIL = 1 ∧ u.get R.NV_STAT_VBUSY = 0 ∧ u.nv.vpage = none
          ∧ u.get R.NV_ECNT_VFAIL_CNT = min (2 ^ 16 - 1) (d.get R.NV_ECNT_VFAIL_CNT + 1) ∧ u.raised 11 ∧ u.mem = d.mem
          ∧ ((∀ x ∈ bads, x.1 ≠ g) → u.eccAt .mram (128 * p + 4 * g.val) = d.eccAt .mram (128 * p + 4 * g.val))
          ∧ (∀ x ∈ bads, x.1 = g → (∀ y ∈ bads, y.1 = g → y = x) → u.eccAt .mram (128 * p + 4 * g.val) = x.2)))
      ∧ (d.writes r R.NVR_CMD = true → starts (.nvrRead r) false ∧ starts (.nvrWrite r) true)
      ∧ (d.nv.op = none → s.ignores (.nvrDone fails))
      ∧ (runs false → ¬ ok cA → ¬ ok cB → s.endsIn (.nvrDone fails) (fun u => u.get R.NVR_RES_RESULT = 3 ∧ u.get R.NVR_RES_TIE = 0 ∧ u.mem = d.mem
          ∧ u.get R.NV_STAT_BUSY = 0))
      ∧ (runs false → ok cA → ¬ pickB → ¬ tie → s.endsIn (.nvrDone fails) (fun u => gives u cA ∧ u.get R.NVR_RES_TIE = 0 ∧ u.get R.NV_STAT_TIE = d.get R.NV_STAT_TIE))
      ∧ (runs false → pickB → s.endsIn (.nvrDone fails) (fun u => gives u cB ∧ u.get R.NVR_RES_TIE = 0))
      ∧ (runs false → tie → s.endsIn (.nvrDone fails) (fun u => gives u cA ∧ u.get R.NVR_RES_TIE = 1 ∧ u.get R.NV_STAT_TIE = 1 ∧ u.raised 11))
      ∧ (runs true → s.endsIn (.nvrDone []) (fun u => written u other next op.len (fun x => d.mw .mark (op.buf + x - 0x30000))
          ∧ u.get R.NVR_SEQ = next ∧ u.get R.NVR_RES_RESULT = 4 ∧ u.get R.NVR_RES_TIE = 0 ∧ u.get R.NV_STAT_BUSY = 0 ∧ u.nv.op = none))
      ∧ (d.writes r (R.WRING_CFG k.val) = true →
        (denied → s.ends (.wringEnable r k v) (d.put R.NV_STAT_DENY 1))
        ∧ (¬ denied → s.ends (.wringEnable r k v) (cfg.updWr k.val (fun x => { (default : WringSt) with loading := true, trigs := x.trigs }))))
      ∧ (ring.loading = false → s.ignores (.wringLoadDone k))
      ∧ (loads → newest → s.endsIn (.wringLoadDone k) (fun u => loaded u ∧ (u.wr k.val).slot = some i ∧ u.get (R.WRING_SEQ k.val) = sq (at_ i)
          ∧ (rp ≤ 12 → ∀ x < rp, u.get (R.WRING_DATA k.val (x / 2)) / 65536 ^ (x % 2) % 65536 = (d.nvWord (at_ i + 4 + x)).toNat)))
      ∧ (loads → (∀ x < slots d k.val, ¬ good x) → s.endsIn (.wringLoadDone k) (fun u => loaded u ∧ (u.wr k.val).slot = none
          ∧ u.get (R.WRING_SEQ k.val) = 0 ∧ ∀ x < 6, u.get (R.WRING_DATA k.val x) = 0))
      ∧ (ring.trigs = 0 → s.ignores (.wringTrigger k))
      ∧ (trg → d.nv.closed = true → s.ends (.wringTrigger k) (d.updWr k.val trig))
      ∧ (trg → d.nv.closed = false → waits → ring.pend = false → s.endsIn (.wringTrigger k) (fun u => u.wr k.val = { trig ring with pend := true } ∧ u.regs = d.regs))
      ∧ (trg → d.nv.closed = false → waits → ring.pend = true → s.ends (.wringTrigger k) ((d.updWr k.val trig).put R.NV_STAT_WSKIP 1))
      ∧ (trg → d.nv.closed = false → ¬ waits → copies → d.ecc = [] → s.endsIn (.wringTrigger k) (fun u => u.wr k.val
          = { trig ring with busy := true, data := (List.range rp).map (fun x => d.mw .mark (src + x - 0x30000)) } ∧ u.mem = d.mem))
      ∧ (ring.busy = false → s.ignores (.wringUpdateDone k fails))
      ∧ (d.sys.held = false → ring.busy = true → ring.pend = false → ring.data.length = rp → rp ≤ 12 → at_ dest + size d k.val ≤ 0x800000 →
          s.endsIn (.wringUpdateDone k []) (fun u => written u (at_ dest) rseq rp (fun x => ring.data.getD x 0) ∧ u.get (R.WRING_SEQ k.val) = rseq
            ∧ u.wr k.val = { ring with busy := false, slot := some dest } ∧ u.nv.buf = d.nv.buf
            ∧ ∀ x < rp, u.get (R.WRING_DATA k.val (x / 2)) / 65536 ^ (x % 2) % 65536 = (ring.data.getD x 0).toNat))

/-- PFW_N going low closes the writes, drops the rings' triggers, raises event 2 and tells the partner, once for each edge out
of reset (R465, R529). The sequence ends with every path at rest: no pass, no record operation, no update, an empty buffer, no
unflushed record, PFDONE, PF, event 11 and the outputs off (Table 19.4); draining changes no word that a reader sees (R449).
Writes open again after PFW_N has been high (R467). -/
def Obligations.PowerFail : Prop :=
  ∀ (s : State) (k : Fin 16) (off : Fin 0x800000),
    let d := s.dev
    let edge : Prop := d.flag R.NV_STAT_PFW = false ∧ d.nv.armed = true ∧ d.sys.held = false
    let runs : Prop := d.sys.held = false ∧ d.nv.pfRun = true
    let still : Prop := d.nv.op = none ∧ (∀ x : Fin 16, (d.wr x.val).busy = false ∧ d.flag (R.WRING_CFG_FINAL x.val) = false)
      ∧ d.hen.occ = [] ∧ d.get R.HEN_SEQ = d.hen.floor ∧ d.flag R.HEN_STAT_FLUSHING = false ∧ d.ecc = []
      ∧ (∀ e ∈ d.nv.buf, e.gran < 0x200000) ∧ (d.nv.buf.map (fun e => e.gran)).Nodup
    let opens : Prop := d.sys.held = false ∧ d.nv.closed = true ∧ d.nv.pfRun = false ∧ d.flag R.NV_STAT_PFW = false
    (¬ edge → s.ends .powerFail ((d.put R.NV_STAT_PFW 1).updNv (fun x => { x with armed := false })))
      ∧ (edge → s.endsIn .powerFail (fun u => u.get R.NV_STAT_PFW = 1 ∧ u.nv.armed = false ∧ u.nv.closed = true ∧ u.nv.pfRun = true ∧ u.raised 2
          ∧ u.nv.buf = d.nv.buf ∧ u.mem = d.mem
          ∧ (u.wr k.val).trigs = 0 ∧ (u.wr k.val).pend = false ∧ (u.wr k.val).busy = (d.wr k.val).busy
          ∧ (d.get R.PAIR_STAT_ROLE ≠ 0 → d.flag R.PAIR_STAT_LANE0 = true → d.flag (R.EV_ROUTE_HOST 2) = false → u.out = .pair 0x21 [] :: d.out)))
      ∧ (¬ runs → s.ignores .powerFailDone)
      ∧ (runs → s.endsIn .powerFailDone (fun u => u.get R.NV_STAT_PFDONE = 1 ∧ u.get R.NV_STAT_PF = 1 ∧ u.raised 11 ∧ u.fio.on = 0
          ∧ u.nv.pfRun = false ∧ u.nv.closed = d.nv.closed ∧ u.nv.buf = [] ∧ u.nv.vpage = none ∧ u.nv.op = none ∧ u.get R.NV_STAT_VBUSY = 0
          ∧ (u.wr k.val).busy = false ∧ u.get R.HEN_STAT_FLUSHING = 0 ∧ (still → u.nvWord off.val = d.nvWord off.val)))
      ∧ (¬ opens → s.ignores .powerFailRecover)
      ∧ (opens → s.endsIn .powerFailRecover (fun u => u.get R.NV_STAT_PFDONE = 0 ∧ u.nv.closed = false ∧ u.get R.NV_STAT_PF = d.get R.NV_STAT_PF
          ∧ u.mem = d.mem ∧ (d.hen.due = false → u = (d.put R.NV_STAT_PFDONE 0).updNv (fun x => { x with closed := false }))))
      ∧ s.ends .pfwNDeassert ((d.put R.NV_STAT_PFW 0).updNv (fun x => { x with armed := true }))

/-- The backup clock counts while its oscillator runs: a tick adds one tick to SEC and SUB, two or none where the trim says so
(R473, R474; that a nanosecond passes on an empty queue is log entry 3). SET loads the time at its second edge, and decides on
the wake (R476, R477); a wake fires when the time reaches it and advances by one interval (R478, R479). The interface locks and
unlocks with the supply (R470, R471), a read of BK_SUB fills the reader's own latch (R475), and OSF and BBOF follow the supply
and the crystal (R481 to R483). -/
def Obligations.BackupClock : Prop :=
  ∀ (s : State) (r : Req) (c : CoreId) (v : BitVec 32) (n : Nat),
    let d := s.dev
    let now (u : Dev) := u.bk.sec.toNat * 32768 + u.bk.sub
    let next (u : Dev) := u.get R.BK_NEXT_SEC * 32768 + u.get R.BK_NEXT_SUB_TICKS
    let span := 2 ^ 47
    let step_ := 128 * max 1 (d.get R.BK_WAKE_N)
    let en : Prop := d.flag R.BK_WAKE_EN = true
    let runs : Prop := d.flag R.BK_STAT_OSC_RUN = true
    let locked : Prop := d.flag R.BK_IF_LOCKED = true
    let t1 := d.get R.BK_SET_SEC * 32768 + d.get R.BK_SET_SUB_TICKS
    let skip : Prop := en ∧ now d < t1 ∧ next d ≤ t1
    let due : Prop := en ∧ ¬ skip ∧ next d = (now d + 1) % span
    let fires (u : Dev) : Prop := u.get R.BK_STAT_WAKE = 1 ∧ u.get R.BK_STAT_WOVR = (if d.flag R.BK_STAT_WAKE then 1 else d.get R.BK_STAT_WOVR)
      ∧ (locked → u.out = .wake :: d.out) ∧ (¬ locked → d.sys.held = false → u.raised 13)
    let quiet (u : Dev) : Prop := u.get R.BK_STAT_WAKE = d.get R.BK_STAT_WAKE ∧ u.get R.BK_STAT_WOVR = d.get R.BK_STAT_WOVR ∧ u.out = d.out
    let reached : Prop := en ∧ runs ∧ d.bk.wakePend = false ∧ (now d + span - next d) % span < 2 ^ 46
    let sub (f : CoreSt → CoreSt) : Prop := s.ends (.bkSubRead (.core c)) (d.updCore c f)
    let hostReads : Prop := d.sys.held = false ∧ d.d3hot = false ∧ d.flag R.BOOT_STAT_DEAD = false ∧ d.hostMay 6 false = true
    let flagged : Prop := d.flag R.BK_STAT_WAKE = true ∨ d.flag R.BK_STAT_OSF = true ∨ d.flag R.BK_STAT_BBOF = true
    (s.pending = [] → ∃ t, step s = .next t ∧ t = s.on t.dev
        ∧ (¬ runs → t.dev.bk = d.bk)
        ∧ (runs → d.bk.acc + 32768 < 1000000000 → t.dev.bk = { d.bk with acc := d.bk.acc + 32768 })
        ∧ (runs → 1000000000 ≤ d.bk.acc + 32768 → t.dev.bk.acc + 1000000000 = d.bk.acc + 32768 ∧ t.dev.bk.wakePend = false
          ∧ (d.bk.edges ≠ some 1 → d.bk.trim = 0 → now t.dev = (now d + 1) % span)
          ∧ (d.bk.edges ≠ some 1 → 0 < d.bk.trim → now t.dev = (now d + 1) % span ∨ now t.dev = (now d + 2) % span)
          ∧ (d.bk.edges ≠ some 1 → d.bk.trim < 0 → now t.dev = (now d + 1) % span ∨ now t.dev = now d % span)
          ∧ (d.bk.wakePend = true → en → next t.dev = (now t.dev + step_) % span)
          ∧ (d.bk.wakePend = false ∨ ¬ en → next t.dev = next d)))
      ∧ (d.reaches r R.BK_CMD.addr = true →
        (d.flag R.BK_IF_BUSY = true ∨ locked → s.ends (.bkSet r) (d.put R.BK_IF_DENY 1))
        ∧ (d.flag R.BK_IF_BUSY = false → ¬ locked → s.ends (.bkSet r) ((d.put R.BK_IF_BUSY 1).updBk (fun b => { b with edges := some 0 })))
        ∧ (locked → s.ignores (.bkWakeWrite r v))
        ∧ (¬ locked → s.ends (.bkWakeWrite r v) ((d.lay R.BK_WAKE 0x80FFFFFF v).updBk (fun b => { b with wakePend := true }))))
      ∧ (d.bk.edges = none → s.ignores .bkLoad) ∧ (d.bk.edges = some n → n < 2 → s.ignores .bkLoad)
      ∧ (d.bk.edges = some n → 2 ≤ n → s.endsIn .bkLoad (fun u => now u = t1 ∧ u.bk.edges = none ∧ u.get R.BK_IF_BUSY = 0
          ∧ (skip → fires u ∧ u.get R.BK_STAT_WAKE_SKIP = 1) ∧ (¬ skip → u.get R.BK_STAT_WAKE_SKIP = d.get R.BK_STAT_WAKE_SKIP)
          ∧ (due → fires u) ∧ (¬ skip → ¬ due → quiet u) ∧ (en → next u = (t1 + step_) % span) ∧ (¬ en → next u = next d)
          ∧ u.get R.BK_STAT_OSF = d.get R.BK_STAT_OSF ∧ u.get R.BK_STAT_BBOF = d.get R.BK_STAT_BBOF))
      ∧ (¬ reached → s.ignores .bkWakeFire)
      ∧ (reached → s.endsIn .bkWakeFire (fun u => fires u ∧ next u = (next d + step_) % span ∧ u.bk = d.bk))
      ∧ (d.sys.held = false → ¬ locked → sub (fun e => if e.inSet1 then { e with bkLat1 := d.bk.sec } else { e with bkLat0 := d.bk.sec }))
      ∧ (d.sys.held = false → locked → s.ignores (.bkSubRead (.core c)))
      ∧ (hostReads → ¬ locked → s.ends (.bkSubRead .host) ((d.updBk (fun b => { b with hostLat := d.bk.sec })).emit (.bar [BitVec.ofNat 32 d.bk.sub] false)))
      ∧ (hostReads → locked → s.ends (.bkSubRead .host) (d.emit (.bar [0] false)))
      ∧ (d.bk.n = 2 ^ 20 → s.ends .bkCalPeriod (d.updBk (fun b => { b with n := 0, trim := (BitVec.ofNat 8 (d.get R.BK_CAL_CAL)).toInt })))
      ∧ (d.bk.n ≠ 2 ^ 20 → s.ignores .bkCalPeriod)
      ∧ s.ends .bkLock ((d.put R.BK_IF_LOCKED 1).updBk (fun b => { b with vbat := true }))
      ∧ (¬ locked ∨ d.bk.vbat = true → s.ignores .bkUnlock)
      ∧ (locked → d.bk.vbat = false → flagged → s.endsIn .bkUnlock (fun u => u.get R.BK_IF_LOCKED = 0 ∧ u.bk = d.bk ∧ (d.sys.held = false → u.raised 13)))
      ∧ (locked → d.bk.vbat = false → ¬ flagged → s.ends .bkUnlock (d.put R.BK_IF_LOCKED 0))
      ∧ s.endsIn .bkPowerUp (fun u => now u = 0 ∧ u.get R.BK_CAL = 0 ∧ u.get R.BK_WAKE = 0 ∧ u.get R.BK_SET_SEC = 0 ∧ u.get R.BK_SET_SUB = 0
          ∧ u.get R.BK_STAT_OSF = 1 ∧ u.get R.BK_STAT_BBOF = 1 ∧ u.get R.BK_STAT_WAKE = 0 ∧ u.bk.edges = none ∧ u.get R.BK_IF = d.get R.BK_IF)
      ∧ (d.bk.vbat = true → s.ends .bkBrownout ((d.put R.BK_STAT_BBOF 1).updBk (fun b => { b with bbofNew := true })))
      ∧ (d.bk.vbat = false → s.ignores .bkBrownout)
      ∧ s.ends .oscStop ((d.put R.BK_STAT_OSF 1).put R.BK_STAT_OSC_RUN 0) ∧ s.ends .oscRestart (d.put R.BK_STAT_OSC_RUN 1)
      ∧ (d.bk.bbofNew = true → s.endsIn .backupSupplyReturn (fun u => now u = 0 ∧ u.get R.BK_STAT_OSF = 1 ∧ u.get R.BK_WAKE = 0
          ∧ u.bk.vbat = false ∧ u.bk.bbofNew = false ∧ u.get R.BK_STAT_BBOF = d.get R.BK_STAT_BBOF))
      ∧ (d.bk.bbofNew = false → s.ends .backupSupplyReturn (d.updBk (fun b => { b with vbat := false })))

/-! ## Keys, resets, boot and firmware -/

/-- A lifecycle transition is refused or starts (R486) and burns the word of its target and the banks below it, with PEND set
and the keys in use kept until the next reset (R487). A key slot is refused or starts with the staged value and ends valid under
the CRC of its value and attribute (R488, R490; the byte order of the CRC is the model's choice, log entry 40). The protection
set is refused or starts with the staged registers, and its copy takes effect at the next reset (R498). An enable request at the
debug port follows the policy (R496, R505): it takes effect, draws a challenge, or is refused; a right response enables debug,
from which every key derives from the test root (R495), a wrong one is counted and closes the port for 1 s (R497). -/
def Obligations.KeysAndLifecycle : Prop :=
  ∀ (s : State) (r : Req) (code : BitVec 16) (t : Fin 4) (attr : BitVec 3) (slot j : Fin 32) (k : Fin 8) (a : BitVec 8)
    (v ch key resp : BitVec 256) (b : Bank),
    let d := s.dev
    let st := d.get R.LC_STAT_STATE
    let locked : Prop := d.flag R.SETUP_LOCK_LOCK = true
    let busy : Prop := d.flag R.KE_STAT_BUSY = true
    let pend : Prop := d.flag R.LC_STAT_PEND = true
    let copy := d.get R.PS_POL / 2 ^ 29
    let refused := (d.put R.KE_STAT_DENY 1).put R.KE_STAT_RESULT 1
    let started (o : BurnOp) := (d.put R.KE_STAT_BUSY 1).updKey (fun x => { x with op := some o })
    let lcBad : Prop := t.val ≤ st ∨ locked ∨ pend ∨ busy ∨ (t = 2 ∧ copy ≠ 1 ∧ copy ≠ 3)
    let shown := d.get (R.KS_STATE (slot.val / 16)) / 4 ^ (slot.val % 16) % 4
    let ksBad : Prop := (st ≠ 1 ∧ st ≠ 2) ∨ shown ≠ 0 ∨ locked ∨ pend ∨ busy
    let psBad : Prop := (st ≠ 0 ∧ st ≠ 1) ∨ (copy ≠ 0 ∧ copy ≠ 2) ∨ locked ∨ busy
    let word (t : Nat) : BitVec 16 := if t = 0 then 0x0000 else if t = 1 then 0x0A50 else if t = 2 then 0x0A5C else 0xFFFF
    let ended (u : Dev) : Prop := u.get R.KE_STAT_BUSY = 0 ∧ u.get R.KE_STAT_RESULT = 0 ∧ u.key = { d.key with op := none } ∧ u.mem = d.mem
    let burnt (f : FuseField) : Prop := f.prog = true ∧ f.done = true ∧ f.value = BitVec.allOnes 256 ∧ f.attr = BitVec.allOnes 8
    let dead (x : Bank) : Prop := burnt x.rootA ∧ burnt x.rootB ∧ burnt (x.slot slot.val)
    let pol := d.get R.PS_POL % 4
    let enabled (u : Dev) : Prop := u.get R.LC_STAT_DBG_EN = 1 ∧ u.get R.LC_STAT_TEST = 1 ∧ u.key.root = .test ∧ u.key.pair = .test
      ∧ u.key.fab = .test ∧ u.key.dbg = .test ∧ u.key.challenge = none ∧ u.get R.LC_STAT_STATE = st
    let on (i : Instr) : Prop := (d.flag R.LC_STAT_DBG_EN = true → s.ignores i) ∧ (d.flag R.LC_STAT_DBG_EN = false → s.endsIn i enabled)
    let open_ : Prop := st = 0 ∨ pol = 0 ∨ (st = 3 ∧ pol = 1)
    let rested : Prop := ∀ x ∈ d.key.refusedAt, x.toNat + 1000000000 ≤ d.time.toNat
    let asks : Prop := ¬ open_ ∧ pol = 1 ∧ d.key.dbg.value.isSome = true ∧ rested
    let answer : BitVec 256 := Config.hmacSha256 (bytesBE 32 key.toNat) (labelBytes "T9648 DBG" ++ d.uidBytes ++ bytesBE 32 ch.toNat)
    let offered : Prop := d.key.challenge = some ch ∧ d.dbgKey = some key
    (d.reaches r R.LC_CMD.addr = true → (code ≠ 0x4C43 → s.ignores (.lcCmd r code t)) ∧ (code = 0x4C43 → lcBad → s.ends (.lcCmd r code t) refused)
        ∧ (code = 0x4C43 → ¬ lcBad → s.ends (.lcCmd r code t) (started (.lc t.val))))
      ∧ (d.sys.held = false → d.key.op = some (.lc t.val) → ∃ u, exec .lcBurnDone s = .next u ∧ u.pending = s.pending ∧ ended u.dev
          ∧ u.fuses.lc = s.fuses.lc ||| word t.val ∧ u.dev.get R.LC_STAT_CODE = u.fuses.lc.toNat ∧ u.dev.get R.LC_STAT_PEND = 1 ∧ u.dev.get R.LC_STAT_STATE = st
          ∧ (1 < t.val → dead u.fuses.openB ∧ (st = 1 → ∀ x < 2, u.dev.get (R.KS_STATE x) = 0xFFFFFFFF)) ∧ (t.val ≤ 1 → u.fuses.openB = s.fuses.openB)
          ∧ (2 < t.val → dead u.fuses.sealedB ∧ (st = 2 → ∀ x < 2, u.dev.get (R.KS_STATE x) = 0xFFFFFFFF)) ∧ (t.val ≤ 2 → u.fuses.sealedB = s.fuses.sealedB)
          ∧ u.fuses.protA = s.fuses.protA ∧ u.fuses.protB = s.fuses.protB ∧ u.fuses.opk = s.fuses.opk ∧ u.fuses.uid = s.fuses.uid)
      ∧ (d.key.op = none → s.ignores .lcBurnDone ∧ s.ignores .ksProgDone ∧ s.ignores .psBurnDone)
      ∧ (d.reaches r R.KS_PROG.addr = true → (code ≠ 0x4B53 → s.ignores (.ksProg r code attr slot))
        ∧ (code = 0x4B53 → ksBad → s.endsIn (.ksProg r code attr slot) (fun u => u.get R.KE_STAT_DENY = 1 ∧ u.get R.KE_STAT_RESULT = 1
            ∧ u.get (R.KS_DATA k.val) = 0 ∧ u.key = d.key))
        ∧ (code = 0x4B53 → ¬ ksBad → s.endsIn (.ksProg r code attr slot) (fun u => ∃ w, u = started (.slot slot.val (attr.setWidth 8) w)
            ∧ w.toNat / 2 ^ (32 * k.val) % 2 ^ 32 = d.get (R.KS_DATA k.val))))
      ∧ (d.sys.held = false → d.key.op = some (.slot slot.val a v) → (st = 1 ∧ b = s.fuses.openB) ∨ (st = 2 ∧ b = s.fuses.sealedB) →
          b.slot slot.val = FuseField.empty → ∃ u, exec .ksProgDone s = .next u ∧ u.pending = s.pending ∧ ended u.dev
            ∧ (∃ b2, u.fuses = (if st = 1 then { s.fuses with openB := b2 } else { s.fuses with sealedB := b2 })
              ∧ b2.rootA = b.rootA ∧ b2.rootB = b.rootB ∧ (j ≠ slot → b2.slot j.val = b.slot j.val)
              ∧ b2.slot slot.val = { prog := true, done := true, value := v, attr := a, crc := BitVec.ofNat 16 (crc16 (bytesLE 32 v.toNat ++ [a])) })
            ∧ u.dev.get (R.KS_STATE (slot.val / 16)) / 4 ^ (slot.val % 16) % 4 = 1 ∧ u.dev.get (R.KS_ATTR slot.val) = a.toNat % 8 ∧ u.dev.get (R.KS_DATA k.val) = 0)
      ∧ (d.reaches r R.PS_BURN.addr = true → (code ≠ 0x5053 → s.ignores (.psBurn r code)) ∧ (code = 0x5053 → psBad → s.ends (.psBurn r code) refused)
        ∧ (code = 0x5053 → ¬ psBad → s.ends (.psBurn r code) (started (.prot (BitVec.ofNat 256
            (d.get R.PS_SHREG % 2 ^ 16 + 2 ^ 32 * (d.get R.PS_SCMDA % 2 ^ 14) + 2 ^ 64 * (d.get R.PS_SPOL &&& 0x33)))))))
      ∧ (d.sys.held = false → d.key.op = some (.prot v) → s.fuses.protA = FuseField.empty → ∃ u, exec .psBurnDone s = .next u
          ∧ u.pending = s.pending ∧ ended u.dev ∧ u.fuses = { s.fuses with protA := { prog := true, done := true, value := v, attr := 0, crc := BitVec.ofNat 16 (crc16 (bytesLE 12 v.toNat)) } } ∧ u.dev.get R.PS_POL / 2 ^ 29 = 1 ∧ u.dev.get R.PS_POL % 2 ^ 29 = d.get R.PS_POL % 2 ^ 29
          ∧ u.dev.get R.PS_HREG = d.get R.PS_HREG ∧ u.dev.get R.PS_CMDA = d.get R.PS_CMDA)
      ∧ (d.sys.held = false → open_ → on .debugEnableRequest)
      ∧ (d.sys.held = false → asks → s.ends .debugEnableRequest
          ((d.updKey (fun x => { x with draws := x.draws + 1, challenge := some (Config.trng d.key.draws) })).emit (.debug 1 [(Config.trng d.key.draws).toNat])))
      ∧ (d.sys.held = false → ¬ open_ → ¬ asks → s.ends .debugEnableRequest (d.emit (.debug 2 [])))
      ∧ (d.sys.held = false → offered → resp = answer → on (.debugResponse resp))
      ∧ (d.sys.held = false → offered → resp ≠ answer → s.ends (.debugResponse resp) (((d.put R.KE_STAT_DBG_FAIL (min 65535 (d.get R.KE_STAT_DBG_FAIL + 1))).updKey
          (fun x => { x with challenge := none, refusedAt := some d.time })).emit (.debug 2 [])))
      ∧ (d.key.challenge = none ∨ d.dbgKey = none → s.ignores (.debugResponse resp))

/-- A pin or a command starts the shutdown sequence or joins the one in progress (R500, R501, R502, R389), and the internal reset
ends it with the bit of every source set (R426). Its state is that of Table 22.2 (R503): here for a device that a pin or a monitor
still holds in reset, with no writes in progress. A device leaves reset when nothing holds it (R501, R524), and boots (R504): the
lifecycle word is completed (R485, R487), the protection set decoded (R496, R498), and an image that fails enters Dead (R510)
while one that verifies is loaded and RDY set. A brown-out latches its rails, a power-on reset leaves only its own cause (R426)
and clears the timebase (R409). TJ_CORE follows the sensor (R539), and a refused Dead exit resets the device (R513). A boot is
whole in one command (log entry 42). -/
def Obligations.ResetsAndBoot : Prop :=
  ∀ (s : State) (lc : BitVec 16) (env : BootEnv) (cut : Cut) (rails : BitVec 6) (rail : Fin 6) (t : BitVec 8) (c : Cause) (i : Fin 131072)
    (off : Fin 0x800000),
    let d := s.dev
    let dues := d.sys.due
    let bit (c : Cause) := match c with
      | .powerOn => R.RESET_CAUSE_POWER_ON
      | .pin => R.RESET_CAUSE_PIN
      | .goose => R.RESET_CAUSE_GOOSE
      | .machineCheck => R.RESET_CAUSE_MACHINE_CHECK
      | .host => R.RESET_CAUSE_HOST
      | .pairFence => R.RESET_CAUSE_PAIR_FENCE
      | .brownout => R.RESET_CAUSE_BROWNOUT
      | .deadExit => R.RESET_CAUSE_DEAD_EXIT_DENIED
    let starts (src : Cause) (u : Dev) : Prop := u.sys.outsOff = true ∧ u.sys.ringsOff = true ∧ u.fio.on = 0 ∧ u.sys.due = [src] ∧ u.mem = d.mem
      ∧ (d.get R.PAIR_STAT_ROLE ≠ 0 → d.flag R.PAIR_STAT_LANE0 = true → u.out = .pair 0x21 [] :: d.out) ∧ u.time = d.time
    let joins (src : Cause) := { d with sys := { d.sys with due := if dues.contains src then dues else dues ++ [src] } }
    let low (x : Dev) : Dev := { x with sys := { x.sys with pinLow := true } }
    let lowF (x : Dev) : Dev := { x with sys := { x.sys with fenceLow := true } }
    let still : Prop := d.nv.op = none ∧ (∀ x : Fin 16, (d.wr x.val).busy = false) ∧ d.hen.occ = [] ∧ d.get R.HEN_SEQ = d.hen.floor
      ∧ d.flag R.HEN_STAT_FLUSHING = false ∧ d.nv.buf = [] ∧ d.nv.vpage = none ∧ d.hif.hoCommit = false
    let cleared (u : Dev) : Prop := u.mw .mark off.val = 0 ∧ u.mw .win off.val = 0 ∧ u.mw (.prog false) off.val = 0 ∧ u.mw (.qHalf false) off.val = 0
      ∧ u.get R.SCAN_STAT_STATE = 0 ∧ u.scan.resetSince = true ∧ u.get R.SETUP_LOCK_LOCK = 0 ∧ u.get R.GOOSE_PERIOD_PERIOD = 100000
      ∧ u.get R.GOOSE_STAT_STAGE = 0 ∧ u.nv.buf = [] ∧ u.hif.running = [] ∧ u.key.op = none ∧ u.bk = d.bk
    let kept (u : Dev) : Prop := u.get R.GOOSE_MISSING = d.get R.GOOSE_MISSING ∧ u.get R.GOOSE_DUP = d.get R.GOOSE_DUP ∧ u.get R.MC_ADDR = d.get R.MC_ADDR
      ∧ u.get R.GOOSE_STAT_WARN = d.get R.GOOSE_STAT_WARN ∧ u.get R.GOOSE_STAT_BADKEY = d.get R.GOOSE_STAT_BADKEY
    let keeps (u : Dev) : Prop := (still → u.mw .mram off.val = d.mw .mram off.val ∧ u.get R.HEN_SEQ = d.get R.HEN_SEQ
      ∧ u.mw .henBuf off.val = d.mw .henBuf off.val ∧ u.get R.NV_PF = d.get R.NV_PF)
    let fusesKept (u : State) : Prop := d.key.op = none → u.fuses = s.fuses
    let ends_ : Prop := dues ≠ [] ∧ d.nv.pfRun = false
    let holds : Prop := d.sys.pinLow = true ∨ d.sys.fenceLow = true ∨ d.sys.boRails ≠ 0
    let clock : Prop := dues.contains .machineCheck = true ∧ d.sys.fatalClock = true ∧ dues.contains .brownout = false ∧ dues ≠ [.powerOn]
    let word (t : Nat) : BitVec 16 := if t = 0 then 0x0000 else if t = 1 then 0x0A50 else if t = 2 then 0x0A5C else 0xFFFF
    let state (w : BitVec 16) := if w = 0 then 0 else if w &&& 0xF5AF = 0 then 1 else if w &&& 0xF5A3 = 0 then 2 else 3
    let burnt (x : Bank) : Prop := x.rootA = FuseField.ones ∧ x.rootB = FuseField.ones
    let sound (f : FuseField) : Prop := f.prog = true ∧ f.done = true ∧ f.crc = BitVec.ofNat 16 (crc16 (bytesLE 12 f.value.toNat))
    let magic (b : Nat) : Prop := d.mw .mram b = 0x5746
    let boots (u : State) : Prop := u.pending = s.pending ∧ u.dev.sys.held = false
      ∧ u.dev.get R.LC_STAT_STATE = state s.fuses.lc ∧ u.fuses.lc = s.fuses.lc ||| word (state s.fuses.lc) ∧ u.dev.get R.LC_STAT_CODE = u.fuses.lc.toNat
      ∧ (1 < state s.fuses.lc → burnt u.fuses.openB) ∧ (2 < state s.fuses.lc → burnt u.fuses.sealedB)
      ∧ (state s.fuses.lc = 0 → u.dev.key.root = .test ∧ u.dev.key.pair = .test ∧ u.dev.key.dbg = .test)
      ∧ (state s.fuses.lc = 3 → u.dev.key.root = .absent ∧ u.dev.key.pair = .absent ∧ u.dev.key.dbg = .absent)
      ∧ u.fuses.protA = s.fuses.protA ∧ u.fuses.protB = s.fuses.protB ∧ u.fuses.opk = s.fuses.opk ∧ u.fuses.uid = s.fuses.uid
      ∧ (s.fuses.protA.prog = false → u.dev.get R.PS_HREG = 0xFFFF ∧ u.dev.get R.PS_CMDA = 0x3FFF ∧ u.dev.get R.PS_POL = 0)
      ∧ (sound s.fuses.protA → u.dev.get R.PS_HREG = s.fuses.protA.value.toNat % 2 ^ 16 ||| 1 ∧ u.dev.get R.PS_POL / 2 ^ 29 = 1)
      ∧ (s.fuses.protA.prog = true → ¬ sound s.fuses.protA → ¬ sound s.fuses.protB → u.dev.get R.PS_HREG = 1 ∧ u.dev.get R.PS_CMDA = 0x2001)
      ∧ (d.flag R.BOOT_STAT_DEAD = false → ¬ magic 0x500000 → ¬ magic 0x580000 → d.nv.buf = [] → u.dev.get R.BOOT_STAT_DEAD = 1 ∧ u.dev.get R.BOOT_STAT_DFAIL = 1
        ∧ u.dev.get R.HIF_STAT_RDY = d.get R.HIF_STAT_RDY)
      ∧ (u.dev.get R.BOOT_STAT_DEAD = 0 → u.dev.get R.HIF_STAT_RDY = 1 ∧ (u.dev.core 16).s0.pc = 0 ∧ u.dev.get R.FW_VER = u.dev.fwVersion 0x500000
        ∧ (2 * i.val < u.dev.fwCodeLen 0x500000 → i.val < 65536 → u.dev.mw (.bell u.dev.sys.bellBank) i.val = u.dev.nvWord (0x500100 + i.val)))
    let freed (x : Dev) (i : Instr) : Prop := (d.sys.held = true → x.mustHold = false → ∃ u, exec i s = .next u ∧ boots u)
      ∧ (d.sys.held = false ∨ x.mustHold = true → s.ends i x)
    let worst := max (d.getS R.SUP_STAT_TJ_MAX) t.toInt
    (d.sys.pinLow = true → s.ignores .resetPin)
      ∧ (d.sys.pinLow = false → d.sys.held = true → s.ends .resetPin ((low d).put R.RESET_CAUSE_PIN 1))
      ∧ (d.sys.pinLow = false → d.sys.held = false → dues = [] → s.endsIn .resetPin (fun u => starts .pin u ∧ u.sys.pinLow = true))
      ∧ (d.sys.pinLow = false → d.sys.held = false → dues ≠ [] → s.ends .resetPin (low (joins .pin)))
      ∧ (d.sys.fenceLow = true → s.ignores .fenceNReset)
      ∧ (d.sys.fenceLow = false → d.sys.held = true → s.ends .fenceNReset ((lowF d).put R.RESET_CAUSE_PAIR_FENCE 1))
      ∧ (d.sys.fenceLow = false → d.sys.held = false → dues = [] → s.endsIn .fenceNReset (fun u => starts .pairFence u ∧ u.sys.fenceLow = true))
      ∧ (d.sys.fenceLow = false → d.sys.held = false → dues ≠ [] → s.ends .fenceNReset (lowF (joins .pairFence)))
      ∧ (d.hif.resetDue = false → s.ignores .devResetDelay)
      ∧ (d.sys.held = false → d.hif.resetDue = true → dues = [] → s.endsIn .devResetDelay (fun u => starts .host u ∧ u.hif.resetDue = false))
      ∧ (¬ ends_ → s.ignores (.internalReset lc env))
      ∧ (ends_ → dues ≠ [.powerOn] → ¬ holds → ∃ u, exec (.internalReset lc env) s = .next u ∧ u.pending = s.pending ∧ u.dev.sys.due = [] ∧ u.dev.sys.held = false
          ∧ (dues.contains c = true → u.dev.get (bit c) = 1) ∧ (dues.contains c = false → u.dev.get (bit c) = d.get (bit c)))
      ∧ (ends_ → dues ≠ [.powerOn] → holds → ∃ u, exec (.internalReset lc env) s = .next u ∧ u.pending = s.pending ∧ fusesKept u ∧ u.dev.sys.held = true
          ∧ cleared u.dev ∧ (still → kept u.dev) ∧ keeps u.dev ∧ (¬ clock → u.dev.time = d.time) ∧ (clock → u.dev.time = 0)
          ∧ (dues.contains c = true → u.dev.get (bit c) = 1) ∧ (dues.contains c = false → u.dev.get (bit c) = d.get (bit c)))
      ∧ (rails = 0 → s.ignores (.brownOut rails cut))
      ∧ (rails ≠ 0 → d.sys.held = true → s.ends (.brownOut rails cut) (({ d with sys := { d.sys with boRails := d.sys.boRails ||| rails } }.lay R.SUP_STAT
          (rails.setWidth 32) 0xFFFFFFFF).put R.RESET_CAUSE_BROWNOUT 1))
      ∧ (rails ≠ 0 → d.sys.held = false → ∃ u, exec (.brownOut rails cut) s = .next u ∧ u.pending = s.pending ∧ fusesKept u ∧ u.dev.sys.held = true
          ∧ cleared u.dev ∧ kept u.dev ∧ keeps u.dev ∧ u.dev.time = d.time ∧ u.dev.get R.RESET_CAUSE_BROWNOUT = 1 ∧ u.dev.sys.boRails = d.sys.boRails ||| rails
          ∧ u.dev.get R.SUP_STAT % 64 = d.get R.SUP_STAT % 64 ||| rails.toNat ∧ (dues = [] → c ≠ .brownout → u.dev.get (bit c) = d.get (bit c)))
      ∧ (∃ u, exec (.powerOnReset cut env) s = .next u ∧ u.pending = s.pending ∧ u.dev.get R.RESET_CAUSE = 1 ∧ u.dev.time = 0 ∧ u.dev.bk = d.bk
          ∧ u.dev.sys.held = d.sys.fenceLow ∧ (d.sys.fenceLow = true → cleared u.dev ∧ u.dev.get R.MC_STATUS = 0 ∧ u.dev.get R.GOOSE_MISSING = 0
            ∧ u.dev.get R.GOOSE_DUP = 0 ∧ u.dev.get R.NV_PF = 0 ∧ u.dev.mw .henBuf off.val = 0 ∧ (still → u.dev.mw .mram off.val = d.mw .mram off.val) ∧ fusesKept u))
      ∧ freed { d with sys := { d.sys with pinLow := false } } (.resetNRelease env)
      ∧ freed { d with sys := { d.sys with fenceLow := false } } (.fenceNRelease env)
      ∧ freed { d with sys := { d.sys with boRails := d.sys.boRails &&& ~~~(1#6 <<< rail.val) } } (.brownOutRelease rail env)
      ∧ (d.sys.held = false → s.endsRegs (.tjCoreUpdate t) [R.SUP_STAT_TJ_CORE, R.SUP_STAT_TJ_MAX, R.SUP_STAT_THOT] (fun u =>
          u.getS R.SUP_STAT_TJ_CORE = t.toInt ∧ u.getS R.SUP_STAT_TJ_MAX = worst ∧ u.get R.SUP_STAT_THOT = (if 105 < t.toInt then 1 else d.get R.SUP_STAT_THOT)))
      ∧ (d.flag R.BOOT_STAT_DEAD = false → s.ignores (.deadExit lc env))
      ∧ (d.sys.held = false → d.flag R.BOOT_STAT_DEAD = true → d.flag R.LC_STAT_DBG_EN = false → dues = [] → holds → ∃ u, exec (.deadExit lc env) s = .next u
          ∧ u.pending = s.pending ∧ u.dev.get R.RESET_CAUSE_DEAD_EXIT_DENIED = 1 ∧ (c ≠ .deadExit → u.dev.get (bit c) = d.get (bit c)) ∧ u.dev.sys.held = true
          ∧ cleared u.dev ∧ kept u.dev ∧ u.dev.time = d.time)
      ∧ (d.sys.held = false → d.flag R.BOOT_STAT_DEAD = true → d.flag R.LC_STAT_DBG_EN = true → d.fwFail (if d.fwSrc = 0 then 0x580000 else 0x500000) = 0 →
          ∃ u, exec (.deadExit lc env) s = .next u ∧ u.pending = s.pending ∧ u.fuses = s.fuses ∧ u.dev.get R.LC_STAT_DBG_EN = 1 ∧ u.dev.get R.RESET_CAUSE = d.get R.RESET_CAUSE
            ∧ u.dev.get R.BOOT_STAT_SRC = 1 - d.fwSrc ∧ (u.dev.get R.BOOT_STAT_DEAD = 0 → u.dev.get R.HIF_STAT_RDY = 1))

/-- The handover stops the fetching of commands in a Goose period in which ID 0 has checked in, and starts the write of the
firmware record when the running commands have completed; the commit point names the staged image, exchanges the banks and sets
FW_VER, PEND_BOOT, RDY and event 15 (R517, R508). BOOT_ARUN.STORE writes MODE to the boot record (R514). The records are read back
where no granule of them holds an error and no buffered write covers them. -/
def Obligations.FirmwareHandover : Prop :=
  ∀ (s : State) (r : Req) (m : Fin 4) (x : HostRun),
    let d := s.dev
    let waits : Prop := d.sys.held = false ∧ d.hif.hoRun = true ∧ d.hif.hoCommit = false
    let seen : Prop := (d.get R.GOOSE_SEEN).testBit 0 = true
    let quiet : Prop := ∀ e ∈ d.hif.running, e.wait = .handover
    let closed (u : Dev) : Dev := u.updHif (fun h => { h with hoCommit := true })
    let commits : Prop := d.sys.held = false ∧ d.hif.hoCommit = true
    let clean : Prop := d.ecc = [] ∧ d.nv.buf = []
    let ver := (d.nvWord 0x580002).toNat + 65536 * (d.nvWord 0x580003).toNat
    (d.hif.hoRun = false ∨ d.hif.hoCommit = true → s.ignores .handoverPoint)
      ∧ (waits → seen → quiet → s.ends .handoverPoint (closed (d.put R.HIF_STAT_RDY 0)))
      ∧ (waits → seen → ¬ quiet → s.ends .handoverPoint (d.put R.HIF_STAT_RDY 0))
      ∧ (waits → ¬ seen → d.flag R.HIF_STAT_RDY = false → quiet → s.ends .handoverPoint (closed d))
      ∧ (waits → ¬ seen → d.flag R.HIF_STAT_RDY = true ∨ ¬ quiet → s.ignores .handoverPoint)
      ∧ (d.hif.hoCommit = false → s.ignores .fwCommitPoint)
      ∧ (commits → s.endsIn .fwCommitPoint (fun u => (clean → u.recRead 0x700100 4 = some [1, BitVec.ofNat 16 ver, BitVec.ofNat 16 (ver / 65536), 0])
          ∧ u.sys.bellBank = (!d.sys.bellBank) ∧ (u.core 16).s0.pc = 0 ∧ (u.core 16).wait = .none ∧ u.get R.FW_VER = ver ∧ u.get R.FW_STAT_PEND_BOOT = 1
          ∧ u.raised 15 ∧ u.get R.HIF_STAT_RDY = 1 ∧ u.get R.FW_STAT_HBUSY = 0 ∧ u.hif.hoRun = false ∧ u.hif.hoCommit = false
          ∧ (d.hif.running = [x] → x.wait = .handover → u.hif.running = [])))
      ∧ (d.writes r R.BOOT_ARUN = true → s.endsIn (.bootArunStore r m) (fun u => u.get R.BOOT_ARUN_MODE = m.val ∧ u.nv.buf = d.nv.buf
          ∧ (clean → u.recRead 0x700200 2 = some [BitVec.ofNat 16 m.val, 0])))
end

