-- ==== Sys2Proof/Laws/Flags.lean ====
section
/-! SUPPORT. The flag computations of Machine/Flags.lean over bit vectors: the bits of SR, and the data ALU (R98). -/

namespace Sys2Proof.Machine

/-- A bit of a number with one bit cleared. -/
theorem clrBit_testBit (n i j : Nat) : (clrBit n i).testBit j = (n.testBit j && decide (i ≠ j)) := by
  unfold clrBit
  split
  · rename_i h
    have e : n = 2 ^ (i + 1) * (n / 2 ^ (i + 1)) + (2 ^ i * 1 + n % 2 ^ i) := by
      have h1 := Nat.div_add_mod n (2 ^ (i + 1))
      have h2 : n % 2 ^ (i + 1) = 2 ^ i * 1 + n % 2 ^ i := by
        have h3 := Nat.div_add_mod (n % 2 ^ (i + 1)) (2 ^ i)
        have h4 : n % 2 ^ (i + 1) / 2 ^ i = 1 := by
          have h5 : (n / 2 ^ i) % 2 = 1 := by
            simpa [Nat.testBit, Nat.shiftRight_eq_div_pow, Nat.and_comm, Nat.and_one_is_mod, bne_iff_ne] using h
          rw [Nat.pow_succ, Nat.mod_mul_right_div_self, h5]
        rw [h4, Nat.mod_mod_of_dvd _ (Nat.pow_dvd_pow 2 (Nat.le_succ i))] at h3
        omega
      omega
    have e2 : n - 2 ^ i = 2 ^ (i + 1) * (n / 2 ^ (i + 1)) + n % 2 ^ i := by omega
    have l0 : n % 2 ^ i < 2 ^ i := Nat.mod_lt _ (Nat.two_pow_pos i)
    have l1 : n % 2 ^ i < 2 ^ (i + 1) := by rw [Nat.pow_succ]; omega
    have l2 : 2 ^ i * 1 + n % 2 ^ i < 2 ^ (i + 1) := by rw [Nat.pow_succ]; omega
    rw [e2, Nat.testBit_two_pow_mul_add _ l1]
    conv => rhs; rw [e, Nat.testBit_two_pow_mul_add _ l2]
    by_cases g : j < i + 1
    · rw [if_pos g, if_pos g, Nat.testBit_two_pow_mul_add _ l0]
      by_cases g2 : j < i
      · simp [g2]; omega
      · have : j = i := by omega
        subst this; simp [Nat.testBit_mod_two_pow]
    · rw [if_neg g, if_neg g]; simp; omega
  · rename_i h
    by_cases e : i = j
    · subst e; simp_all
    · simp [e]

/-- Setting a bit of SR, over bit vectors. -/
theorem srPut_eq (sr : BitVec 16) (i : Nat) (b : Bool) (hi : i < 16) :
    srPut sr i b = (if b then sr ||| BitVec.twoPow 16 i else sr &&& ~~~(BitVec.twoPow 16 i)) := by
  apply BitVec.eq_of_getLsbD_eq
  intro j hj
  cases b
  · simp only [srPut, Bool.false_eq_true, if_false, BitVec.getLsbD_ofNat, hj, decide_true, Bool.true_and, BitVec.getLsbD_and,
      BitVec.getLsbD_not, BitVec.getLsbD_twoPow, clrBit_testBit, BitVec.testBit_toNat, hi]
    simp
  · simp only [srPut, if_true, setBit, BitVec.getLsbD_ofNat, hj, decide_true, Bool.true_and, Nat.testBit_or,
      Nat.testBit_two_pow, BitVec.getLsbD_or, BitVec.getLsbD_twoPow, BitVec.testBit_toNat, hi]

theorem srBit_eq (sr : BitVec 16) (i : Nat) : srBit sr i = sr.getLsbD i := by
  simp [srBit, tst, BitVec.testBit_toNat]

/-- A bit of SR after one bit was set. -/
theorem srPut_getLsbD (sr : BitVec 16) (i : Nat) (b : Bool) (hi : i < 16) (j : Nat) :
    (srPut sr i b).getLsbD j = if i = j then b else sr.getLsbD j := by
  rw [srPut_eq sr i b hi]
  by_cases h : i = j
  · subst h; cases b <;> simp [hi]
  · cases b <;> simp [h]
    exact BitVec.lt_of_getLsbD

/-- A bit of one flag. -/
theorem flagAt_getLsbD (i : Nat) (b : Bool) (j : Nat) (hj : j < 16) : (flagAt i b).getLsbD j = (b && decide (i = j)) := by
  cases b <;> simp only [flagAt, Bool.false_eq_true, if_false, if_true, BitVec.getLsbD_twoPow, Bool.false_and, Bool.true_and]
  · simp
  · by_cases h : i = j <;> simp [h, hj]

/-- SR after a data operation, over bit vectors. -/
theorem srAlu_eq (sr : BitVec 16) (o : AluOut) :
    srAlu sr o = withFlags sr (tst o.r 15) (o.r == 0) o.v o.c := by
  obtain ⟨r, c, v⟩ := o
  have m : ∀ j, j < 16 → (0xFFF0 : BitVec 16).getLsbD j = decide (4 ≤ j) := by decide
  apply BitVec.eq_of_getLsbD_eq
  intro j hj
  cases c <;>
    simp only [srAlu, withFlags, srN, srZ, srC, srV, Option.getD, srPut_getLsbD _ _ _ (by decide : 3 < 16),
      srPut_getLsbD _ _ _ (by decide : 2 < 16), srPut_getLsbD _ _ _ (by decide : 1 < 16),
      srPut_getLsbD _ _ _ (by decide : 0 < 16), BitVec.getLsbD_or, BitVec.getLsbD_and, flagAt_getLsbD _ _ j hj, m j hj]
  all_goals
    by_cases h3 : 3 = j
    · subst h3; simp
    by_cases h2 : 2 = j
    · subst h2; simp
    by_cases h1 : 1 = j
    · subst h1; simp
    by_cases h0 : 0 = j
    · subst h0; simp
    · simp [h3, h2, h1, h0, show 4 ≤ j by omega]

/-- SR with the condition bit written, over bit vectors. -/
theorem withCb_eq (sr : BitVec 16) (b : Bool) : srPut sr srCb b = withCb sr b := by
  have m : ∀ j, j < 16 → (0xFFEF : BitVec 16).getLsbD j = decide (4 ≠ j) := by decide
  apply BitVec.eq_of_getLsbD_eq
  intro j hj
  simp only [withCb, srCb, srPut_getLsbD _ _ _ (by decide : 4 < 16), BitVec.getLsbD_or, BitVec.getLsbD_and,
    flagAt_getLsbD _ _ j hj, m j hj]
  by_cases h : 4 = j <;> simp [h]

theorem sx16_toNat (a : BitVec 16) : sx 16 a.toNat = a.toInt := by
  simp only [sx, BitVec.toInt]
  have := a.isLt
  split <;> split <;> omega

theorem toU16 (i : Int) : toU 16 i = (BitVec.ofInt 16 i).toNat := by
  simp [toU, BitVec.toNat_ofInt]

/-- The result of a data operation, over bit vectors. -/
theorem alu_r (op : AluOp) (a b : BitVec 16) (c : Bool) :
    (alu op a.toNat b.toNat (b2n c)).r = (aluResult op a b c).toNat := by
  have ha := a.isLt
  have hb := b.isLt
  have hk : b.toNat % 16 < 16 := Nat.mod_lt _ (by omega)
  cases op <;> simp only [alu, aluResult]
  · simp [BitVec.toNat_add]
  · cases c <;> simp [BitVec.toNat_add, b2n]
  · simp [BitVec.toNat_sub]; omega
  · cases c <;> simp [BitVec.toNat_sub, b2n] <;> omega
  · simp [BitVec.toNat_sub]; omega
  · simp
  · simp
  · simp
  · simp [BitVec.toNat_not]
  · simp [BitVec.toNat_neg]
  · simp [BitVec.toNat_shiftLeft, Nat.shiftLeft_eq]
  · simp [BitVec.toNat_ushiftRight, Nat.shiftRight_eq_div_pow]
  · rw [toU16, sx16_toNat, BitVec.sshiftRight, Int.shiftRight_eq_div_pow]
  · generalize b.toNat % 16 = k at hk ⊢
    simp only [BitVec.rotateRight, BitVec.rotateRightAux, BitVec.toNat_or, BitVec.toNat_ushiftRight, BitVec.toNat_shiftLeft,
      Nat.mod_eq_of_lt hk, Nat.shiftRight_eq_div_pow]
    have e1 : (a.toNat <<< (16 - k)) % 2 ^ 16 = (a.toNat % 2 ^ k) <<< (16 - k) := by
      simp only [Nat.shiftLeft_eq]
      rw [show (2 : Nat) ^ 16 = 2 ^ k * 2 ^ (16 - k) by rw [← Nat.pow_add]; congr 1; omega, Nat.mul_mod_mul_right]
    have l1 : a.toNat / 2 ^ k < 2 ^ (16 - k) := by
      apply Nat.div_lt_of_lt_mul; rw [← Nat.pow_add]; rwa [show k + (16 - k) = 16 by omega]
    have l2 : a.toNat % 2 ^ k < 2 ^ k := Nat.mod_lt _ (Nat.two_pow_pos k)
    rw [e1, Nat.or_comm, ← Nat.shiftLeft_add_eq_or_of_lt l1, Nat.shiftLeft_eq]
    have e3 : a.toNat * 2 ^ (16 - k) % 65536 = a.toNat % 2 ^ k * 2 ^ (16 - k) := by
      rw [← Nat.shiftLeft_eq, ← Nat.shiftLeft_eq]; exact e1
    have l3 : a.toNat % 2 ^ k * 2 ^ (16 - k) + a.toNat / 2 ^ k < 65536 := by
      have h1 : (a.toNat % 2 ^ k + 1) * 2 ^ (16 - k) ≤ 2 ^ k * 2 ^ (16 - k) := Nat.mul_le_mul_right _ l2
      rw [← Nat.pow_add, show k + (16 - k) = 16 by omega, Nat.add_mul] at h1
      have h2 : (2 : Nat) ^ 16 = 65536 := by decide
      generalize a.toNat % 2 ^ k * 2 ^ (16 - k) = x at *
      generalize a.toNat / 2 ^ k = y at *
      generalize 2 ^ (16 - k) = z at *
      omega
    rw [← e3, Nat.add_comm] at l3
    rw [Nat.add_mod, e3, Nat.mod_eq_of_lt (show a.toNat / 2 ^ k < 65536 by omega), Nat.mod_eq_of_lt (by rw [← e3]; exact l3), Nat.add_comm]
  · rw [toU16, sx16_toNat, sx16_toNat]; congr 2; simp only [clampI, clamp16]; omega
  · rw [toU16, sx16_toNat, sx16_toNat]; congr 2; simp only [clampI, clamp16]; omega

theorem tst_msb (v : BitVec 16) : tst v.toNat 15 = v.msb := by
  simp [tst, BitVec.testBit_toNat, BitVec.msb_eq_getLsbD_last]

theorem beq_zero (v : BitVec 16) : (v.toNat == 0) = decide (v = 0) := by
  simp [BitVec.toNat_eq]; rfl

theorem ovf16_eq (x y r : BitVec 16) : ovf16 x.toNat y.toNat r.toNat = (x.msb == y.msb && x.msb != r.msb) := by
  simp only [ovf16, tst_msb]

theorem msb_toInt (v : BitVec 16) : v.msb = decide (v.toInt < 0) := by
  rw [BitVec.msb_eq_toInt]

/-- Its carry. -/
theorem alu_c (op : AluOp) (a b : BitVec 16) (c : Bool) :
    (alu op a.toNat b.toNat (b2n c)).c = aluCarry op a b c := by
  have hk : b.toNat % 16 < 16 := Nat.mod_lt _ (by omega)
  have hc : b2n c = c.toNat := by cases c <;> rfl
  have hr := alu_r op a b c
  cases op <;> simp only [alu, aluCarry, hc] at hr ⊢
  · simp [BitVec.toNat_eq]; rfl
  · simp only [tst, BitVec.testBit_toNat]
  · simp only [tst, BitVec.testBit_toNat]
  · simp only [tst, BitVec.testBit_toNat]
  · simp only [hr, tst_msb, aluResult]

theorem tst15 (n : Nat) : tst n 15 = decide (32768 ≤ n % 65536) := by
  have : tst n 15 = tst (n % 65536) 15 := by
    have := Nat.testBit_mod_two_pow n 16 15; simp only [tst]; rw [show (65536:Nat) = 2^16 from rfl, this]; simp
  rw [this]
  have h : n % 65536 < 65536 := Nat.mod_lt _ (by omega)
  generalize n % 65536 = m at h
  simp only [tst, Nat.testBit_eq_decide_div_mod_eq]
  congr 1
  simp; omega

theorem toInt16 (a : BitVec 16) : a.toInt = if a.toNat < 32768 then (a.toNat : Int) else a.toNat - 65536 := by
  rw [BitVec.toInt_eq_toNat_cond]; have := a.isLt; split <;> split <;> omega

/-- Its overflow: the exact signed result lies outside 16 bits. -/
theorem alu_v (op : AluOp) (a b : BitVec 16) (c : Bool) :
    (alu op a.toNat b.toNat (b2n c)).v = aluOverflow op a b c := by
  have ha := a.isLt
  have hb := b.isLt
  have hc : b2n c = c.toNat := by cases c <;> rfl
  have hc1 : c.toNat ≤ 1 := by cases c <;> decide
  cases op <;> simp only [alu, aluOverflow, ovf16, tst15, hc, sx16_toNat, toInt16]
  all_goals
    rw [Bool.eq_iff_iff]
    simp only [Bool.and_eq_true, beq_iff_eq, bne_iff_ne, decide_eq_decide, Bool.or_eq_true, decide_eq_true_eq, ne_eq, clampI]
    omega

end Sys2Proof.Machine
end

