-- ==== Sys2Proof/Laws/Store.lean ====
section
/-! SUPPORT. Sparse tables: a read after a write, and the canonical form, which erasing, inserting and writing keep. -/

namespace Sys2Proof.Machine

variable {α : Type}

@[simp] theorem Store.look_nil (k : Nat) : Store.look k ([] : Store α) = none := rfl

theorem Store.look_erase_same (k : Nat) (s : Store α) : Store.look k (Store.erase k s) = none := by
  induction s with
  | nil => rfl
  | cons e rest ih =>
    obtain ⟨j, v⟩ := e
    simp only [Store.erase]
    split
    · exact ih
    · next h => simp only [Store.look, if_neg h, ih]

theorem Store.look_erase_other {j k : Nat} (h : j ≠ k) (s : Store α) : Store.look j (Store.erase k s) = Store.look j s := by
  induction s with
  | nil => rfl
  | cons e rest ih =>
    obtain ⟨i, v⟩ := e
    simp only [Store.erase]
    split
    · next hi => subst hi; simp only [ih, Store.look, if_neg h.symm]
    · simp only [Store.look, ih]

theorem Store.look_ins_same (k : Nat) (v : α) (s : Store α) (h : Store.look k s = none) :
    Store.look k (Store.ins k v s) = some v := by
  induction s with
  | nil => simp [Store.ins, Store.look]
  | cons e rest ih =>
    obtain ⟨j, w⟩ := e
    simp only [Store.look] at h
    split at h
    · cases h
    · next hj =>
      simp only [Store.ins]
      split
      · simp [Store.look]
      · simp only [Store.look, if_neg hj, ih h]

theorem Store.look_ins_other {j k : Nat} (h : j ≠ k) (v : α) (s : Store α) :
    Store.look j (Store.ins k v s) = Store.look j s := by
  induction s with
  | nil => simp [Store.ins, Store.look, h.symm]
  | cons e rest ih =>
    obtain ⟨i, w⟩ := e
    simp only [Store.ins]
    split
    · simp only [Store.look, if_neg h.symm]
    · simp only [Store.look, ih]

/-- A read after a write of the same key gives the value written. -/
@[simp] theorem Store.get_set_same [DecidableEq α] (z : Nat → α) (s : Store α) (k : Nat) (v : α) :
    Store.get z (Store.set z s k v) k = v := by
  unfold Store.get Store.set
  split
  · next h => rw [Store.look_erase_same, h]; rfl
  · rw [Store.look_ins_same _ _ _ (Store.look_erase_same k s)]; rfl

/-- A write leaves every other key alone. -/
theorem Store.get_set_other [DecidableEq α] (z : Nat → α) (s : Store α) {j k : Nat} (h : j ≠ k) (v : α) :
    Store.get z (Store.set z s k v) j = Store.get z s j := by
  unfold Store.get Store.set
  split
  · rw [Store.look_erase_other h]
  · rw [Store.look_ins_other h, Store.look_erase_other h]

/-! ## The canonical form -/

/-- The canonical form as a property: keys rise from `lo` on, and no entry holds its default. -/
def Store.okFrom (z : Nat → α) (lo : Nat) : Store α → Prop
  | [] => True
  | (k, v) :: rest => lo ≤ k ∧ v ≠ z k ∧ Store.okFrom z (k + 1) rest

theorem Store.okFrom_mono {z : Nat → α} {lo lo' : Nat} {s : Store α} (h : lo' ≤ lo) (hs : Store.okFrom z lo s) :
    Store.okFrom z lo' s := by
  cases s with
  | nil => trivial
  | cons e rest => obtain ⟨k, v⟩ := e; exact ⟨Nat.le_trans h hs.1, hs.2⟩

theorem Store.wf_cons [DecidableEq α] (z : Nat → α) (k : Nat) (v : α) (rest : Store α) :
    Store.wf z ((k, v) :: rest) = true ↔ v ≠ z k ∧ Store.wf z rest = true ∧ ∀ j w r, rest = (j, w) :: r → k < j := by
  cases rest with
  | nil => simp [Store.wf, Store.rising]
  | cons e r =>
    obtain ⟨j, w⟩ := e
    simp only [Store.wf, Store.rising, List.all_cons, Bool.and_eq_true, decide_eq_true_eq]
    constructor
    · rintro ⟨⟨h1, h2⟩, h3, h4, h5⟩
      exact ⟨h3, ⟨h2, h4, h5⟩, fun a b c h => by cases h; exact h1⟩
    · rintro ⟨h3, ⟨h2, h4, h5⟩, h1⟩
      exact ⟨⟨h1 j w r rfl, h2⟩, h3, h4, h5⟩

/-- The Bool and the property say the same. -/
theorem Store.wf_iff [DecidableEq α] (z : Nat → α) (s : Store α) : Store.wf z s = true ↔ Store.okFrom z 0 s := by
  have key : ∀ (s : Store α) (lo : Nat), (∀ k v r, s = (k, v) :: r → lo ≤ k) →
      (Store.wf z s = true ↔ Store.okFrom z lo s) := by
    intro s
    induction s with
    | nil => intro lo _; simp [Store.wf, Store.rising, Store.okFrom]
    | cons e rest ih =>
      obtain ⟨k, v⟩ := e
      intro lo hlo
      rw [Store.wf_cons]
      constructor
      · rintro ⟨hv, hr, hk⟩
        exact ⟨hlo k v rest rfl, hv, (ih (k + 1) (fun j w r h => hk j w r h)).mp hr⟩
      · rintro ⟨-, hv, hr⟩
        refine ⟨hv, ?_, ?_⟩
        · refine (ih (k + 1) ?_).mpr hr
          intro j w r h; subst h; exact hr.1
        · intro j w r h; subst h; exact hr.1
  exact key s 0 (fun _ _ _ _ => Nat.zero_le _)

theorem Store.okFrom_erase {z : Nat → α} (k : Nat) (s : Store α) :
    ∀ lo, Store.okFrom z lo s → Store.okFrom z lo (Store.erase k s) := by
  induction s with
  | nil => intro _ _; trivial
  | cons e rest ih =>
    obtain ⟨j, v⟩ := e
    intro lo ⟨h1, h2, h3⟩
    simp only [Store.erase]
    split
    · exact Store.okFrom_mono (Nat.le_succ_of_le h1) (ih _ h3)
    · exact ⟨h1, h2, ih _ h3⟩

theorem Store.okFrom_ins {z : Nat → α} (k : Nat) (v : α) (hv : v ≠ z k) (s : Store α) :
    ∀ lo, lo ≤ k → Store.look k s = none → Store.okFrom z lo s → Store.okFrom z lo (Store.ins k v s) := by
  induction s with
  | nil => intro lo h _ _; exact ⟨h, hv, trivial⟩
  | cons e rest ih =>
    obtain ⟨j, w⟩ := e
    intro lo h hl ⟨h1, h2, h3⟩
    simp only [Store.look] at hl
    split at hl
    · cases hl
    · next hj =>
      simp only [Store.ins]
      split
      · next hk => exact ⟨h, hv, hk, h2, h3⟩
      · next hk => exact ⟨h1, h2, ih (j + 1) (by omega) hl h3⟩

/-- A write keeps the canonical form. -/
theorem Store.wf_set [DecidableEq α] (z : Nat → α) (s : Store α) (k : Nat) (v : α) (h : Store.wf z s = true) :
    Store.wf z (Store.set z s k v) = true := by
  rw [Store.wf_iff] at h ⊢
  unfold Store.set
  split
  · exact Store.okFrom_erase k s 0 h
  · next hv =>
    exact Store.okFrom_ins k v hv _ 0 (Nat.zero_le _) (Store.look_erase_same k s) (Store.okFrom_erase k s 0 h)

theorem Store.okFrom_filter {z : Nat → α} (p : Nat × α → Bool) (s : Store α) :
    ∀ lo, Store.okFrom z lo s → Store.okFrom z lo (s.filter p) := by
  induction s with
  | nil => intro _ _; trivial
  | cons e rest ih =>
    obtain ⟨j, v⟩ := e
    intro lo ⟨h1, h2, h3⟩
    simp only [List.filter]
    split
    · exact ⟨h1, h2, ih _ h3⟩
    · exact Store.okFrom_mono (Nat.le_succ_of_le h1) (ih _ h3)

/-- Leaving entries out keeps the canonical form. -/
theorem Store.wf_filter [DecidableEq α] (z : Nat → α) (p : Nat × α → Bool) (s : Store α) (h : Store.wf z s = true) :
    Store.wf z (s.filter p) = true := by
  rw [Store.wf_iff] at h ⊢
  exact Store.okFrom_filter p s 0 h

end Sys2Proof.Machine
end

