-- ==== Sys2Proof/Laws/State.lean ====
section
/-! SUPPORT. One lemma per field of the device and update of it: what an update leaves alone. -/

namespace Sys2Proof.Machine

/-! ### wrReg -/

@[simp] theorem Dev.wrReg_time (d : Dev) (a : Nat) (v : BitVec 32) : (d.wrReg a v).time = d.time := rfl
@[simp] theorem Dev.wrReg_mem (d : Dev) (a : Nat) (v : BitVec 32) : (d.wrReg a v).mem = d.mem := rfl
@[simp] theorem Dev.wrReg_ecc (d : Dev) (a : Nat) (v : BitVec 32) : (d.wrReg a v).ecc = d.ecc := rfl
@[simp] theorem Dev.wrReg_icache (d : Dev) (a : Nat) (v : BitVec 32) : (d.wrReg a v).icache = d.icache := rfl
@[simp] theorem Dev.wrReg_cores (d : Dev) (a : Nat) (v : BitVec 32) : (d.wrReg a v).cores = d.cores := rfl
@[simp] theorem Dev.wrReg_scan (d : Dev) (a : Nat) (v : BitVec 32) : (d.wrReg a v).scan = d.scan := rfl
@[simp] theorem Dev.wrReg_prog (d : Dev) (a : Nat) (v : BitVec 32) : (d.wrReg a v).prog = d.prog := rfl
@[simp] theorem Dev.wrReg_axes (d : Dev) (a : Nat) (v : BitVec 32) : (d.wrReg a v).axes = d.axes := rfl
@[simp] theorem Dev.wrReg_groups (d : Dev) (a : Nat) (v : BitVec 32) : (d.wrReg a v).groups = d.groups := rfl
@[simp] theorem Dev.wrReg_mule (d : Dev) (a : Nat) (v : BitVec 32) : (d.wrReg a v).mule = d.mule := rfl
@[simp] theorem Dev.wrReg_rings (d : Dev) (a : Nat) (v : BitVec 32) : (d.wrReg a v).rings = d.rings := rfl
@[simp] theorem Dev.wrReg_tm (d : Dev) (a : Nat) (v : BitVec 32) : (d.wrReg a v).tm = d.tm := rfl
@[simp] theorem Dev.wrReg_sys (d : Dev) (a : Nat) (v : BitVec 32) : (d.wrReg a v).sys = d.sys := rfl
@[simp] theorem Dev.wrReg_hen (d : Dev) (a : Nat) (v : BitVec 32) : (d.wrReg a v).hen = d.hen := rfl
@[simp] theorem Dev.wrReg_nv (d : Dev) (a : Nat) (v : BitVec 32) : (d.wrReg a v).nv = d.nv := rfl
@[simp] theorem Dev.wrReg_key (d : Dev) (a : Nat) (v : BitVec 32) : (d.wrReg a v).key = d.key := rfl
@[simp] theorem Dev.wrReg_hif (d : Dev) (a : Nat) (v : BitVec 32) : (d.wrReg a v).hif = d.hif := rfl
@[simp] theorem Dev.wrReg_pair (d : Dev) (a : Nat) (v : BitVec 32) : (d.wrReg a v).pair = d.pair := rfl
@[simp] theorem Dev.wrReg_can (d : Dev) (a : Nat) (v : BitVec 32) : (d.wrReg a v).can = d.can := rfl
@[simp] theorem Dev.wrReg_fio (d : Dev) (a : Nat) (v : BitVec 32) : (d.wrReg a v).fio = d.fio := rfl
@[simp] theorem Dev.wrReg_bk (d : Dev) (a : Nat) (v : BitVec 32) : (d.wrReg a v).bk = d.bk := rfl
@[simp] theorem Dev.wrReg_fab (d : Dev) (a : Nat) (v : BitVec 32) : (d.wrReg a v).fab = d.fab := rfl
@[simp] theorem Dev.wrReg_out (d : Dev) (a : Nat) (v : BitVec 32) : (d.wrReg a v).out = d.out := rfl

/-! ### put -/

@[simp] theorem Dev.put_time (d : Dev) (f : Fld) (n : Nat) : (d.put f n).time = d.time := rfl
@[simp] theorem Dev.put_mem (d : Dev) (f : Fld) (n : Nat) : (d.put f n).mem = d.mem := rfl
@[simp] theorem Dev.put_ecc (d : Dev) (f : Fld) (n : Nat) : (d.put f n).ecc = d.ecc := rfl
@[simp] theorem Dev.put_icache (d : Dev) (f : Fld) (n : Nat) : (d.put f n).icache = d.icache := rfl
@[simp] theorem Dev.put_cores (d : Dev) (f : Fld) (n : Nat) : (d.put f n).cores = d.cores := rfl
@[simp] theorem Dev.put_scan (d : Dev) (f : Fld) (n : Nat) : (d.put f n).scan = d.scan := rfl
@[simp] theorem Dev.put_prog (d : Dev) (f : Fld) (n : Nat) : (d.put f n).prog = d.prog := rfl
@[simp] theorem Dev.put_axes (d : Dev) (f : Fld) (n : Nat) : (d.put f n).axes = d.axes := rfl
@[simp] theorem Dev.put_groups (d : Dev) (f : Fld) (n : Nat) : (d.put f n).groups = d.groups := rfl
@[simp] theorem Dev.put_mule (d : Dev) (f : Fld) (n : Nat) : (d.put f n).mule = d.mule := rfl
@[simp] theorem Dev.put_rings (d : Dev) (f : Fld) (n : Nat) : (d.put f n).rings = d.rings := rfl
@[simp] theorem Dev.put_tm (d : Dev) (f : Fld) (n : Nat) : (d.put f n).tm = d.tm := rfl
@[simp] theorem Dev.put_sys (d : Dev) (f : Fld) (n : Nat) : (d.put f n).sys = d.sys := rfl
@[simp] theorem Dev.put_hen (d : Dev) (f : Fld) (n : Nat) : (d.put f n).hen = d.hen := rfl
@[simp] theorem Dev.put_nv (d : Dev) (f : Fld) (n : Nat) : (d.put f n).nv = d.nv := rfl
@[simp] theorem Dev.put_key (d : Dev) (f : Fld) (n : Nat) : (d.put f n).key = d.key := rfl
@[simp] theorem Dev.put_hif (d : Dev) (f : Fld) (n : Nat) : (d.put f n).hif = d.hif := rfl
@[simp] theorem Dev.put_pair (d : Dev) (f : Fld) (n : Nat) : (d.put f n).pair = d.pair := rfl
@[simp] theorem Dev.put_can (d : Dev) (f : Fld) (n : Nat) : (d.put f n).can = d.can := rfl
@[simp] theorem Dev.put_fio (d : Dev) (f : Fld) (n : Nat) : (d.put f n).fio = d.fio := rfl
@[simp] theorem Dev.put_bk (d : Dev) (f : Fld) (n : Nat) : (d.put f n).bk = d.bk := rfl
@[simp] theorem Dev.put_fab (d : Dev) (f : Fld) (n : Nat) : (d.put f n).fab = d.fab := rfl
@[simp] theorem Dev.put_out (d : Dev) (f : Fld) (n : Nat) : (d.put f n).out = d.out := rfl

/-! ### setF -/

@[simp] theorem Dev.setF_time (d : Dev) (f : Fld) : (d.setF f).time = d.time := rfl
@[simp] theorem Dev.setF_mem (d : Dev) (f : Fld) : (d.setF f).mem = d.mem := rfl
@[simp] theorem Dev.setF_ecc (d : Dev) (f : Fld) : (d.setF f).ecc = d.ecc := rfl
@[simp] theorem Dev.setF_icache (d : Dev) (f : Fld) : (d.setF f).icache = d.icache := rfl
@[simp] theorem Dev.setF_cores (d : Dev) (f : Fld) : (d.setF f).cores = d.cores := rfl
@[simp] theorem Dev.setF_scan (d : Dev) (f : Fld) : (d.setF f).scan = d.scan := rfl
@[simp] theorem Dev.setF_prog (d : Dev) (f : Fld) : (d.setF f).prog = d.prog := rfl
@[simp] theorem Dev.setF_axes (d : Dev) (f : Fld) : (d.setF f).axes = d.axes := rfl
@[simp] theorem Dev.setF_groups (d : Dev) (f : Fld) : (d.setF f).groups = d.groups := rfl
@[simp] theorem Dev.setF_mule (d : Dev) (f : Fld) : (d.setF f).mule = d.mule := rfl
@[simp] theorem Dev.setF_rings (d : Dev) (f : Fld) : (d.setF f).rings = d.rings := rfl
@[simp] theorem Dev.setF_tm (d : Dev) (f : Fld) : (d.setF f).tm = d.tm := rfl
@[simp] theorem Dev.setF_sys (d : Dev) (f : Fld) : (d.setF f).sys = d.sys := rfl
@[simp] theorem Dev.setF_hen (d : Dev) (f : Fld) : (d.setF f).hen = d.hen := rfl
@[simp] theorem Dev.setF_nv (d : Dev) (f : Fld) : (d.setF f).nv = d.nv := rfl
@[simp] theorem Dev.setF_key (d : Dev) (f : Fld) : (d.setF f).key = d.key := rfl
@[simp] theorem Dev.setF_hif (d : Dev) (f : Fld) : (d.setF f).hif = d.hif := rfl
@[simp] theorem Dev.setF_pair (d : Dev) (f : Fld) : (d.setF f).pair = d.pair := rfl
@[simp] theorem Dev.setF_can (d : Dev) (f : Fld) : (d.setF f).can = d.can := rfl
@[simp] theorem Dev.setF_fio (d : Dev) (f : Fld) : (d.setF f).fio = d.fio := rfl
@[simp] theorem Dev.setF_bk (d : Dev) (f : Fld) : (d.setF f).bk = d.bk := rfl
@[simp] theorem Dev.setF_fab (d : Dev) (f : Fld) : (d.setF f).fab = d.fab := rfl
@[simp] theorem Dev.setF_out (d : Dev) (f : Fld) : (d.setF f).out = d.out := rfl

/-! ### clrF -/

@[simp] theorem Dev.clrF_time (d : Dev) (f : Fld) : (d.clrF f).time = d.time := rfl
@[simp] theorem Dev.clrF_mem (d : Dev) (f : Fld) : (d.clrF f).mem = d.mem := rfl
@[simp] theorem Dev.clrF_ecc (d : Dev) (f : Fld) : (d.clrF f).ecc = d.ecc := rfl
@[simp] theorem Dev.clrF_icache (d : Dev) (f : Fld) : (d.clrF f).icache = d.icache := rfl
@[simp] theorem Dev.clrF_cores (d : Dev) (f : Fld) : (d.clrF f).cores = d.cores := rfl
@[simp] theorem Dev.clrF_scan (d : Dev) (f : Fld) : (d.clrF f).scan = d.scan := rfl
@[simp] theorem Dev.clrF_prog (d : Dev) (f : Fld) : (d.clrF f).prog = d.prog := rfl
@[simp] theorem Dev.clrF_axes (d : Dev) (f : Fld) : (d.clrF f).axes = d.axes := rfl
@[simp] theorem Dev.clrF_groups (d : Dev) (f : Fld) : (d.clrF f).groups = d.groups := rfl
@[simp] theorem Dev.clrF_mule (d : Dev) (f : Fld) : (d.clrF f).mule = d.mule := rfl
@[simp] theorem Dev.clrF_rings (d : Dev) (f : Fld) : (d.clrF f).rings = d.rings := rfl
@[simp] theorem Dev.clrF_tm (d : Dev) (f : Fld) : (d.clrF f).tm = d.tm := rfl
@[simp] theorem Dev.clrF_sys (d : Dev) (f : Fld) : (d.clrF f).sys = d.sys := rfl
@[simp] theorem Dev.clrF_hen (d : Dev) (f : Fld) : (d.clrF f).hen = d.hen := rfl
@[simp] theorem Dev.clrF_nv (d : Dev) (f : Fld) : (d.clrF f).nv = d.nv := rfl
@[simp] theorem Dev.clrF_key (d : Dev) (f : Fld) : (d.clrF f).key = d.key := rfl
@[simp] theorem Dev.clrF_hif (d : Dev) (f : Fld) : (d.clrF f).hif = d.hif := rfl
@[simp] theorem Dev.clrF_pair (d : Dev) (f : Fld) : (d.clrF f).pair = d.pair := rfl
@[simp] theorem Dev.clrF_can (d : Dev) (f : Fld) : (d.clrF f).can = d.can := rfl
@[simp] theorem Dev.clrF_fio (d : Dev) (f : Fld) : (d.clrF f).fio = d.fio := rfl
@[simp] theorem Dev.clrF_bk (d : Dev) (f : Fld) : (d.clrF f).bk = d.bk := rfl
@[simp] theorem Dev.clrF_fab (d : Dev) (f : Fld) : (d.clrF f).fab = d.fab := rfl
@[simp] theorem Dev.clrF_out (d : Dev) (f : Fld) : (d.clrF f).out = d.out := rfl

/-! ### incr -/

@[simp] theorem Dev.incr_time (d : Dev) (f : Fld) : (d.incr f).time = d.time := rfl
@[simp] theorem Dev.incr_mem (d : Dev) (f : Fld) : (d.incr f).mem = d.mem := rfl
@[simp] theorem Dev.incr_ecc (d : Dev) (f : Fld) : (d.incr f).ecc = d.ecc := rfl
@[simp] theorem Dev.incr_icache (d : Dev) (f : Fld) : (d.incr f).icache = d.icache := rfl
@[simp] theorem Dev.incr_cores (d : Dev) (f : Fld) : (d.incr f).cores = d.cores := rfl
@[simp] theorem Dev.incr_scan (d : Dev) (f : Fld) : (d.incr f).scan = d.scan := rfl
@[simp] theorem Dev.incr_prog (d : Dev) (f : Fld) : (d.incr f).prog = d.prog := rfl
@[simp] theorem Dev.incr_axes (d : Dev) (f : Fld) : (d.incr f).axes = d.axes := rfl
@[simp] theorem Dev.incr_groups (d : Dev) (f : Fld) : (d.incr f).groups = d.groups := rfl
@[simp] theorem Dev.incr_mule (d : Dev) (f : Fld) : (d.incr f).mule = d.mule := rfl
@[simp] theorem Dev.incr_rings (d : Dev) (f : Fld) : (d.incr f).rings = d.rings := rfl
@[simp] theorem Dev.incr_tm (d : Dev) (f : Fld) : (d.incr f).tm = d.tm := rfl
@[simp] theorem Dev.incr_sys (d : Dev) (f : Fld) : (d.incr f).sys = d.sys := rfl
@[simp] theorem Dev.incr_hen (d : Dev) (f : Fld) : (d.incr f).hen = d.hen := rfl
@[simp] theorem Dev.incr_nv (d : Dev) (f : Fld) : (d.incr f).nv = d.nv := rfl
@[simp] theorem Dev.incr_key (d : Dev) (f : Fld) : (d.incr f).key = d.key := rfl
@[simp] theorem Dev.incr_hif (d : Dev) (f : Fld) : (d.incr f).hif = d.hif := rfl
@[simp] theorem Dev.incr_pair (d : Dev) (f : Fld) : (d.incr f).pair = d.pair := rfl
@[simp] theorem Dev.incr_can (d : Dev) (f : Fld) : (d.incr f).can = d.can := rfl
@[simp] theorem Dev.incr_fio (d : Dev) (f : Fld) : (d.incr f).fio = d.fio := rfl
@[simp] theorem Dev.incr_bk (d : Dev) (f : Fld) : (d.incr f).bk = d.bk := rfl
@[simp] theorem Dev.incr_fab (d : Dev) (f : Fld) : (d.incr f).fab = d.fab := rfl
@[simp] theorem Dev.incr_out (d : Dev) (f : Fld) : (d.incr f).out = d.out := rfl

/-! ### satAdd -/

@[simp] theorem Dev.satAdd_time (d : Dev) (f : Fld) (n : Nat) : (d.satAdd f n).time = d.time := rfl
@[simp] theorem Dev.satAdd_mem (d : Dev) (f : Fld) (n : Nat) : (d.satAdd f n).mem = d.mem := rfl
@[simp] theorem Dev.satAdd_ecc (d : Dev) (f : Fld) (n : Nat) : (d.satAdd f n).ecc = d.ecc := rfl
@[simp] theorem Dev.satAdd_icache (d : Dev) (f : Fld) (n : Nat) : (d.satAdd f n).icache = d.icache := rfl
@[simp] theorem Dev.satAdd_cores (d : Dev) (f : Fld) (n : Nat) : (d.satAdd f n).cores = d.cores := rfl
@[simp] theorem Dev.satAdd_scan (d : Dev) (f : Fld) (n : Nat) : (d.satAdd f n).scan = d.scan := rfl
@[simp] theorem Dev.satAdd_prog (d : Dev) (f : Fld) (n : Nat) : (d.satAdd f n).prog = d.prog := rfl
@[simp] theorem Dev.satAdd_axes (d : Dev) (f : Fld) (n : Nat) : (d.satAdd f n).axes = d.axes := rfl
@[simp] theorem Dev.satAdd_groups (d : Dev) (f : Fld) (n : Nat) : (d.satAdd f n).groups = d.groups := rfl
@[simp] theorem Dev.satAdd_mule (d : Dev) (f : Fld) (n : Nat) : (d.satAdd f n).mule = d.mule := rfl
@[simp] theorem Dev.satAdd_rings (d : Dev) (f : Fld) (n : Nat) : (d.satAdd f n).rings = d.rings := rfl
@[simp] theorem Dev.satAdd_tm (d : Dev) (f : Fld) (n : Nat) : (d.satAdd f n).tm = d.tm := rfl
@[simp] theorem Dev.satAdd_sys (d : Dev) (f : Fld) (n : Nat) : (d.satAdd f n).sys = d.sys := rfl
@[simp] theorem Dev.satAdd_hen (d : Dev) (f : Fld) (n : Nat) : (d.satAdd f n).hen = d.hen := rfl
@[simp] theorem Dev.satAdd_nv (d : Dev) (f : Fld) (n : Nat) : (d.satAdd f n).nv = d.nv := rfl
@[simp] theorem Dev.satAdd_key (d : Dev) (f : Fld) (n : Nat) : (d.satAdd f n).key = d.key := rfl
@[simp] theorem Dev.satAdd_hif (d : Dev) (f : Fld) (n : Nat) : (d.satAdd f n).hif = d.hif := rfl
@[simp] theorem Dev.satAdd_pair (d : Dev) (f : Fld) (n : Nat) : (d.satAdd f n).pair = d.pair := rfl
@[simp] theorem Dev.satAdd_can (d : Dev) (f : Fld) (n : Nat) : (d.satAdd f n).can = d.can := rfl
@[simp] theorem Dev.satAdd_fio (d : Dev) (f : Fld) (n : Nat) : (d.satAdd f n).fio = d.fio := rfl
@[simp] theorem Dev.satAdd_bk (d : Dev) (f : Fld) (n : Nat) : (d.satAdd f n).bk = d.bk := rfl
@[simp] theorem Dev.satAdd_fab (d : Dev) (f : Fld) (n : Nat) : (d.satAdd f n).fab = d.fab := rfl
@[simp] theorem Dev.satAdd_out (d : Dev) (f : Fld) (n : Nat) : (d.satAdd f n).out = d.out := rfl

/-! ### putS -/

@[simp] theorem Dev.putS_time (d : Dev) (f : Fld) (i : Int) : (d.putS f i).time = d.time := rfl
@[simp] theorem Dev.putS_mem (d : Dev) (f : Fld) (i : Int) : (d.putS f i).mem = d.mem := rfl
@[simp] theorem Dev.putS_ecc (d : Dev) (f : Fld) (i : Int) : (d.putS f i).ecc = d.ecc := rfl
@[simp] theorem Dev.putS_icache (d : Dev) (f : Fld) (i : Int) : (d.putS f i).icache = d.icache := rfl
@[simp] theorem Dev.putS_cores (d : Dev) (f : Fld) (i : Int) : (d.putS f i).cores = d.cores := rfl
@[simp] theorem Dev.putS_scan (d : Dev) (f : Fld) (i : Int) : (d.putS f i).scan = d.scan := rfl
@[simp] theorem Dev.putS_prog (d : Dev) (f : Fld) (i : Int) : (d.putS f i).prog = d.prog := rfl
@[simp] theorem Dev.putS_axes (d : Dev) (f : Fld) (i : Int) : (d.putS f i).axes = d.axes := rfl
@[simp] theorem Dev.putS_groups (d : Dev) (f : Fld) (i : Int) : (d.putS f i).groups = d.groups := rfl
@[simp] theorem Dev.putS_mule (d : Dev) (f : Fld) (i : Int) : (d.putS f i).mule = d.mule := rfl
@[simp] theorem Dev.putS_rings (d : Dev) (f : Fld) (i : Int) : (d.putS f i).rings = d.rings := rfl
@[simp] theorem Dev.putS_tm (d : Dev) (f : Fld) (i : Int) : (d.putS f i).tm = d.tm := rfl
@[simp] theorem Dev.putS_sys (d : Dev) (f : Fld) (i : Int) : (d.putS f i).sys = d.sys := rfl
@[simp] theorem Dev.putS_hen (d : Dev) (f : Fld) (i : Int) : (d.putS f i).hen = d.hen := rfl
@[simp] theorem Dev.putS_nv (d : Dev) (f : Fld) (i : Int) : (d.putS f i).nv = d.nv := rfl
@[simp] theorem Dev.putS_key (d : Dev) (f : Fld) (i : Int) : (d.putS f i).key = d.key := rfl
@[simp] theorem Dev.putS_hif (d : Dev) (f : Fld) (i : Int) : (d.putS f i).hif = d.hif := rfl
@[simp] theorem Dev.putS_pair (d : Dev) (f : Fld) (i : Int) : (d.putS f i).pair = d.pair := rfl
@[simp] theorem Dev.putS_can (d : Dev) (f : Fld) (i : Int) : (d.putS f i).can = d.can := rfl
@[simp] theorem Dev.putS_fio (d : Dev) (f : Fld) (i : Int) : (d.putS f i).fio = d.fio := rfl
@[simp] theorem Dev.putS_bk (d : Dev) (f : Fld) (i : Int) : (d.putS f i).bk = d.bk := rfl
@[simp] theorem Dev.putS_fab (d : Dev) (f : Fld) (i : Int) : (d.putS f i).fab = d.fab := rfl
@[simp] theorem Dev.putS_out (d : Dev) (f : Fld) (i : Int) : (d.putS f i).out = d.out := rfl

/-! ### setMw -/

@[simp] theorem Dev.setMw_time (d : Dev) (a : Arr) (i : Nat) (v : BitVec 16) : (d.setMw a i v).time = d.time := rfl
@[simp] theorem Dev.setMw_regs (d : Dev) (a : Arr) (i : Nat) (v : BitVec 16) : (d.setMw a i v).regs = d.regs := rfl
@[simp] theorem Dev.setMw_ecc (d : Dev) (a : Arr) (i : Nat) (v : BitVec 16) : (d.setMw a i v).ecc = d.ecc := rfl
@[simp] theorem Dev.setMw_icache (d : Dev) (a : Arr) (i : Nat) (v : BitVec 16) : (d.setMw a i v).icache = d.icache := rfl
@[simp] theorem Dev.setMw_cores (d : Dev) (a : Arr) (i : Nat) (v : BitVec 16) : (d.setMw a i v).cores = d.cores := rfl
@[simp] theorem Dev.setMw_scan (d : Dev) (a : Arr) (i : Nat) (v : BitVec 16) : (d.setMw a i v).scan = d.scan := rfl
@[simp] theorem Dev.setMw_prog (d : Dev) (a : Arr) (i : Nat) (v : BitVec 16) : (d.setMw a i v).prog = d.prog := rfl
@[simp] theorem Dev.setMw_axes (d : Dev) (a : Arr) (i : Nat) (v : BitVec 16) : (d.setMw a i v).axes = d.axes := rfl
@[simp] theorem Dev.setMw_groups (d : Dev) (a : Arr) (i : Nat) (v : BitVec 16) : (d.setMw a i v).groups = d.groups := rfl
@[simp] theorem Dev.setMw_mule (d : Dev) (a : Arr) (i : Nat) (v : BitVec 16) : (d.setMw a i v).mule = d.mule := rfl
@[simp] theorem Dev.setMw_rings (d : Dev) (a : Arr) (i : Nat) (v : BitVec 16) : (d.setMw a i v).rings = d.rings := rfl
@[simp] theorem Dev.setMw_tm (d : Dev) (a : Arr) (i : Nat) (v : BitVec 16) : (d.setMw a i v).tm = d.tm := rfl
@[simp] theorem Dev.setMw_sys (d : Dev) (a : Arr) (i : Nat) (v : BitVec 16) : (d.setMw a i v).sys = d.sys := rfl
@[simp] theorem Dev.setMw_hen (d : Dev) (a : Arr) (i : Nat) (v : BitVec 16) : (d.setMw a i v).hen = d.hen := rfl
@[simp] theorem Dev.setMw_nv (d : Dev) (a : Arr) (i : Nat) (v : BitVec 16) : (d.setMw a i v).nv = d.nv := rfl
@[simp] theorem Dev.setMw_key (d : Dev) (a : Arr) (i : Nat) (v : BitVec 16) : (d.setMw a i v).key = d.key := rfl
@[simp] theorem Dev.setMw_hif (d : Dev) (a : Arr) (i : Nat) (v : BitVec 16) : (d.setMw a i v).hif = d.hif := rfl
@[simp] theorem Dev.setMw_pair (d : Dev) (a : Arr) (i : Nat) (v : BitVec 16) : (d.setMw a i v).pair = d.pair := rfl
@[simp] theorem Dev.setMw_can (d : Dev) (a : Arr) (i : Nat) (v : BitVec 16) : (d.setMw a i v).can = d.can := rfl
@[simp] theorem Dev.setMw_fio (d : Dev) (a : Arr) (i : Nat) (v : BitVec 16) : (d.setMw a i v).fio = d.fio := rfl
@[simp] theorem Dev.setMw_bk (d : Dev) (a : Arr) (i : Nat) (v : BitVec 16) : (d.setMw a i v).bk = d.bk := rfl
@[simp] theorem Dev.setMw_fab (d : Dev) (a : Arr) (i : Nat) (v : BitVec 16) : (d.setMw a i v).fab = d.fab := rfl
@[simp] theorem Dev.setMw_out (d : Dev) (a : Arr) (i : Nat) (v : BitVec 16) : (d.setMw a i v).out = d.out := rfl

/-! ### setMasked -/

@[simp] theorem Dev.setMasked_time (d : Dev) (a : Arr) (i : Nat) (m v : BitVec 16) : (d.setMasked a i m v).time = d.time := rfl
@[simp] theorem Dev.setMasked_regs (d : Dev) (a : Arr) (i : Nat) (m v : BitVec 16) : (d.setMasked a i m v).regs = d.regs := rfl
@[simp] theorem Dev.setMasked_ecc (d : Dev) (a : Arr) (i : Nat) (m v : BitVec 16) : (d.setMasked a i m v).ecc = d.ecc := rfl
@[simp] theorem Dev.setMasked_icache (d : Dev) (a : Arr) (i : Nat) (m v : BitVec 16) : (d.setMasked a i m v).icache = d.icache := rfl
@[simp] theorem Dev.setMasked_cores (d : Dev) (a : Arr) (i : Nat) (m v : BitVec 16) : (d.setMasked a i m v).cores = d.cores := rfl
@[simp] theorem Dev.setMasked_scan (d : Dev) (a : Arr) (i : Nat) (m v : BitVec 16) : (d.setMasked a i m v).scan = d.scan := rfl
@[simp] theorem Dev.setMasked_prog (d : Dev) (a : Arr) (i : Nat) (m v : BitVec 16) : (d.setMasked a i m v).prog = d.prog := rfl
@[simp] theorem Dev.setMasked_axes (d : Dev) (a : Arr) (i : Nat) (m v : BitVec 16) : (d.setMasked a i m v).axes = d.axes := rfl
@[simp] theorem Dev.setMasked_groups (d : Dev) (a : Arr) (i : Nat) (m v : BitVec 16) : (d.setMasked a i m v).groups = d.groups := rfl
@[simp] theorem Dev.setMasked_mule (d : Dev) (a : Arr) (i : Nat) (m v : BitVec 16) : (d.setMasked a i m v).mule = d.mule := rfl
@[simp] theorem Dev.setMasked_rings (d : Dev) (a : Arr) (i : Nat) (m v : BitVec 16) : (d.setMasked a i m v).rings = d.rings := rfl
@[simp] theorem Dev.setMasked_tm (d : Dev) (a : Arr) (i : Nat) (m v : BitVec 16) : (d.setMasked a i m v).tm = d.tm := rfl
@[simp] theorem Dev.setMasked_sys (d : Dev) (a : Arr) (i : Nat) (m v : BitVec 16) : (d.setMasked a i m v).sys = d.sys := rfl
@[simp] theorem Dev.setMasked_hen (d : Dev) (a : Arr) (i : Nat) (m v : BitVec 16) : (d.setMasked a i m v).hen = d.hen := rfl
@[simp] theorem Dev.setMasked_nv (d : Dev) (a : Arr) (i : Nat) (m v : BitVec 16) : (d.setMasked a i m v).nv = d.nv := rfl
@[simp] theorem Dev.setMasked_key (d : Dev) (a : Arr) (i : Nat) (m v : BitVec 16) : (d.setMasked a i m v).key = d.key := rfl
@[simp] theorem Dev.setMasked_hif (d : Dev) (a : Arr) (i : Nat) (m v : BitVec 16) : (d.setMasked a i m v).hif = d.hif := rfl
@[simp] theorem Dev.setMasked_pair (d : Dev) (a : Arr) (i : Nat) (m v : BitVec 16) : (d.setMasked a i m v).pair = d.pair := rfl
@[simp] theorem Dev.setMasked_can (d : Dev) (a : Arr) (i : Nat) (m v : BitVec 16) : (d.setMasked a i m v).can = d.can := rfl
@[simp] theorem Dev.setMasked_fio (d : Dev) (a : Arr) (i : Nat) (m v : BitVec 16) : (d.setMasked a i m v).fio = d.fio := rfl
@[simp] theorem Dev.setMasked_bk (d : Dev) (a : Arr) (i : Nat) (m v : BitVec 16) : (d.setMasked a i m v).bk = d.bk := rfl
@[simp] theorem Dev.setMasked_fab (d : Dev) (a : Arr) (i : Nat) (m v : BitVec 16) : (d.setMasked a i m v).fab = d.fab := rfl
@[simp] theorem Dev.setMasked_out (d : Dev) (a : Arr) (i : Nat) (m v : BitVec 16) : (d.setMasked a i m v).out = d.out := rfl

/-! ### setEcc -/

@[simp] theorem Dev.setEcc_time (d : Dev) (a : Arr) (i : Nat) (e : Ecc) : (d.setEcc a i e).time = d.time := rfl
@[simp] theorem Dev.setEcc_regs (d : Dev) (a : Arr) (i : Nat) (e : Ecc) : (d.setEcc a i e).regs = d.regs := rfl
@[simp] theorem Dev.setEcc_mem (d : Dev) (a : Arr) (i : Nat) (e : Ecc) : (d.setEcc a i e).mem = d.mem := rfl
@[simp] theorem Dev.setEcc_icache (d : Dev) (a : Arr) (i : Nat) (e : Ecc) : (d.setEcc a i e).icache = d.icache := rfl
@[simp] theorem Dev.setEcc_cores (d : Dev) (a : Arr) (i : Nat) (e : Ecc) : (d.setEcc a i e).cores = d.cores := rfl
@[simp] theorem Dev.setEcc_scan (d : Dev) (a : Arr) (i : Nat) (e : Ecc) : (d.setEcc a i e).scan = d.scan := rfl
@[simp] theorem Dev.setEcc_prog (d : Dev) (a : Arr) (i : Nat) (e : Ecc) : (d.setEcc a i e).prog = d.prog := rfl
@[simp] theorem Dev.setEcc_axes (d : Dev) (a : Arr) (i : Nat) (e : Ecc) : (d.setEcc a i e).axes = d.axes := rfl
@[simp] theorem Dev.setEcc_groups (d : Dev) (a : Arr) (i : Nat) (e : Ecc) : (d.setEcc a i e).groups = d.groups := rfl
@[simp] theorem Dev.setEcc_mule (d : Dev) (a : Arr) (i : Nat) (e : Ecc) : (d.setEcc a i e).mule = d.mule := rfl
@[simp] theorem Dev.setEcc_rings (d : Dev) (a : Arr) (i : Nat) (e : Ecc) : (d.setEcc a i e).rings = d.rings := rfl
@[simp] theorem Dev.setEcc_tm (d : Dev) (a : Arr) (i : Nat) (e : Ecc) : (d.setEcc a i e).tm = d.tm := rfl
@[simp] theorem Dev.setEcc_sys (d : Dev) (a : Arr) (i : Nat) (e : Ecc) : (d.setEcc a i e).sys = d.sys := rfl
@[simp] theorem Dev.setEcc_hen (d : Dev) (a : Arr) (i : Nat) (e : Ecc) : (d.setEcc a i e).hen = d.hen := rfl
@[simp] theorem Dev.setEcc_nv (d : Dev) (a : Arr) (i : Nat) (e : Ecc) : (d.setEcc a i e).nv = d.nv := rfl
@[simp] theorem Dev.setEcc_key (d : Dev) (a : Arr) (i : Nat) (e : Ecc) : (d.setEcc a i e).key = d.key := rfl
@[simp] theorem Dev.setEcc_hif (d : Dev) (a : Arr) (i : Nat) (e : Ecc) : (d.setEcc a i e).hif = d.hif := rfl
@[simp] theorem Dev.setEcc_pair (d : Dev) (a : Arr) (i : Nat) (e : Ecc) : (d.setEcc a i e).pair = d.pair := rfl
@[simp] theorem Dev.setEcc_can (d : Dev) (a : Arr) (i : Nat) (e : Ecc) : (d.setEcc a i e).can = d.can := rfl
@[simp] theorem Dev.setEcc_fio (d : Dev) (a : Arr) (i : Nat) (e : Ecc) : (d.setEcc a i e).fio = d.fio := rfl
@[simp] theorem Dev.setEcc_bk (d : Dev) (a : Arr) (i : Nat) (e : Ecc) : (d.setEcc a i e).bk = d.bk := rfl
@[simp] theorem Dev.setEcc_fab (d : Dev) (a : Arr) (i : Nat) (e : Ecc) : (d.setEcc a i e).fab = d.fab := rfl
@[simp] theorem Dev.setEcc_out (d : Dev) (a : Arr) (i : Nat) (e : Ecc) : (d.setEcc a i e).out = d.out := rfl

/-! ### setCore -/

@[simp] theorem Dev.setCore_time (d : Dev) (c : CoreId) (s : CoreSt) : (d.setCore c s).time = d.time := rfl
@[simp] theorem Dev.setCore_regs (d : Dev) (c : CoreId) (s : CoreSt) : (d.setCore c s).regs = d.regs := rfl
@[simp] theorem Dev.setCore_mem (d : Dev) (c : CoreId) (s : CoreSt) : (d.setCore c s).mem = d.mem := rfl
@[simp] theorem Dev.setCore_ecc (d : Dev) (c : CoreId) (s : CoreSt) : (d.setCore c s).ecc = d.ecc := rfl
@[simp] theorem Dev.setCore_icache (d : Dev) (c : CoreId) (s : CoreSt) : (d.setCore c s).icache = d.icache := rfl
@[simp] theorem Dev.setCore_scan (d : Dev) (c : CoreId) (s : CoreSt) : (d.setCore c s).scan = d.scan := rfl
@[simp] theorem Dev.setCore_prog (d : Dev) (c : CoreId) (s : CoreSt) : (d.setCore c s).prog = d.prog := rfl
@[simp] theorem Dev.setCore_axes (d : Dev) (c : CoreId) (s : CoreSt) : (d.setCore c s).axes = d.axes := rfl
@[simp] theorem Dev.setCore_groups (d : Dev) (c : CoreId) (s : CoreSt) : (d.setCore c s).groups = d.groups := rfl
@[simp] theorem Dev.setCore_mule (d : Dev) (c : CoreId) (s : CoreSt) : (d.setCore c s).mule = d.mule := rfl
@[simp] theorem Dev.setCore_rings (d : Dev) (c : CoreId) (s : CoreSt) : (d.setCore c s).rings = d.rings := rfl
@[simp] theorem Dev.setCore_tm (d : Dev) (c : CoreId) (s : CoreSt) : (d.setCore c s).tm = d.tm := rfl
@[simp] theorem Dev.setCore_sys (d : Dev) (c : CoreId) (s : CoreSt) : (d.setCore c s).sys = d.sys := rfl
@[simp] theorem Dev.setCore_hen (d : Dev) (c : CoreId) (s : CoreSt) : (d.setCore c s).hen = d.hen := rfl
@[simp] theorem Dev.setCore_nv (d : Dev) (c : CoreId) (s : CoreSt) : (d.setCore c s).nv = d.nv := rfl
@[simp] theorem Dev.setCore_key (d : Dev) (c : CoreId) (s : CoreSt) : (d.setCore c s).key = d.key := rfl
@[simp] theorem Dev.setCore_hif (d : Dev) (c : CoreId) (s : CoreSt) : (d.setCore c s).hif = d.hif := rfl
@[simp] theorem Dev.setCore_pair (d : Dev) (c : CoreId) (s : CoreSt) : (d.setCore c s).pair = d.pair := rfl
@[simp] theorem Dev.setCore_can (d : Dev) (c : CoreId) (s : CoreSt) : (d.setCore c s).can = d.can := rfl
@[simp] theorem Dev.setCore_fio (d : Dev) (c : CoreId) (s : CoreSt) : (d.setCore c s).fio = d.fio := rfl
@[simp] theorem Dev.setCore_bk (d : Dev) (c : CoreId) (s : CoreSt) : (d.setCore c s).bk = d.bk := rfl
@[simp] theorem Dev.setCore_fab (d : Dev) (c : CoreId) (s : CoreSt) : (d.setCore c s).fab = d.fab := rfl
@[simp] theorem Dev.setCore_out (d : Dev) (c : CoreId) (s : CoreSt) : (d.setCore c s).out = d.out := rfl

/-! ### updCore -/

@[simp] theorem Dev.updCore_time (d : Dev) (c : CoreId) (f : CoreSt → CoreSt) : (d.updCore c f).time = d.time := rfl
@[simp] theorem Dev.updCore_regs (d : Dev) (c : CoreId) (f : CoreSt → CoreSt) : (d.updCore c f).regs = d.regs := rfl
@[simp] theorem Dev.updCore_mem (d : Dev) (c : CoreId) (f : CoreSt → CoreSt) : (d.updCore c f).mem = d.mem := rfl
@[simp] theorem Dev.updCore_ecc (d : Dev) (c : CoreId) (f : CoreSt → CoreSt) : (d.updCore c f).ecc = d.ecc := rfl
@[simp] theorem Dev.updCore_icache (d : Dev) (c : CoreId) (f : CoreSt → CoreSt) : (d.updCore c f).icache = d.icache := rfl
@[simp] theorem Dev.updCore_scan (d : Dev) (c : CoreId) (f : CoreSt → CoreSt) : (d.updCore c f).scan = d.scan := rfl
@[simp] theorem Dev.updCore_prog (d : Dev) (c : CoreId) (f : CoreSt → CoreSt) : (d.updCore c f).prog = d.prog := rfl
@[simp] theorem Dev.updCore_axes (d : Dev) (c : CoreId) (f : CoreSt → CoreSt) : (d.updCore c f).axes = d.axes := rfl
@[simp] theorem Dev.updCore_groups (d : Dev) (c : CoreId) (f : CoreSt → CoreSt) : (d.updCore c f).groups = d.groups := rfl
@[simp] theorem Dev.updCore_mule (d : Dev) (c : CoreId) (f : CoreSt → CoreSt) : (d.updCore c f).mule = d.mule := rfl
@[simp] theorem Dev.updCore_rings (d : Dev) (c : CoreId) (f : CoreSt → CoreSt) : (d.updCore c f).rings = d.rings := rfl
@[simp] theorem Dev.updCore_tm (d : Dev) (c : CoreId) (f : CoreSt → CoreSt) : (d.updCore c f).tm = d.tm := rfl
@[simp] theorem Dev.updCore_sys (d : Dev) (c : CoreId) (f : CoreSt → CoreSt) : (d.updCore c f).sys = d.sys := rfl
@[simp] theorem Dev.updCore_hen (d : Dev) (c : CoreId) (f : CoreSt → CoreSt) : (d.updCore c f).hen = d.hen := rfl
@[simp] theorem Dev.updCore_nv (d : Dev) (c : CoreId) (f : CoreSt → CoreSt) : (d.updCore c f).nv = d.nv := rfl
@[simp] theorem Dev.updCore_key (d : Dev) (c : CoreId) (f : CoreSt → CoreSt) : (d.updCore c f).key = d.key := rfl
@[simp] theorem Dev.updCore_hif (d : Dev) (c : CoreId) (f : CoreSt → CoreSt) : (d.updCore c f).hif = d.hif := rfl
@[simp] theorem Dev.updCore_pair (d : Dev) (c : CoreId) (f : CoreSt → CoreSt) : (d.updCore c f).pair = d.pair := rfl
@[simp] theorem Dev.updCore_can (d : Dev) (c : CoreId) (f : CoreSt → CoreSt) : (d.updCore c f).can = d.can := rfl
@[simp] theorem Dev.updCore_fio (d : Dev) (c : CoreId) (f : CoreSt → CoreSt) : (d.updCore c f).fio = d.fio := rfl
@[simp] theorem Dev.updCore_bk (d : Dev) (c : CoreId) (f : CoreSt → CoreSt) : (d.updCore c f).bk = d.bk := rfl
@[simp] theorem Dev.updCore_fab (d : Dev) (c : CoreId) (f : CoreSt → CoreSt) : (d.updCore c f).fab = d.fab := rfl
@[simp] theorem Dev.updCore_out (d : Dev) (c : CoreId) (f : CoreSt → CoreSt) : (d.updCore c f).out = d.out := rfl

/-! ### updAxis -/

@[simp] theorem Dev.updAxis_time (d : Dev) (n : Nat) (f : AxisSt → AxisSt) : (d.updAxis n f).time = d.time := rfl
@[simp] theorem Dev.updAxis_regs (d : Dev) (n : Nat) (f : AxisSt → AxisSt) : (d.updAxis n f).regs = d.regs := rfl
@[simp] theorem Dev.updAxis_mem (d : Dev) (n : Nat) (f : AxisSt → AxisSt) : (d.updAxis n f).mem = d.mem := rfl
@[simp] theorem Dev.updAxis_ecc (d : Dev) (n : Nat) (f : AxisSt → AxisSt) : (d.updAxis n f).ecc = d.ecc := rfl
@[simp] theorem Dev.updAxis_icache (d : Dev) (n : Nat) (f : AxisSt → AxisSt) : (d.updAxis n f).icache = d.icache := rfl
@[simp] theorem Dev.updAxis_cores (d : Dev) (n : Nat) (f : AxisSt → AxisSt) : (d.updAxis n f).cores = d.cores := rfl
@[simp] theorem Dev.updAxis_scan (d : Dev) (n : Nat) (f : AxisSt → AxisSt) : (d.updAxis n f).scan = d.scan := rfl
@[simp] theorem Dev.updAxis_prog (d : Dev) (n : Nat) (f : AxisSt → AxisSt) : (d.updAxis n f).prog = d.prog := rfl
@[simp] theorem Dev.updAxis_groups (d : Dev) (n : Nat) (f : AxisSt → AxisSt) : (d.updAxis n f).groups = d.groups := rfl
@[simp] theorem Dev.updAxis_mule (d : Dev) (n : Nat) (f : AxisSt → AxisSt) : (d.updAxis n f).mule = d.mule := rfl
@[simp] theorem Dev.updAxis_rings (d : Dev) (n : Nat) (f : AxisSt → AxisSt) : (d.updAxis n f).rings = d.rings := rfl
@[simp] theorem Dev.updAxis_tm (d : Dev) (n : Nat) (f : AxisSt → AxisSt) : (d.updAxis n f).tm = d.tm := rfl
@[simp] theorem Dev.updAxis_sys (d : Dev) (n : Nat) (f : AxisSt → AxisSt) : (d.updAxis n f).sys = d.sys := rfl
@[simp] theorem Dev.updAxis_hen (d : Dev) (n : Nat) (f : AxisSt → AxisSt) : (d.updAxis n f).hen = d.hen := rfl
@[simp] theorem Dev.updAxis_nv (d : Dev) (n : Nat) (f : AxisSt → AxisSt) : (d.updAxis n f).nv = d.nv := rfl
@[simp] theorem Dev.updAxis_key (d : Dev) (n : Nat) (f : AxisSt → AxisSt) : (d.updAxis n f).key = d.key := rfl
@[simp] theorem Dev.updAxis_hif (d : Dev) (n : Nat) (f : AxisSt → AxisSt) : (d.updAxis n f).hif = d.hif := rfl
@[simp] theorem Dev.updAxis_pair (d : Dev) (n : Nat) (f : AxisSt → AxisSt) : (d.updAxis n f).pair = d.pair := rfl
@[simp] theorem Dev.updAxis_can (d : Dev) (n : Nat) (f : AxisSt → AxisSt) : (d.updAxis n f).can = d.can := rfl
@[simp] theorem Dev.updAxis_fio (d : Dev) (n : Nat) (f : AxisSt → AxisSt) : (d.updAxis n f).fio = d.fio := rfl
@[simp] theorem Dev.updAxis_bk (d : Dev) (n : Nat) (f : AxisSt → AxisSt) : (d.updAxis n f).bk = d.bk := rfl
@[simp] theorem Dev.updAxis_fab (d : Dev) (n : Nat) (f : AxisSt → AxisSt) : (d.updAxis n f).fab = d.fab := rfl
@[simp] theorem Dev.updAxis_out (d : Dev) (n : Nat) (f : AxisSt → AxisSt) : (d.updAxis n f).out = d.out := rfl

/-! ### updGrp -/

@[simp] theorem Dev.updGrp_time (d : Dev) (n : Nat) (f : GroupSt → GroupSt) : (d.updGrp n f).time = d.time := rfl
@[simp] theorem Dev.updGrp_regs (d : Dev) (n : Nat) (f : GroupSt → GroupSt) : (d.updGrp n f).regs = d.regs := rfl
@[simp] theorem Dev.updGrp_mem (d : Dev) (n : Nat) (f : GroupSt → GroupSt) : (d.updGrp n f).mem = d.mem := rfl
@[simp] theorem Dev.updGrp_ecc (d : Dev) (n : Nat) (f : GroupSt → GroupSt) : (d.updGrp n f).ecc = d.ecc := rfl
@[simp] theorem Dev.updGrp_icache (d : Dev) (n : Nat) (f : GroupSt → GroupSt) : (d.updGrp n f).icache = d.icache := rfl
@[simp] theorem Dev.updGrp_cores (d : Dev) (n : Nat) (f : GroupSt → GroupSt) : (d.updGrp n f).cores = d.cores := rfl
@[simp] theorem Dev.updGrp_scan (d : Dev) (n : Nat) (f : GroupSt → GroupSt) : (d.updGrp n f).scan = d.scan := rfl
@[simp] theorem Dev.updGrp_prog (d : Dev) (n : Nat) (f : GroupSt → GroupSt) : (d.updGrp n f).prog = d.prog := rfl
@[simp] theorem Dev.updGrp_axes (d : Dev) (n : Nat) (f : GroupSt → GroupSt) : (d.updGrp n f).axes = d.axes := rfl
@[simp] theorem Dev.updGrp_mule (d : Dev) (n : Nat) (f : GroupSt → GroupSt) : (d.updGrp n f).mule = d.mule := rfl
@[simp] theorem Dev.updGrp_rings (d : Dev) (n : Nat) (f : GroupSt → GroupSt) : (d.updGrp n f).rings = d.rings := rfl
@[simp] theorem Dev.updGrp_tm (d : Dev) (n : Nat) (f : GroupSt → GroupSt) : (d.updGrp n f).tm = d.tm := rfl
@[simp] theorem Dev.updGrp_sys (d : Dev) (n : Nat) (f : GroupSt → GroupSt) : (d.updGrp n f).sys = d.sys := rfl
@[simp] theorem Dev.updGrp_hen (d : Dev) (n : Nat) (f : GroupSt → GroupSt) : (d.updGrp n f).hen = d.hen := rfl
@[simp] theorem Dev.updGrp_nv (d : Dev) (n : Nat) (f : GroupSt → GroupSt) : (d.updGrp n f).nv = d.nv := rfl
@[simp] theorem Dev.updGrp_key (d : Dev) (n : Nat) (f : GroupSt → GroupSt) : (d.updGrp n f).key = d.key := rfl
@[simp] theorem Dev.updGrp_hif (d : Dev) (n : Nat) (f : GroupSt → GroupSt) : (d.updGrp n f).hif = d.hif := rfl
@[simp] theorem Dev.updGrp_pair (d : Dev) (n : Nat) (f : GroupSt → GroupSt) : (d.updGrp n f).pair = d.pair := rfl
@[simp] theorem Dev.updGrp_can (d : Dev) (n : Nat) (f : GroupSt → GroupSt) : (d.updGrp n f).can = d.can := rfl
@[simp] theorem Dev.updGrp_fio (d : Dev) (n : Nat) (f : GroupSt → GroupSt) : (d.updGrp n f).fio = d.fio := rfl
@[simp] theorem Dev.updGrp_bk (d : Dev) (n : Nat) (f : GroupSt → GroupSt) : (d.updGrp n f).bk = d.bk := rfl
@[simp] theorem Dev.updGrp_fab (d : Dev) (n : Nat) (f : GroupSt → GroupSt) : (d.updGrp n f).fab = d.fab := rfl
@[simp] theorem Dev.updGrp_out (d : Dev) (n : Nat) (f : GroupSt → GroupSt) : (d.updGrp n f).out = d.out := rfl

/-! ### updRing -/

@[simp] theorem Dev.updRing_time (d : Dev) (n : Nat) (f : RingSt → RingSt) : (d.updRing n f).time = d.time := rfl
@[simp] theorem Dev.updRing_regs (d : Dev) (n : Nat) (f : RingSt → RingSt) : (d.updRing n f).regs = d.regs := rfl
@[simp] theorem Dev.updRing_mem (d : Dev) (n : Nat) (f : RingSt → RingSt) : (d.updRing n f).mem = d.mem := rfl
@[simp] theorem Dev.updRing_ecc (d : Dev) (n : Nat) (f : RingSt → RingSt) : (d.updRing n f).ecc = d.ecc := rfl
@[simp] theorem Dev.updRing_icache (d : Dev) (n : Nat) (f : RingSt → RingSt) : (d.updRing n f).icache = d.icache := rfl
@[simp] theorem Dev.updRing_cores (d : Dev) (n : Nat) (f : RingSt → RingSt) : (d.updRing n f).cores = d.cores := rfl
@[simp] theorem Dev.updRing_scan (d : Dev) (n : Nat) (f : RingSt → RingSt) : (d.updRing n f).scan = d.scan := rfl
@[simp] theorem Dev.updRing_prog (d : Dev) (n : Nat) (f : RingSt → RingSt) : (d.updRing n f).prog = d.prog := rfl
@[simp] theorem Dev.updRing_axes (d : Dev) (n : Nat) (f : RingSt → RingSt) : (d.updRing n f).axes = d.axes := rfl
@[simp] theorem Dev.updRing_groups (d : Dev) (n : Nat) (f : RingSt → RingSt) : (d.updRing n f).groups = d.groups := rfl
@[simp] theorem Dev.updRing_mule (d : Dev) (n : Nat) (f : RingSt → RingSt) : (d.updRing n f).mule = d.mule := rfl
@[simp] theorem Dev.updRing_tm (d : Dev) (n : Nat) (f : RingSt → RingSt) : (d.updRing n f).tm = d.tm := rfl
@[simp] theorem Dev.updRing_sys (d : Dev) (n : Nat) (f : RingSt → RingSt) : (d.updRing n f).sys = d.sys := rfl
@[simp] theorem Dev.updRing_hen (d : Dev) (n : Nat) (f : RingSt → RingSt) : (d.updRing n f).hen = d.hen := rfl
@[simp] theorem Dev.updRing_nv (d : Dev) (n : Nat) (f : RingSt → RingSt) : (d.updRing n f).nv = d.nv := rfl
@[simp] theorem Dev.updRing_key (d : Dev) (n : Nat) (f : RingSt → RingSt) : (d.updRing n f).key = d.key := rfl
@[simp] theorem Dev.updRing_hif (d : Dev) (n : Nat) (f : RingSt → RingSt) : (d.updRing n f).hif = d.hif := rfl
@[simp] theorem Dev.updRing_pair (d : Dev) (n : Nat) (f : RingSt → RingSt) : (d.updRing n f).pair = d.pair := rfl
@[simp] theorem Dev.updRing_can (d : Dev) (n : Nat) (f : RingSt → RingSt) : (d.updRing n f).can = d.can := rfl
@[simp] theorem Dev.updRing_fio (d : Dev) (n : Nat) (f : RingSt → RingSt) : (d.updRing n f).fio = d.fio := rfl
@[simp] theorem Dev.updRing_bk (d : Dev) (n : Nat) (f : RingSt → RingSt) : (d.updRing n f).bk = d.bk := rfl
@[simp] theorem Dev.updRing_fab (d : Dev) (n : Nat) (f : RingSt → RingSt) : (d.updRing n f).fab = d.fab := rfl
@[simp] theorem Dev.updRing_out (d : Dev) (n : Nat) (f : RingSt → RingSt) : (d.updRing n f).out = d.out := rfl

/-! ### updScan -/

@[simp] theorem Dev.updScan_time (d : Dev) (f : ScanSt → ScanSt) : (d.updScan f).time = d.time := rfl
@[simp] theorem Dev.updScan_regs (d : Dev) (f : ScanSt → ScanSt) : (d.updScan f).regs = d.regs := rfl
@[simp] theorem Dev.updScan_mem (d : Dev) (f : ScanSt → ScanSt) : (d.updScan f).mem = d.mem := rfl
@[simp] theorem Dev.updScan_ecc (d : Dev) (f : ScanSt → ScanSt) : (d.updScan f).ecc = d.ecc := rfl
@[simp] theorem Dev.updScan_icache (d : Dev) (f : ScanSt → ScanSt) : (d.updScan f).icache = d.icache := rfl
@[simp] theorem Dev.updScan_cores (d : Dev) (f : ScanSt → ScanSt) : (d.updScan f).cores = d.cores := rfl
@[simp] theorem Dev.updScan_prog (d : Dev) (f : ScanSt → ScanSt) : (d.updScan f).prog = d.prog := rfl
@[simp] theorem Dev.updScan_axes (d : Dev) (f : ScanSt → ScanSt) : (d.updScan f).axes = d.axes := rfl
@[simp] theorem Dev.updScan_groups (d : Dev) (f : ScanSt → ScanSt) : (d.updScan f).groups = d.groups := rfl
@[simp] theorem Dev.updScan_mule (d : Dev) (f : ScanSt → ScanSt) : (d.updScan f).mule = d.mule := rfl
@[simp] theorem Dev.updScan_rings (d : Dev) (f : ScanSt → ScanSt) : (d.updScan f).rings = d.rings := rfl
@[simp] theorem Dev.updScan_tm (d : Dev) (f : ScanSt → ScanSt) : (d.updScan f).tm = d.tm := rfl
@[simp] theorem Dev.updScan_sys (d : Dev) (f : ScanSt → ScanSt) : (d.updScan f).sys = d.sys := rfl
@[simp] theorem Dev.updScan_hen (d : Dev) (f : ScanSt → ScanSt) : (d.updScan f).hen = d.hen := rfl
@[simp] theorem Dev.updScan_nv (d : Dev) (f : ScanSt → ScanSt) : (d.updScan f).nv = d.nv := rfl
@[simp] theorem Dev.updScan_key (d : Dev) (f : ScanSt → ScanSt) : (d.updScan f).key = d.key := rfl
@[simp] theorem Dev.updScan_hif (d : Dev) (f : ScanSt → ScanSt) : (d.updScan f).hif = d.hif := rfl
@[simp] theorem Dev.updScan_pair (d : Dev) (f : ScanSt → ScanSt) : (d.updScan f).pair = d.pair := rfl
@[simp] theorem Dev.updScan_can (d : Dev) (f : ScanSt → ScanSt) : (d.updScan f).can = d.can := rfl
@[simp] theorem Dev.updScan_fio (d : Dev) (f : ScanSt → ScanSt) : (d.updScan f).fio = d.fio := rfl
@[simp] theorem Dev.updScan_bk (d : Dev) (f : ScanSt → ScanSt) : (d.updScan f).bk = d.bk := rfl
@[simp] theorem Dev.updScan_fab (d : Dev) (f : ScanSt → ScanSt) : (d.updScan f).fab = d.fab := rfl
@[simp] theorem Dev.updScan_out (d : Dev) (f : ScanSt → ScanSt) : (d.updScan f).out = d.out := rfl
@[simp] theorem Dev.updScan_scan (d : Dev) (f : ScanSt → ScanSt) : (d.updScan f).scan = f d.scan := rfl

/-! ### updTm -/

@[simp] theorem Dev.updTm_time (d : Dev) (f : TimeSt → TimeSt) : (d.updTm f).time = d.time := rfl
@[simp] theorem Dev.updTm_regs (d : Dev) (f : TimeSt → TimeSt) : (d.updTm f).regs = d.regs := rfl
@[simp] theorem Dev.updTm_mem (d : Dev) (f : TimeSt → TimeSt) : (d.updTm f).mem = d.mem := rfl
@[simp] theorem Dev.updTm_ecc (d : Dev) (f : TimeSt → TimeSt) : (d.updTm f).ecc = d.ecc := rfl
@[simp] theorem Dev.updTm_icache (d : Dev) (f : TimeSt → TimeSt) : (d.updTm f).icache = d.icache := rfl
@[simp] theorem Dev.updTm_cores (d : Dev) (f : TimeSt → TimeSt) : (d.updTm f).cores = d.cores := rfl
@[simp] theorem Dev.updTm_scan (d : Dev) (f : TimeSt → TimeSt) : (d.updTm f).scan = d.scan := rfl
@[simp] theorem Dev.updTm_prog (d : Dev) (f : TimeSt → TimeSt) : (d.updTm f).prog = d.prog := rfl
@[simp] theorem Dev.updTm_axes (d : Dev) (f : TimeSt → TimeSt) : (d.updTm f).axes = d.axes := rfl
@[simp] theorem Dev.updTm_groups (d : Dev) (f : TimeSt → TimeSt) : (d.updTm f).groups = d.groups := rfl
@[simp] theorem Dev.updTm_mule (d : Dev) (f : TimeSt → TimeSt) : (d.updTm f).mule = d.mule := rfl
@[simp] theorem Dev.updTm_rings (d : Dev) (f : TimeSt → TimeSt) : (d.updTm f).rings = d.rings := rfl
@[simp] theorem Dev.updTm_sys (d : Dev) (f : TimeSt → TimeSt) : (d.updTm f).sys = d.sys := rfl
@[simp] theorem Dev.updTm_hen (d : Dev) (f : TimeSt → TimeSt) : (d.updTm f).hen = d.hen := rfl
@[simp] theorem Dev.updTm_nv (d : Dev) (f : TimeSt → TimeSt) : (d.updTm f).nv = d.nv := rfl
@[simp] theorem Dev.updTm_key (d : Dev) (f : TimeSt → TimeSt) : (d.updTm f).key = d.key := rfl
@[simp] theorem Dev.updTm_hif (d : Dev) (f : TimeSt → TimeSt) : (d.updTm f).hif = d.hif := rfl
@[simp] theorem Dev.updTm_pair (d : Dev) (f : TimeSt → TimeSt) : (d.updTm f).pair = d.pair := rfl
@[simp] theorem Dev.updTm_can (d : Dev) (f : TimeSt → TimeSt) : (d.updTm f).can = d.can := rfl
@[simp] theorem Dev.updTm_fio (d : Dev) (f : TimeSt → TimeSt) : (d.updTm f).fio = d.fio := rfl
@[simp] theorem Dev.updTm_bk (d : Dev) (f : TimeSt → TimeSt) : (d.updTm f).bk = d.bk := rfl
@[simp] theorem Dev.updTm_fab (d : Dev) (f : TimeSt → TimeSt) : (d.updTm f).fab = d.fab := rfl
@[simp] theorem Dev.updTm_out (d : Dev) (f : TimeSt → TimeSt) : (d.updTm f).out = d.out := rfl
@[simp] theorem Dev.updTm_tm (d : Dev) (f : TimeSt → TimeSt) : (d.updTm f).tm = f d.tm := rfl

/-! ### emit -/

@[simp] theorem Dev.emit_time (d : Dev) (o : Out) : (d.emit o).time = d.time := rfl
@[simp] theorem Dev.emit_regs (d : Dev) (o : Out) : (d.emit o).regs = d.regs := rfl
@[simp] theorem Dev.emit_mem (d : Dev) (o : Out) : (d.emit o).mem = d.mem := rfl
@[simp] theorem Dev.emit_ecc (d : Dev) (o : Out) : (d.emit o).ecc = d.ecc := rfl
@[simp] theorem Dev.emit_icache (d : Dev) (o : Out) : (d.emit o).icache = d.icache := rfl
@[simp] theorem Dev.emit_cores (d : Dev) (o : Out) : (d.emit o).cores = d.cores := rfl
@[simp] theorem Dev.emit_scan (d : Dev) (o : Out) : (d.emit o).scan = d.scan := rfl
@[simp] theorem Dev.emit_prog (d : Dev) (o : Out) : (d.emit o).prog = d.prog := rfl
@[simp] theorem Dev.emit_axes (d : Dev) (o : Out) : (d.emit o).axes = d.axes := rfl
@[simp] theorem Dev.emit_groups (d : Dev) (o : Out) : (d.emit o).groups = d.groups := rfl
@[simp] theorem Dev.emit_mule (d : Dev) (o : Out) : (d.emit o).mule = d.mule := rfl
@[simp] theorem Dev.emit_rings (d : Dev) (o : Out) : (d.emit o).rings = d.rings := rfl
@[simp] theorem Dev.emit_tm (d : Dev) (o : Out) : (d.emit o).tm = d.tm := rfl
@[simp] theorem Dev.emit_sys (d : Dev) (o : Out) : (d.emit o).sys = d.sys := rfl
@[simp] theorem Dev.emit_hen (d : Dev) (o : Out) : (d.emit o).hen = d.hen := rfl
@[simp] theorem Dev.emit_nv (d : Dev) (o : Out) : (d.emit o).nv = d.nv := rfl
@[simp] theorem Dev.emit_key (d : Dev) (o : Out) : (d.emit o).key = d.key := rfl
@[simp] theorem Dev.emit_hif (d : Dev) (o : Out) : (d.emit o).hif = d.hif := rfl
@[simp] theorem Dev.emit_pair (d : Dev) (o : Out) : (d.emit o).pair = d.pair := rfl
@[simp] theorem Dev.emit_can (d : Dev) (o : Out) : (d.emit o).can = d.can := rfl
@[simp] theorem Dev.emit_fio (d : Dev) (o : Out) : (d.emit o).fio = d.fio := rfl
@[simp] theorem Dev.emit_bk (d : Dev) (o : Out) : (d.emit o).bk = d.bk := rfl
@[simp] theorem Dev.emit_fab (d : Dev) (o : Out) : (d.emit o).fab = d.fab := rfl
@[simp] theorem Dev.emit_out (d : Dev) (o : Out) : (d.emit o).out = o :: d.out := rfl

/-! ### updHen -/

@[simp] theorem Dev.updHen_time (d : Dev) (f : HenSt → HenSt) : (d.updHen f).time = d.time := rfl
@[simp] theorem Dev.updHen_regs (d : Dev) (f : HenSt → HenSt) : (d.updHen f).regs = d.regs := rfl
@[simp] theorem Dev.updHen_mem (d : Dev) (f : HenSt → HenSt) : (d.updHen f).mem = d.mem := rfl
@[simp] theorem Dev.updHen_ecc (d : Dev) (f : HenSt → HenSt) : (d.updHen f).ecc = d.ecc := rfl
@[simp] theorem Dev.updHen_icache (d : Dev) (f : HenSt → HenSt) : (d.updHen f).icache = d.icache := rfl
@[simp] theorem Dev.updHen_cores (d : Dev) (f : HenSt → HenSt) : (d.updHen f).cores = d.cores := rfl
@[simp] theorem Dev.updHen_scan (d : Dev) (f : HenSt → HenSt) : (d.updHen f).scan = d.scan := rfl
@[simp] theorem Dev.updHen_prog (d : Dev) (f : HenSt → HenSt) : (d.updHen f).prog = d.prog := rfl
@[simp] theorem Dev.updHen_axes (d : Dev) (f : HenSt → HenSt) : (d.updHen f).axes = d.axes := rfl
@[simp] theorem Dev.updHen_groups (d : Dev) (f : HenSt → HenSt) : (d.updHen f).groups = d.groups := rfl
@[simp] theorem Dev.updHen_mule (d : Dev) (f : HenSt → HenSt) : (d.updHen f).mule = d.mule := rfl
@[simp] theorem Dev.updHen_rings (d : Dev) (f : HenSt → HenSt) : (d.updHen f).rings = d.rings := rfl
@[simp] theorem Dev.updHen_tm (d : Dev) (f : HenSt → HenSt) : (d.updHen f).tm = d.tm := rfl
@[simp] theorem Dev.updHen_sys (d : Dev) (f : HenSt → HenSt) : (d.updHen f).sys = d.sys := rfl
@[simp] theorem Dev.updHen_nv (d : Dev) (f : HenSt → HenSt) : (d.updHen f).nv = d.nv := rfl
@[simp] theorem Dev.updHen_key (d : Dev) (f : HenSt → HenSt) : (d.updHen f).key = d.key := rfl
@[simp] theorem Dev.updHen_hif (d : Dev) (f : HenSt → HenSt) : (d.updHen f).hif = d.hif := rfl
@[simp] theorem Dev.updHen_pair (d : Dev) (f : HenSt → HenSt) : (d.updHen f).pair = d.pair := rfl
@[simp] theorem Dev.updHen_can (d : Dev) (f : HenSt → HenSt) : (d.updHen f).can = d.can := rfl
@[simp] theorem Dev.updHen_fio (d : Dev) (f : HenSt → HenSt) : (d.updHen f).fio = d.fio := rfl
@[simp] theorem Dev.updHen_bk (d : Dev) (f : HenSt → HenSt) : (d.updHen f).bk = d.bk := rfl
@[simp] theorem Dev.updHen_fab (d : Dev) (f : HenSt → HenSt) : (d.updHen f).fab = d.fab := rfl
@[simp] theorem Dev.updHen_out (d : Dev) (f : HenSt → HenSt) : (d.updHen f).out = d.out := rfl
@[simp] theorem Dev.updHen_hen (d : Dev) (f : HenSt → HenSt) : (d.updHen f).hen = f d.hen := rfl

/-! ### updNv -/

@[simp] theorem Dev.updNv_time (d : Dev) (f : NvSt → NvSt) : (d.updNv f).time = d.time := rfl
@[simp] theorem Dev.updNv_regs (d : Dev) (f : NvSt → NvSt) : (d.updNv f).regs = d.regs := rfl
@[simp] theorem Dev.updNv_mem (d : Dev) (f : NvSt → NvSt) : (d.updNv f).mem = d.mem := rfl
@[simp] theorem Dev.updNv_ecc (d : Dev) (f : NvSt → NvSt) : (d.updNv f).ecc = d.ecc := rfl
@[simp] theorem Dev.updNv_icache (d : Dev) (f : NvSt → NvSt) : (d.updNv f).icache = d.icache := rfl
@[simp] theorem Dev.updNv_cores (d : Dev) (f : NvSt → NvSt) : (d.updNv f).cores = d.cores := rfl
@[simp] theorem Dev.updNv_scan (d : Dev) (f : NvSt → NvSt) : (d.updNv f).scan = d.scan := rfl
@[simp] theorem Dev.updNv_prog (d : Dev) (f : NvSt → NvSt) : (d.updNv f).prog = d.prog := rfl
@[simp] theorem Dev.updNv_axes (d : Dev) (f : NvSt → NvSt) : (d.updNv f).axes = d.axes := rfl
@[simp] theorem Dev.updNv_groups (d : Dev) (f : NvSt → NvSt) : (d.updNv f).groups = d.groups := rfl
@[simp] theorem Dev.updNv_mule (d : Dev) (f : NvSt → NvSt) : (d.updNv f).mule = d.mule := rfl
@[simp] theorem Dev.updNv_rings (d : Dev) (f : NvSt → NvSt) : (d.updNv f).rings = d.rings := rfl
@[simp] theorem Dev.updNv_tm (d : Dev) (f : NvSt → NvSt) : (d.updNv f).tm = d.tm := rfl
@[simp] theorem Dev.updNv_sys (d : Dev) (f : NvSt → NvSt) : (d.updNv f).sys = d.sys := rfl
@[simp] theorem Dev.updNv_hen (d : Dev) (f : NvSt → NvSt) : (d.updNv f).hen = d.hen := rfl
@[simp] theorem Dev.updNv_key (d : Dev) (f : NvSt → NvSt) : (d.updNv f).key = d.key := rfl
@[simp] theorem Dev.updNv_hif (d : Dev) (f : NvSt → NvSt) : (d.updNv f).hif = d.hif := rfl
@[simp] theorem Dev.updNv_pair (d : Dev) (f : NvSt → NvSt) : (d.updNv f).pair = d.pair := rfl
@[simp] theorem Dev.updNv_can (d : Dev) (f : NvSt → NvSt) : (d.updNv f).can = d.can := rfl
@[simp] theorem Dev.updNv_fio (d : Dev) (f : NvSt → NvSt) : (d.updNv f).fio = d.fio := rfl
@[simp] theorem Dev.updNv_bk (d : Dev) (f : NvSt → NvSt) : (d.updNv f).bk = d.bk := rfl
@[simp] theorem Dev.updNv_fab (d : Dev) (f : NvSt → NvSt) : (d.updNv f).fab = d.fab := rfl
@[simp] theorem Dev.updNv_out (d : Dev) (f : NvSt → NvSt) : (d.updNv f).out = d.out := rfl
@[simp] theorem Dev.updNv_nv (d : Dev) (f : NvSt → NvSt) : (d.updNv f).nv = f d.nv := rfl

/-! ### updKey -/

@[simp] theorem Dev.updKey_time (d : Dev) (f : KeySt → KeySt) : (d.updKey f).time = d.time := rfl
@[simp] theorem Dev.updKey_regs (d : Dev) (f : KeySt → KeySt) : (d.updKey f).regs = d.regs := rfl
@[simp] theorem Dev.updKey_mem (d : Dev) (f : KeySt → KeySt) : (d.updKey f).mem = d.mem := rfl
@[simp] theorem Dev.updKey_ecc (d : Dev) (f : KeySt → KeySt) : (d.updKey f).ecc = d.ecc := rfl
@[simp] theorem Dev.updKey_icache (d : Dev) (f : KeySt → KeySt) : (d.updKey f).icache = d.icache := rfl
@[simp] theorem Dev.updKey_cores (d : Dev) (f : KeySt → KeySt) : (d.updKey f).cores = d.cores := rfl
@[simp] theorem Dev.updKey_scan (d : Dev) (f : KeySt → KeySt) : (d.updKey f).scan = d.scan := rfl
@[simp] theorem Dev.updKey_prog (d : Dev) (f : KeySt → KeySt) : (d.updKey f).prog = d.prog := rfl
@[simp] theorem Dev.updKey_axes (d : Dev) (f : KeySt → KeySt) : (d.updKey f).axes = d.axes := rfl
@[simp] theorem Dev.updKey_groups (d : Dev) (f : KeySt → KeySt) : (d.updKey f).groups = d.groups := rfl
@[simp] theorem Dev.updKey_mule (d : Dev) (f : KeySt → KeySt) : (d.updKey f).mule = d.mule := rfl
@[simp] theorem Dev.updKey_rings (d : Dev) (f : KeySt → KeySt) : (d.updKey f).rings = d.rings := rfl
@[simp] theorem Dev.updKey_tm (d : Dev) (f : KeySt → KeySt) : (d.updKey f).tm = d.tm := rfl
@[simp] theorem Dev.updKey_sys (d : Dev) (f : KeySt → KeySt) : (d.updKey f).sys = d.sys := rfl
@[simp] theorem Dev.updKey_hen (d : Dev) (f : KeySt → KeySt) : (d.updKey f).hen = d.hen := rfl
@[simp] theorem Dev.updKey_nv (d : Dev) (f : KeySt → KeySt) : (d.updKey f).nv = d.nv := rfl
@[simp] theorem Dev.updKey_hif (d : Dev) (f : KeySt → KeySt) : (d.updKey f).hif = d.hif := rfl
@[simp] theorem Dev.updKey_pair (d : Dev) (f : KeySt → KeySt) : (d.updKey f).pair = d.pair := rfl
@[simp] theorem Dev.updKey_can (d : Dev) (f : KeySt → KeySt) : (d.updKey f).can = d.can := rfl
@[simp] theorem Dev.updKey_fio (d : Dev) (f : KeySt → KeySt) : (d.updKey f).fio = d.fio := rfl
@[simp] theorem Dev.updKey_bk (d : Dev) (f : KeySt → KeySt) : (d.updKey f).bk = d.bk := rfl
@[simp] theorem Dev.updKey_fab (d : Dev) (f : KeySt → KeySt) : (d.updKey f).fab = d.fab := rfl
@[simp] theorem Dev.updKey_out (d : Dev) (f : KeySt → KeySt) : (d.updKey f).out = d.out := rfl
@[simp] theorem Dev.updKey_key (d : Dev) (f : KeySt → KeySt) : (d.updKey f).key = f d.key := rfl

/-! ### updHif -/

@[simp] theorem Dev.updHif_time (d : Dev) (f : HifSt → HifSt) : (d.updHif f).time = d.time := rfl
@[simp] theorem Dev.updHif_regs (d : Dev) (f : HifSt → HifSt) : (d.updHif f).regs = d.regs := rfl
@[simp] theorem Dev.updHif_mem (d : Dev) (f : HifSt → HifSt) : (d.updHif f).mem = d.mem := rfl
@[simp] theorem Dev.updHif_ecc (d : Dev) (f : HifSt → HifSt) : (d.updHif f).ecc = d.ecc := rfl
@[simp] theorem Dev.updHif_icache (d : Dev) (f : HifSt → HifSt) : (d.updHif f).icache = d.icache := rfl
@[simp] theorem Dev.updHif_cores (d : Dev) (f : HifSt → HifSt) : (d.updHif f).cores = d.cores := rfl
@[simp] theorem Dev.updHif_scan (d : Dev) (f : HifSt → HifSt) : (d.updHif f).scan = d.scan := rfl
@[simp] theorem Dev.updHif_prog (d : Dev) (f : HifSt → HifSt) : (d.updHif f).prog = d.prog := rfl
@[simp] theorem Dev.updHif_axes (d : Dev) (f : HifSt → HifSt) : (d.updHif f).axes = d.axes := rfl
@[simp] theorem Dev.updHif_groups (d : Dev) (f : HifSt → HifSt) : (d.updHif f).groups = d.groups := rfl
@[simp] theorem Dev.updHif_mule (d : Dev) (f : HifSt → HifSt) : (d.updHif f).mule = d.mule := rfl
@[simp] theorem Dev.updHif_rings (d : Dev) (f : HifSt → HifSt) : (d.updHif f).rings = d.rings := rfl
@[simp] theorem Dev.updHif_tm (d : Dev) (f : HifSt → HifSt) : (d.updHif f).tm = d.tm := rfl
@[simp] theorem Dev.updHif_sys (d : Dev) (f : HifSt → HifSt) : (d.updHif f).sys = d.sys := rfl
@[simp] theorem Dev.updHif_hen (d : Dev) (f : HifSt → HifSt) : (d.updHif f).hen = d.hen := rfl
@[simp] theorem Dev.updHif_nv (d : Dev) (f : HifSt → HifSt) : (d.updHif f).nv = d.nv := rfl
@[simp] theorem Dev.updHif_key (d : Dev) (f : HifSt → HifSt) : (d.updHif f).key = d.key := rfl
@[simp] theorem Dev.updHif_pair (d : Dev) (f : HifSt → HifSt) : (d.updHif f).pair = d.pair := rfl
@[simp] theorem Dev.updHif_can (d : Dev) (f : HifSt → HifSt) : (d.updHif f).can = d.can := rfl
@[simp] theorem Dev.updHif_fio (d : Dev) (f : HifSt → HifSt) : (d.updHif f).fio = d.fio := rfl
@[simp] theorem Dev.updHif_bk (d : Dev) (f : HifSt → HifSt) : (d.updHif f).bk = d.bk := rfl
@[simp] theorem Dev.updHif_fab (d : Dev) (f : HifSt → HifSt) : (d.updHif f).fab = d.fab := rfl
@[simp] theorem Dev.updHif_out (d : Dev) (f : HifSt → HifSt) : (d.updHif f).out = d.out := rfl
@[simp] theorem Dev.updHif_hif (d : Dev) (f : HifSt → HifSt) : (d.updHif f).hif = f d.hif := rfl

/-! ### updPair -/

@[simp] theorem Dev.updPair_time (d : Dev) (f : PairSt → PairSt) : (d.updPair f).time = d.time := rfl
@[simp] theorem Dev.updPair_regs (d : Dev) (f : PairSt → PairSt) : (d.updPair f).regs = d.regs := rfl
@[simp] theorem Dev.updPair_mem (d : Dev) (f : PairSt → PairSt) : (d.updPair f).mem = d.mem := rfl
@[simp] theorem Dev.updPair_ecc (d : Dev) (f : PairSt → PairSt) : (d.updPair f).ecc = d.ecc := rfl
@[simp] theorem Dev.updPair_icache (d : Dev) (f : PairSt → PairSt) : (d.updPair f).icache = d.icache := rfl
@[simp] theorem Dev.updPair_cores (d : Dev) (f : PairSt → PairSt) : (d.updPair f).cores = d.cores := rfl
@[simp] theorem Dev.updPair_scan (d : Dev) (f : PairSt → PairSt) : (d.updPair f).scan = d.scan := rfl
@[simp] theorem Dev.updPair_prog (d : Dev) (f : PairSt → PairSt) : (d.updPair f).prog = d.prog := rfl
@[simp] theorem Dev.updPair_axes (d : Dev) (f : PairSt → PairSt) : (d.updPair f).axes = d.axes := rfl
@[simp] theorem Dev.updPair_groups (d : Dev) (f : PairSt → PairSt) : (d.updPair f).groups = d.groups := rfl
@[simp] theorem Dev.updPair_mule (d : Dev) (f : PairSt → PairSt) : (d.updPair f).mule = d.mule := rfl
@[simp] theorem Dev.updPair_rings (d : Dev) (f : PairSt → PairSt) : (d.updPair f).rings = d.rings := rfl
@[simp] theorem Dev.updPair_tm (d : Dev) (f : PairSt → PairSt) : (d.updPair f).tm = d.tm := rfl
@[simp] theorem Dev.updPair_sys (d : Dev) (f : PairSt → PairSt) : (d.updPair f).sys = d.sys := rfl
@[simp] theorem Dev.updPair_hen (d : Dev) (f : PairSt → PairSt) : (d.updPair f).hen = d.hen := rfl
@[simp] theorem Dev.updPair_nv (d : Dev) (f : PairSt → PairSt) : (d.updPair f).nv = d.nv := rfl
@[simp] theorem Dev.updPair_key (d : Dev) (f : PairSt → PairSt) : (d.updPair f).key = d.key := rfl
@[simp] theorem Dev.updPair_hif (d : Dev) (f : PairSt → PairSt) : (d.updPair f).hif = d.hif := rfl
@[simp] theorem Dev.updPair_can (d : Dev) (f : PairSt → PairSt) : (d.updPair f).can = d.can := rfl
@[simp] theorem Dev.updPair_fio (d : Dev) (f : PairSt → PairSt) : (d.updPair f).fio = d.fio := rfl
@[simp] theorem Dev.updPair_bk (d : Dev) (f : PairSt → PairSt) : (d.updPair f).bk = d.bk := rfl
@[simp] theorem Dev.updPair_fab (d : Dev) (f : PairSt → PairSt) : (d.updPair f).fab = d.fab := rfl
@[simp] theorem Dev.updPair_out (d : Dev) (f : PairSt → PairSt) : (d.updPair f).out = d.out := rfl
@[simp] theorem Dev.updPair_pair (d : Dev) (f : PairSt → PairSt) : (d.updPair f).pair = f d.pair := rfl

/-! ### updFio -/

@[simp] theorem Dev.updFio_time (d : Dev) (f : FioSt → FioSt) : (d.updFio f).time = d.time := rfl
@[simp] theorem Dev.updFio_regs (d : Dev) (f : FioSt → FioSt) : (d.updFio f).regs = d.regs := rfl
@[simp] theorem Dev.updFio_mem (d : Dev) (f : FioSt → FioSt) : (d.updFio f).mem = d.mem := rfl
@[simp] theorem Dev.updFio_ecc (d : Dev) (f : FioSt → FioSt) : (d.updFio f).ecc = d.ecc := rfl
@[simp] theorem Dev.updFio_icache (d : Dev) (f : FioSt → FioSt) : (d.updFio f).icache = d.icache := rfl
@[simp] theorem Dev.updFio_cores (d : Dev) (f : FioSt → FioSt) : (d.updFio f).cores = d.cores := rfl
@[simp] theorem Dev.updFio_scan (d : Dev) (f : FioSt → FioSt) : (d.updFio f).scan = d.scan := rfl
@[simp] theorem Dev.updFio_prog (d : Dev) (f : FioSt → FioSt) : (d.updFio f).prog = d.prog := rfl
@[simp] theorem Dev.updFio_axes (d : Dev) (f : FioSt → FioSt) : (d.updFio f).axes = d.axes := rfl
@[simp] theorem Dev.updFio_groups (d : Dev) (f : FioSt → FioSt) : (d.updFio f).groups = d.groups := rfl
@[simp] theorem Dev.updFio_mule (d : Dev) (f : FioSt → FioSt) : (d.updFio f).mule = d.mule := rfl
@[simp] theorem Dev.updFio_rings (d : Dev) (f : FioSt → FioSt) : (d.updFio f).rings = d.rings := rfl
@[simp] theorem Dev.updFio_tm (d : Dev) (f : FioSt → FioSt) : (d.updFio f).tm = d.tm := rfl
@[simp] theorem Dev.updFio_sys (d : Dev) (f : FioSt → FioSt) : (d.updFio f).sys = d.sys := rfl
@[simp] theorem Dev.updFio_hen (d : Dev) (f : FioSt → FioSt) : (d.updFio f).hen = d.hen := rfl
@[simp] theorem Dev.updFio_nv (d : Dev) (f : FioSt → FioSt) : (d.updFio f).nv = d.nv := rfl
@[simp] theorem Dev.updFio_key (d : Dev) (f : FioSt → FioSt) : (d.updFio f).key = d.key := rfl
@[simp] theorem Dev.updFio_hif (d : Dev) (f : FioSt → FioSt) : (d.updFio f).hif = d.hif := rfl
@[simp] theorem Dev.updFio_pair (d : Dev) (f : FioSt → FioSt) : (d.updFio f).pair = d.pair := rfl
@[simp] theorem Dev.updFio_can (d : Dev) (f : FioSt → FioSt) : (d.updFio f).can = d.can := rfl
@[simp] theorem Dev.updFio_bk (d : Dev) (f : FioSt → FioSt) : (d.updFio f).bk = d.bk := rfl
@[simp] theorem Dev.updFio_fab (d : Dev) (f : FioSt → FioSt) : (d.updFio f).fab = d.fab := rfl
@[simp] theorem Dev.updFio_out (d : Dev) (f : FioSt → FioSt) : (d.updFio f).out = d.out := rfl
@[simp] theorem Dev.updFio_fio (d : Dev) (f : FioSt → FioSt) : (d.updFio f).fio = f d.fio := rfl

/-! ### updBk -/

@[simp] theorem Dev.updBk_time (d : Dev) (f : BkSt → BkSt) : (d.updBk f).time = d.time := rfl
@[simp] theorem Dev.updBk_regs (d : Dev) (f : BkSt → BkSt) : (d.updBk f).regs = d.regs := rfl
@[simp] theorem Dev.updBk_mem (d : Dev) (f : BkSt → BkSt) : (d.updBk f).mem = d.mem := rfl
@[simp] theorem Dev.updBk_ecc (d : Dev) (f : BkSt → BkSt) : (d.updBk f).ecc = d.ecc := rfl
@[simp] theorem Dev.updBk_icache (d : Dev) (f : BkSt → BkSt) : (d.updBk f).icache = d.icache := rfl
@[simp] theorem Dev.updBk_cores (d : Dev) (f : BkSt → BkSt) : (d.updBk f).cores = d.cores := rfl
@[simp] theorem Dev.updBk_scan (d : Dev) (f : BkSt → BkSt) : (d.updBk f).scan = d.scan := rfl
@[simp] theorem Dev.updBk_prog (d : Dev) (f : BkSt → BkSt) : (d.updBk f).prog = d.prog := rfl
@[simp] theorem Dev.updBk_axes (d : Dev) (f : BkSt → BkSt) : (d.updBk f).axes = d.axes := rfl
@[simp] theorem Dev.updBk_groups (d : Dev) (f : BkSt → BkSt) : (d.updBk f).groups = d.groups := rfl
@[simp] theorem Dev.updBk_mule (d : Dev) (f : BkSt → BkSt) : (d.updBk f).mule = d.mule := rfl
@[simp] theorem Dev.updBk_rings (d : Dev) (f : BkSt → BkSt) : (d.updBk f).rings = d.rings := rfl
@[simp] theorem Dev.updBk_tm (d : Dev) (f : BkSt → BkSt) : (d.updBk f).tm = d.tm := rfl
@[simp] theorem Dev.updBk_sys (d : Dev) (f : BkSt → BkSt) : (d.updBk f).sys = d.sys := rfl
@[simp] theorem Dev.updBk_hen (d : Dev) (f : BkSt → BkSt) : (d.updBk f).hen = d.hen := rfl
@[simp] theorem Dev.updBk_nv (d : Dev) (f : BkSt → BkSt) : (d.updBk f).nv = d.nv := rfl
@[simp] theorem Dev.updBk_key (d : Dev) (f : BkSt → BkSt) : (d.updBk f).key = d.key := rfl
@[simp] theorem Dev.updBk_hif (d : Dev) (f : BkSt → BkSt) : (d.updBk f).hif = d.hif := rfl
@[simp] theorem Dev.updBk_pair (d : Dev) (f : BkSt → BkSt) : (d.updBk f).pair = d.pair := rfl
@[simp] theorem Dev.updBk_can (d : Dev) (f : BkSt → BkSt) : (d.updBk f).can = d.can := rfl
@[simp] theorem Dev.updBk_fio (d : Dev) (f : BkSt → BkSt) : (d.updBk f).fio = d.fio := rfl
@[simp] theorem Dev.updBk_fab (d : Dev) (f : BkSt → BkSt) : (d.updBk f).fab = d.fab := rfl
@[simp] theorem Dev.updBk_out (d : Dev) (f : BkSt → BkSt) : (d.updBk f).out = d.out := rfl
@[simp] theorem Dev.updBk_bk (d : Dev) (f : BkSt → BkSt) : (d.updBk f).bk = f d.bk := rfl

/-! ### updFab -/

@[simp] theorem Dev.updFab_time (d : Dev) (f : FabSt → FabSt) : (d.updFab f).time = d.time := rfl
@[simp] theorem Dev.updFab_regs (d : Dev) (f : FabSt → FabSt) : (d.updFab f).regs = d.regs := rfl
@[simp] theorem Dev.updFab_mem (d : Dev) (f : FabSt → FabSt) : (d.updFab f).mem = d.mem := rfl
@[simp] theorem Dev.updFab_ecc (d : Dev) (f : FabSt → FabSt) : (d.updFab f).ecc = d.ecc := rfl
@[simp] theorem Dev.updFab_icache (d : Dev) (f : FabSt → FabSt) : (d.updFab f).icache = d.icache := rfl
@[simp] theorem Dev.updFab_cores (d : Dev) (f : FabSt → FabSt) : (d.updFab f).cores = d.cores := rfl
@[simp] theorem Dev.updFab_scan (d : Dev) (f : FabSt → FabSt) : (d.updFab f).scan = d.scan := rfl
@[simp] theorem Dev.updFab_prog (d : Dev) (f : FabSt → FabSt) : (d.updFab f).prog = d.prog := rfl
@[simp] theorem Dev.updFab_axes (d : Dev) (f : FabSt → FabSt) : (d.updFab f).axes = d.axes := rfl
@[simp] theorem Dev.updFab_groups (d : Dev) (f : FabSt → FabSt) : (d.updFab f).groups = d.groups := rfl
@[simp] theorem Dev.updFab_mule (d : Dev) (f : FabSt → FabSt) : (d.updFab f).mule = d.mule := rfl
@[simp] theorem Dev.updFab_rings (d : Dev) (f : FabSt → FabSt) : (d.updFab f).rings = d.rings := rfl
@[simp] theorem Dev.updFab_tm (d : Dev) (f : FabSt → FabSt) : (d.updFab f).tm = d.tm := rfl
@[simp] theorem Dev.updFab_sys (d : Dev) (f : FabSt → FabSt) : (d.updFab f).sys = d.sys := rfl
@[simp] theorem Dev.updFab_hen (d : Dev) (f : FabSt → FabSt) : (d.updFab f).hen = d.hen := rfl
@[simp] theorem Dev.updFab_nv (d : Dev) (f : FabSt → FabSt) : (d.updFab f).nv = d.nv := rfl
@[simp] theorem Dev.updFab_key (d : Dev) (f : FabSt → FabSt) : (d.updFab f).key = d.key := rfl
@[simp] theorem Dev.updFab_hif (d : Dev) (f : FabSt → FabSt) : (d.updFab f).hif = d.hif := rfl
@[simp] theorem Dev.updFab_pair (d : Dev) (f : FabSt → FabSt) : (d.updFab f).pair = d.pair := rfl
@[simp] theorem Dev.updFab_can (d : Dev) (f : FabSt → FabSt) : (d.updFab f).can = d.can := rfl
@[simp] theorem Dev.updFab_fio (d : Dev) (f : FabSt → FabSt) : (d.updFab f).fio = d.fio := rfl
@[simp] theorem Dev.updFab_bk (d : Dev) (f : FabSt → FabSt) : (d.updFab f).bk = d.bk := rfl
@[simp] theorem Dev.updFab_out (d : Dev) (f : FabSt → FabSt) : (d.updFab f).out = d.out := rfl
@[simp] theorem Dev.updFab_fab (d : Dev) (f : FabSt → FabSt) : (d.updFab f).fab = f d.fab := rfl

/-! ### updCan -/

@[simp] theorem Dev.updCan_time (d : Dev) (c : Nat) (f : CanSt → CanSt) : (d.updCan c f).time = d.time := rfl
@[simp] theorem Dev.updCan_regs (d : Dev) (c : Nat) (f : CanSt → CanSt) : (d.updCan c f).regs = d.regs := rfl
@[simp] theorem Dev.updCan_mem (d : Dev) (c : Nat) (f : CanSt → CanSt) : (d.updCan c f).mem = d.mem := rfl
@[simp] theorem Dev.updCan_ecc (d : Dev) (c : Nat) (f : CanSt → CanSt) : (d.updCan c f).ecc = d.ecc := rfl
@[simp] theorem Dev.updCan_icache (d : Dev) (c : Nat) (f : CanSt → CanSt) : (d.updCan c f).icache = d.icache := rfl
@[simp] theorem Dev.updCan_cores (d : Dev) (c : Nat) (f : CanSt → CanSt) : (d.updCan c f).cores = d.cores := rfl
@[simp] theorem Dev.updCan_scan (d : Dev) (c : Nat) (f : CanSt → CanSt) : (d.updCan c f).scan = d.scan := rfl
@[simp] theorem Dev.updCan_prog (d : Dev) (c : Nat) (f : CanSt → CanSt) : (d.updCan c f).prog = d.prog := rfl
@[simp] theorem Dev.updCan_axes (d : Dev) (c : Nat) (f : CanSt → CanSt) : (d.updCan c f).axes = d.axes := rfl
@[simp] theorem Dev.updCan_groups (d : Dev) (c : Nat) (f : CanSt → CanSt) : (d.updCan c f).groups = d.groups := rfl
@[simp] theorem Dev.updCan_mule (d : Dev) (c : Nat) (f : CanSt → CanSt) : (d.updCan c f).mule = d.mule := rfl
@[simp] theorem Dev.updCan_rings (d : Dev) (c : Nat) (f : CanSt → CanSt) : (d.updCan c f).rings = d.rings := rfl
@[simp] theorem Dev.updCan_tm (d : Dev) (c : Nat) (f : CanSt → CanSt) : (d.updCan c f).tm = d.tm := rfl
@[simp] theorem Dev.updCan_sys (d : Dev) (c : Nat) (f : CanSt → CanSt) : (d.updCan c f).sys = d.sys := rfl
@[simp] theorem Dev.updCan_hen (d : Dev) (c : Nat) (f : CanSt → CanSt) : (d.updCan c f).hen = d.hen := rfl
@[simp] theorem Dev.updCan_nv (d : Dev) (c : Nat) (f : CanSt → CanSt) : (d.updCan c f).nv = d.nv := rfl
@[simp] theorem Dev.updCan_key (d : Dev) (c : Nat) (f : CanSt → CanSt) : (d.updCan c f).key = d.key := rfl
@[simp] theorem Dev.updCan_hif (d : Dev) (c : Nat) (f : CanSt → CanSt) : (d.updCan c f).hif = d.hif := rfl
@[simp] theorem Dev.updCan_pair (d : Dev) (c : Nat) (f : CanSt → CanSt) : (d.updCan c f).pair = d.pair := rfl
@[simp] theorem Dev.updCan_fio (d : Dev) (c : Nat) (f : CanSt → CanSt) : (d.updCan c f).fio = d.fio := rfl
@[simp] theorem Dev.updCan_bk (d : Dev) (c : Nat) (f : CanSt → CanSt) : (d.updCan c f).bk = d.bk := rfl
@[simp] theorem Dev.updCan_fab (d : Dev) (c : Nat) (f : CanSt → CanSt) : (d.updCan c f).fab = d.fab := rfl
@[simp] theorem Dev.updCan_out (d : Dev) (c : Nat) (f : CanSt → CanSt) : (d.updCan c f).out = d.out := rfl

/-! ### fioAllOff -/

@[simp] theorem Dev.fioAllOff_time (d : Dev) : (d.fioAllOff).time = d.time := rfl
@[simp] theorem Dev.fioAllOff_regs (d : Dev) : (d.fioAllOff).regs = d.regs := rfl
@[simp] theorem Dev.fioAllOff_mem (d : Dev) : (d.fioAllOff).mem = d.mem := rfl
@[simp] theorem Dev.fioAllOff_ecc (d : Dev) : (d.fioAllOff).ecc = d.ecc := rfl
@[simp] theorem Dev.fioAllOff_icache (d : Dev) : (d.fioAllOff).icache = d.icache := rfl
@[simp] theorem Dev.fioAllOff_cores (d : Dev) : (d.fioAllOff).cores = d.cores := rfl
@[simp] theorem Dev.fioAllOff_scan (d : Dev) : (d.fioAllOff).scan = d.scan := rfl
@[simp] theorem Dev.fioAllOff_prog (d : Dev) : (d.fioAllOff).prog = d.prog := rfl
@[simp] theorem Dev.fioAllOff_axes (d : Dev) : (d.fioAllOff).axes = d.axes := rfl
@[simp] theorem Dev.fioAllOff_groups (d : Dev) : (d.fioAllOff).groups = d.groups := rfl
@[simp] theorem Dev.fioAllOff_mule (d : Dev) : (d.fioAllOff).mule = d.mule := rfl
@[simp] theorem Dev.fioAllOff_rings (d : Dev) : (d.fioAllOff).rings = d.rings := rfl
@[simp] theorem Dev.fioAllOff_tm (d : Dev) : (d.fioAllOff).tm = d.tm := rfl
@[simp] theorem Dev.fioAllOff_sys (d : Dev) : (d.fioAllOff).sys = d.sys := rfl
@[simp] theorem Dev.fioAllOff_hen (d : Dev) : (d.fioAllOff).hen = d.hen := rfl
@[simp] theorem Dev.fioAllOff_nv (d : Dev) : (d.fioAllOff).nv = d.nv := rfl
@[simp] theorem Dev.fioAllOff_key (d : Dev) : (d.fioAllOff).key = d.key := rfl
@[simp] theorem Dev.fioAllOff_hif (d : Dev) : (d.fioAllOff).hif = d.hif := rfl
@[simp] theorem Dev.fioAllOff_pair (d : Dev) : (d.fioAllOff).pair = d.pair := rfl
@[simp] theorem Dev.fioAllOff_can (d : Dev) : (d.fioAllOff).can = d.can := rfl
@[simp] theorem Dev.fioAllOff_bk (d : Dev) : (d.fioAllOff).bk = d.bk := rfl
@[simp] theorem Dev.fioAllOff_fab (d : Dev) : (d.fioAllOff).fab = d.fab := rfl
@[simp] theorem Dev.fioAllOff_out (d : Dev) : (d.fioAllOff).out = d.out := rfl

/-! ### Registers and memory words seen through the updates of other fields -/

@[simp] theorem Dev.wrReg_mw (d : Dev) (a : Nat) (v : BitVec 32) (x : Arr) (j : Nat) : (d.wrReg a v).mw x j = d.mw x j := rfl
@[simp] theorem Dev.wrReg_core (d : Dev) (a : Nat) (v : BitVec 32) (k : CoreId) : (d.wrReg a v).core k = d.core k := rfl
@[simp] theorem Dev.put_mw (d : Dev) (f : Fld) (n : Nat) (x : Arr) (j : Nat) : (d.put f n).mw x j = d.mw x j := rfl
@[simp] theorem Dev.put_core (d : Dev) (f : Fld) (n : Nat) (k : CoreId) : (d.put f n).core k = d.core k := rfl
@[simp] theorem Dev.setF_mw (d : Dev) (f : Fld) (x : Arr) (j : Nat) : (d.setF f).mw x j = d.mw x j := rfl
@[simp] theorem Dev.setF_core (d : Dev) (f : Fld) (k : CoreId) : (d.setF f).core k = d.core k := rfl
@[simp] theorem Dev.clrF_mw (d : Dev) (f : Fld) (x : Arr) (j : Nat) : (d.clrF f).mw x j = d.mw x j := rfl
@[simp] theorem Dev.clrF_core (d : Dev) (f : Fld) (k : CoreId) : (d.clrF f).core k = d.core k := rfl
@[simp] theorem Dev.incr_mw (d : Dev) (f : Fld) (x : Arr) (j : Nat) : (d.incr f).mw x j = d.mw x j := rfl
@[simp] theorem Dev.incr_core (d : Dev) (f : Fld) (k : CoreId) : (d.incr f).core k = d.core k := rfl
@[simp] theorem Dev.satAdd_mw (d : Dev) (f : Fld) (n : Nat) (x : Arr) (j : Nat) : (d.satAdd f n).mw x j = d.mw x j := rfl
@[simp] theorem Dev.satAdd_core (d : Dev) (f : Fld) (n : Nat) (k : CoreId) : (d.satAdd f n).core k = d.core k := rfl
@[simp] theorem Dev.putS_mw (d : Dev) (f : Fld) (i : Int) (x : Arr) (j : Nat) : (d.putS f i).mw x j = d.mw x j := rfl
@[simp] theorem Dev.putS_core (d : Dev) (f : Fld) (i : Int) (k : CoreId) : (d.putS f i).core k = d.core k := rfl
@[simp] theorem Dev.setMw_rd (d : Dev) (a : Arr) (i : Nat) (v : BitVec 16) (r : Nat) : (d.setMw a i v).rd r = d.rd r := rfl
@[simp] theorem Dev.setMw_get (d : Dev) (a : Arr) (i : Nat) (v : BitVec 16) (g : Fld) : (d.setMw a i v).get g = d.get g := rfl
@[simp] theorem Dev.setMw_flag (d : Dev) (a : Arr) (i : Nat) (v : BitVec 16) (g : Fld) : (d.setMw a i v).flag g = d.flag g := rfl
@[simp] theorem Dev.setMw_core (d : Dev) (a : Arr) (i : Nat) (v : BitVec 16) (k : CoreId) : (d.setMw a i v).core k = d.core k := rfl
@[simp] theorem Dev.setMasked_rd (d : Dev) (a : Arr) (i : Nat) (m v : BitVec 16) (r : Nat) : (d.setMasked a i m v).rd r = d.rd r := rfl
@[simp] theorem Dev.setMasked_get (d : Dev) (a : Arr) (i : Nat) (m v : BitVec 16) (g : Fld) : (d.setMasked a i m v).get g = d.get g := rfl
@[simp] theorem Dev.setMasked_flag (d : Dev) (a : Arr) (i : Nat) (m v : BitVec 16) (g : Fld) : (d.setMasked a i m v).flag g = d.flag g := rfl
@[simp] theorem Dev.setMasked_core (d : Dev) (a : Arr) (i : Nat) (m v : BitVec 16) (k : CoreId) : (d.setMasked a i m v).core k = d.core k := rfl
@[simp] theorem Dev.setEcc_rd (d : Dev) (a : Arr) (i : Nat) (e : Ecc) (r : Nat) : (d.setEcc a i e).rd r = d.rd r := rfl
@[simp] theorem Dev.setEcc_get (d : Dev) (a : Arr) (i : Nat) (e : Ecc) (g : Fld) : (d.setEcc a i e).get g = d.get g := rfl
@[simp] theorem Dev.setEcc_flag (d : Dev) (a : Arr) (i : Nat) (e : Ecc) (g : Fld) : (d.setEcc a i e).flag g = d.flag g := rfl
@[simp] theorem Dev.setEcc_mw (d : Dev) (a : Arr) (i : Nat) (e : Ecc) (x : Arr) (j : Nat) : (d.setEcc a i e).mw x j = d.mw x j := rfl
@[simp] theorem Dev.setEcc_core (d : Dev) (a : Arr) (i : Nat) (e : Ecc) (k : CoreId) : (d.setEcc a i e).core k = d.core k := rfl
@[simp] theorem Dev.setCore_rd (d : Dev) (c : CoreId) (s : CoreSt) (r : Nat) : (d.setCore c s).rd r = d.rd r := rfl
@[simp] theorem Dev.setCore_get (d : Dev) (c : CoreId) (s : CoreSt) (g : Fld) : (d.setCore c s).get g = d.get g := rfl
@[simp] theorem Dev.setCore_flag (d : Dev) (c : CoreId) (s : CoreSt) (g : Fld) : (d.setCore c s).flag g = d.flag g := rfl
@[simp] theorem Dev.setCore_mw (d : Dev) (c : CoreId) (s : CoreSt) (x : Arr) (j : Nat) : (d.setCore c s).mw x j = d.mw x j := rfl
@[simp] theorem Dev.updCore_rd (d : Dev) (c : CoreId) (f : CoreSt → CoreSt) (r : Nat) : (d.updCore c f).rd r = d.rd r := rfl
@[simp] theorem Dev.updCore_get (d : Dev) (c : CoreId) (f : CoreSt → CoreSt) (g : Fld) : (d.updCore c f).get g = d.get g := rfl
@[simp] theorem Dev.updCore_flag (d : Dev) (c : CoreId) (f : CoreSt → CoreSt) (g : Fld) : (d.updCore c f).flag g = d.flag g := rfl
@[simp] theorem Dev.updCore_mw (d : Dev) (c : CoreId) (f : CoreSt → CoreSt) (x : Arr) (j : Nat) : (d.updCore c f).mw x j = d.mw x j := rfl
@[simp] theorem Dev.updAxis_rd (d : Dev) (n : Nat) (f : AxisSt → AxisSt) (r : Nat) : (d.updAxis n f).rd r = d.rd r := rfl
@[simp] theorem Dev.updAxis_get (d : Dev) (n : Nat) (f : AxisSt → AxisSt) (g : Fld) : (d.updAxis n f).get g = d.get g := rfl
@[simp] theorem Dev.updAxis_flag (d : Dev) (n : Nat) (f : AxisSt → AxisSt) (g : Fld) : (d.updAxis n f).flag g = d.flag g := rfl
@[simp] theorem Dev.updAxis_mw (d : Dev) (n : Nat) (f : AxisSt → AxisSt) (x : Arr) (j : Nat) : (d.updAxis n f).mw x j = d.mw x j := rfl
@[simp] theorem Dev.updAxis_core (d : Dev) (n : Nat) (f : AxisSt → AxisSt) (k : CoreId) : (d.updAxis n f).core k = d.core k := rfl
@[simp] theorem Dev.updGrp_rd (d : Dev) (n : Nat) (f : GroupSt → GroupSt) (r : Nat) : (d.updGrp n f).rd r = d.rd r := rfl
@[simp] theorem Dev.updGrp_get (d : Dev) (n : Nat) (f : GroupSt → GroupSt) (g : Fld) : (d.updGrp n f).get g = d.get g := rfl
@[simp] theorem Dev.updGrp_flag (d : Dev) (n : Nat) (f : GroupSt → GroupSt) (g : Fld) : (d.updGrp n f).flag g = d.flag g := rfl
@[simp] theorem Dev.updGrp_mw (d : Dev) (n : Nat) (f : GroupSt → GroupSt) (x : Arr) (j : Nat) : (d.updGrp n f).mw x j = d.mw x j := rfl
@[simp] theorem Dev.updGrp_core (d : Dev) (n : Nat) (f : GroupSt → GroupSt) (k : CoreId) : (d.updGrp n f).core k = d.core k := rfl
@[simp] theorem Dev.updRing_rd (d : Dev) (n : Nat) (f : RingSt → RingSt) (r : Nat) : (d.updRing n f).rd r = d.rd r := rfl
@[simp] theorem Dev.updRing_get (d : Dev) (n : Nat) (f : RingSt → RingSt) (g : Fld) : (d.updRing n f).get g = d.get g := rfl
@[simp] theorem Dev.updRing_flag (d : Dev) (n : Nat) (f : RingSt → RingSt) (g : Fld) : (d.updRing n f).flag g = d.flag g := rfl
@[simp] theorem Dev.updRing_mw (d : Dev) (n : Nat) (f : RingSt → RingSt) (x : Arr) (j : Nat) : (d.updRing n f).mw x j = d.mw x j := rfl
@[simp] theorem Dev.updRing_core (d : Dev) (n : Nat) (f : RingSt → RingSt) (k : CoreId) : (d.updRing n f).core k = d.core k := rfl
@[simp] theorem Dev.updScan_rd (d : Dev) (f : ScanSt → ScanSt) (r : Nat) : (d.updScan f).rd r = d.rd r := rfl
@[simp] theorem Dev.updScan_get (d : Dev) (f : ScanSt → ScanSt) (g : Fld) : (d.updScan f).get g = d.get g := rfl
@[simp] theorem Dev.updScan_flag (d : Dev) (f : ScanSt → ScanSt) (g : Fld) : (d.updScan f).flag g = d.flag g := rfl
@[simp] theorem Dev.updScan_mw (d : Dev) (f : ScanSt → ScanSt) (x : Arr) (j : Nat) : (d.updScan f).mw x j = d.mw x j := rfl
@[simp] theorem Dev.updScan_core (d : Dev) (f : ScanSt → ScanSt) (k : CoreId) : (d.updScan f).core k = d.core k := rfl
@[simp] theorem Dev.updTm_rd (d : Dev) (f : TimeSt → TimeSt) (r : Nat) : (d.updTm f).rd r = d.rd r := rfl
@[simp] theorem Dev.updTm_get (d : Dev) (f : TimeSt → TimeSt) (g : Fld) : (d.updTm f).get g = d.get g := rfl
@[simp] theorem Dev.updTm_flag (d : Dev) (f : TimeSt → TimeSt) (g : Fld) : (d.updTm f).flag g = d.flag g := rfl
@[simp] theorem Dev.updTm_mw (d : Dev) (f : TimeSt → TimeSt) (x : Arr) (j : Nat) : (d.updTm f).mw x j = d.mw x j := rfl
@[simp] theorem Dev.updTm_core (d : Dev) (f : TimeSt → TimeSt) (k : CoreId) : (d.updTm f).core k = d.core k := rfl
@[simp] theorem Dev.emit_rd (d : Dev) (o : Out) (r : Nat) : (d.emit o).rd r = d.rd r := rfl
@[simp] theorem Dev.emit_get (d : Dev) (o : Out) (g : Fld) : (d.emit o).get g = d.get g := rfl
@[simp] theorem Dev.emit_flag (d : Dev) (o : Out) (g : Fld) : (d.emit o).flag g = d.flag g := rfl
@[simp] theorem Dev.emit_mw (d : Dev) (o : Out) (x : Arr) (j : Nat) : (d.emit o).mw x j = d.mw x j := rfl
@[simp] theorem Dev.emit_core (d : Dev) (o : Out) (k : CoreId) : (d.emit o).core k = d.core k := rfl
@[simp] theorem Dev.updHen_rd (d : Dev) (f : HenSt → HenSt) (r : Nat) : (d.updHen f).rd r = d.rd r := rfl
@[simp] theorem Dev.updHen_get (d : Dev) (f : HenSt → HenSt) (g : Fld) : (d.updHen f).get g = d.get g := rfl
@[simp] theorem Dev.updHen_flag (d : Dev) (f : HenSt → HenSt) (g : Fld) : (d.updHen f).flag g = d.flag g := rfl
@[simp] theorem Dev.updHen_mw (d : Dev) (f : HenSt → HenSt) (x : Arr) (j : Nat) : (d.updHen f).mw x j = d.mw x j := rfl
@[simp] theorem Dev.updHen_core (d : Dev) (f : HenSt → HenSt) (k : CoreId) : (d.updHen f).core k = d.core k := rfl
@[simp] theorem Dev.updNv_rd (d : Dev) (f : NvSt → NvSt) (r : Nat) : (d.updNv f).rd r = d.rd r := rfl
@[simp] theorem Dev.updNv_get (d : Dev) (f : NvSt → NvSt) (g : Fld) : (d.updNv f).get g = d.get g := rfl
@[simp] theorem Dev.updNv_flag (d : Dev) (f : NvSt → NvSt) (g : Fld) : (d.updNv f).flag g = d.flag g := rfl
@[simp] theorem Dev.updNv_mw (d : Dev) (f : NvSt → NvSt) (x : Arr) (j : Nat) : (d.updNv f).mw x j = d.mw x j := rfl
@[simp] theorem Dev.updNv_core (d : Dev) (f : NvSt → NvSt) (k : CoreId) : (d.updNv f).core k = d.core k := rfl
@[simp] theorem Dev.updKey_rd (d : Dev) (f : KeySt → KeySt) (r : Nat) : (d.updKey f).rd r = d.rd r := rfl
@[simp] theorem Dev.updKey_get (d : Dev) (f : KeySt → KeySt) (g : Fld) : (d.updKey f).get g = d.get g := rfl
@[simp] theorem Dev.updKey_flag (d : Dev) (f : KeySt → KeySt) (g : Fld) : (d.updKey f).flag g = d.flag g := rfl
@[simp] theorem Dev.updKey_mw (d : Dev) (f : KeySt → KeySt) (x : Arr) (j : Nat) : (d.updKey f).mw x j = d.mw x j := rfl
@[simp] theorem Dev.updKey_core (d : Dev) (f : KeySt → KeySt) (k : CoreId) : (d.updKey f).core k = d.core k := rfl
@[simp] theorem Dev.updHif_rd (d : Dev) (f : HifSt → HifSt) (r : Nat) : (d.updHif f).rd r = d.rd r := rfl
@[simp] theorem Dev.updHif_get (d : Dev) (f : HifSt → HifSt) (g : Fld) : (d.updHif f).get g = d.get g := rfl
@[simp] theorem Dev.updHif_flag (d : Dev) (f : HifSt → HifSt) (g : Fld) : (d.updHif f).flag g = d.flag g := rfl
@[simp] theorem Dev.updHif_mw (d : Dev) (f : HifSt → HifSt) (x : Arr) (j : Nat) : (d.updHif f).mw x j = d.mw x j := rfl
@[simp] theorem Dev.updHif_core (d : Dev) (f : HifSt → HifSt) (k : CoreId) : (d.updHif f).core k = d.core k := rfl
@[simp] theorem Dev.updPair_rd (d : Dev) (f : PairSt → PairSt) (r : Nat) : (d.updPair f).rd r = d.rd r := rfl
@[simp] theorem Dev.updPair_get (d : Dev) (f : PairSt → PairSt) (g : Fld) : (d.updPair f).get g = d.get g := rfl
@[simp] theorem Dev.updPair_flag (d : Dev) (f : PairSt → PairSt) (g : Fld) : (d.updPair f).flag g = d.flag g := rfl
@[simp] theorem Dev.updPair_mw (d : Dev) (f : PairSt → PairSt) (x : Arr) (j : Nat) : (d.updPair f).mw x j = d.mw x j := rfl
@[simp] theorem Dev.updPair_core (d : Dev) (f : PairSt → PairSt) (k : CoreId) : (d.updPair f).core k = d.core k := rfl
@[simp] theorem Dev.updFio_rd (d : Dev) (f : FioSt → FioSt) (r : Nat) : (d.updFio f).rd r = d.rd r := rfl
@[simp] theorem Dev.updFio_get (d : Dev) (f : FioSt → FioSt) (g : Fld) : (d.updFio f).get g = d.get g := rfl
@[simp] theorem Dev.updFio_flag (d : Dev) (f : FioSt → FioSt) (g : Fld) : (d.updFio f).flag g = d.flag g := rfl
@[simp] theorem Dev.updFio_mw (d : Dev) (f : FioSt → FioSt) (x : Arr) (j : Nat) : (d.updFio f).mw x j = d.mw x j := rfl
@[simp] theorem Dev.updFio_core (d : Dev) (f : FioSt → FioSt) (k : CoreId) : (d.updFio f).core k = d.core k := rfl
@[simp] theorem Dev.updBk_rd (d : Dev) (f : BkSt → BkSt) (r : Nat) : (d.updBk f).rd r = d.rd r := rfl
@[simp] theorem Dev.updBk_get (d : Dev) (f : BkSt → BkSt) (g : Fld) : (d.updBk f).get g = d.get g := rfl
@[simp] theorem Dev.updBk_flag (d : Dev) (f : BkSt → BkSt) (g : Fld) : (d.updBk f).flag g = d.flag g := rfl
@[simp] theorem Dev.updBk_mw (d : Dev) (f : BkSt → BkSt) (x : Arr) (j : Nat) : (d.updBk f).mw x j = d.mw x j := rfl
@[simp] theorem Dev.updBk_core (d : Dev) (f : BkSt → BkSt) (k : CoreId) : (d.updBk f).core k = d.core k := rfl
@[simp] theorem Dev.updFab_rd (d : Dev) (f : FabSt → FabSt) (r : Nat) : (d.updFab f).rd r = d.rd r := rfl
@[simp] theorem Dev.updFab_get (d : Dev) (f : FabSt → FabSt) (g : Fld) : (d.updFab f).get g = d.get g := rfl
@[simp] theorem Dev.updFab_flag (d : Dev) (f : FabSt → FabSt) (g : Fld) : (d.updFab f).flag g = d.flag g := rfl
@[simp] theorem Dev.updFab_mw (d : Dev) (f : FabSt → FabSt) (x : Arr) (j : Nat) : (d.updFab f).mw x j = d.mw x j := rfl
@[simp] theorem Dev.updFab_core (d : Dev) (f : FabSt → FabSt) (k : CoreId) : (d.updFab f).core k = d.core k := rfl
@[simp] theorem Dev.updCan_rd (d : Dev) (c : Nat) (f : CanSt → CanSt) (r : Nat) : (d.updCan c f).rd r = d.rd r := rfl
@[simp] theorem Dev.updCan_get (d : Dev) (c : Nat) (f : CanSt → CanSt) (g : Fld) : (d.updCan c f).get g = d.get g := rfl
@[simp] theorem Dev.updCan_flag (d : Dev) (c : Nat) (f : CanSt → CanSt) (g : Fld) : (d.updCan c f).flag g = d.flag g := rfl
@[simp] theorem Dev.updCan_mw (d : Dev) (c : Nat) (f : CanSt → CanSt) (x : Arr) (j : Nat) : (d.updCan c f).mw x j = d.mw x j := rfl
@[simp] theorem Dev.updCan_core (d : Dev) (c : Nat) (f : CanSt → CanSt) (k : CoreId) : (d.updCan c f).core k = d.core k := rfl
@[simp] theorem Dev.fioAllOff_rd (d : Dev) (r : Nat) : (d.fioAllOff).rd r = d.rd r := rfl
@[simp] theorem Dev.fioAllOff_get (d : Dev) (g : Fld) : (d.fioAllOff).get g = d.get g := rfl
@[simp] theorem Dev.fioAllOff_flag (d : Dev) (g : Fld) : (d.fioAllOff).flag g = d.flag g := rfl
@[simp] theorem Dev.fioAllOff_mw (d : Dev) (x : Arr) (j : Nat) : (d.fioAllOff).mw x j = d.mw x j := rfl
@[simp] theorem Dev.fioAllOff_core (d : Dev) (k : CoreId) : (d.fioAllOff).core k = d.core k := rfl

/-! ### Cores -/

@[simp] theorem Dev.core_setCore_same (d : Dev) (c : CoreId) (s : CoreSt) : (d.setCore c s).core c = s := by
  simp [Dev.core, Dev.setCore]

theorem Dev.core_setCore_other (d : Dev) {c k : CoreId} (h : c ≠ k) (s : CoreSt) : (d.setCore c s).core k = d.core k := by
  simp only [Dev.core, Dev.setCore]
  exact Vector.getElem_set_ne c.isLt k.isLt (fun e => h (Fin.ext e))

@[simp] theorem Dev.core_updCore_same (d : Dev) (c : CoreId) (f : CoreSt → CoreSt) : (d.updCore c f).core c = f (d.core c) := by
  simp [Dev.updCore]

theorem Dev.core_updCore_other (d : Dev) {c k : CoreId} (h : c ≠ k) (f : CoreSt → CoreSt) :
    (d.updCore c f).core k = d.core k := Dev.core_setCore_other d h _

/-! ### Axes, groups, rings -/

@[simp] theorem Dev.axis_updAxis_same (d : Dev) (n : Nat) (f : AxisSt → AxisSt) : (d.updAxis n f).axis n = f (d.axis n) := by
  simp [Dev.axis, Dev.updAxis]
@[simp] theorem Dev.grp_updGrp_same (d : Dev) (n : Nat) (f : GroupSt → GroupSt) : (d.updGrp n f).grp n = f (d.grp n) := by
  simp [Dev.grp, Dev.updGrp]
@[simp] theorem Dev.ring_updRing_same (d : Dev) (n : Nat) (f : RingSt → RingSt) : (d.updRing n f).ring n = f (d.ring n) := by
  simp [Dev.ring, Dev.updRing]

end Sys2Proof.Machine
end

