-- ==== Sys2Proof/Laws/Isa.lean ====
section
/-! SUPPORT. What running one instruction does: the operations of an instruction's effect one by one, and the one outcome of
Dev.runInstr for each way the effect can end. -/

namespace Sys2Proof.Machine

/-! ## Cores -/

@[simp] theorem Dev.core_setCore (d : Dev) (c : CoreId) (s : CoreSt) : (d.setCore c s).core c = s := by
  simp [Dev.core, Dev.setCore]


@[simp] theorem Dev.core_updCore (d : Dev) (c : CoreId) (f : CoreSt → CoreSt) : (d.updCore c f).core c = f (d.core c) := by
  simp [Dev.updCore]


@[simp] theorem Dev.updCore_updCore (d : Dev) (c : CoreId) (f g : CoreSt → CoreSt) :
    (d.updCore c f).updCore c g = d.updCore c (fun s => g (f s)) := by
  simp [Dev.updCore, Dev.setCore, Dev.core]

/-- Two updates of a core that agree on its state are one. -/
theorem Dev.updCore_congr (d : Dev) (c : CoreId) {f g : CoreSt → CoreSt} (h : f (d.core c) = g (d.core c)) :
    d.updCore c f = d.updCore c g := by
  simp only [Dev.updCore, h]

@[simp] theorem Dev.updCore_eccAt (d : Dev) (c : CoreId) (f : CoreSt → CoreSt) (a : Arr) (i : Nat) :
    (d.updCore c f).eccAt a i = d.eccAt a i := rfl

@[simp] theorem CoreSt.act_setAct (k : CoreSt) (r : RegSet) : (k.setAct r).act = r := by
  simp only [CoreSt.setAct]; split <;> simp_all [CoreSt.act]

@[simp] theorem CoreSt.setAct_inSet1 (k : CoreSt) (r : RegSet) : (k.setAct r).inSet1 = k.inSet1 := by
  simp only [CoreSt.setAct]; split <;> simp_all

@[simp] theorem CoreSt.setAct_loads (k : CoreSt) (r : RegSet) : (k.setAct r).loads = k.loads := by
  simp only [CoreSt.setAct]; split <;> rfl

@[simp] theorem CoreSt.setAct_sbuf (k : CoreSt) (r : RegSet) : (k.setAct r).sbuf = k.sbuf := by
  simp only [CoreSt.setAct]; split <;> rfl

@[simp] theorem CoreSt.setAct_latch (k : CoreSt) (r : RegSet) : (k.setAct r).latch = k.latch := by
  simp only [CoreSt.setAct]; split <;> rfl

@[simp] theorem CoreSt.setAct_wake (k : CoreSt) (r : RegSet) : (k.setAct r).wake = k.wake := by
  simp only [CoreSt.setAct]; split <;> rfl

@[simp] theorem CoreSt.setAct_seq (k : CoreSt) (r : RegSet) : (k.setAct r).seq = k.seq := by
  simp only [CoreSt.setAct]; split <;> rfl

@[simp] theorem CoreSt.setAct_t4Broken (k : CoreSt) (r : RegSet) : (k.setAct r).t4Broken = k.t4Broken := by
  simp only [CoreSt.setAct]; split <;> rfl

@[simp] theorem CoreSt.setAct_setAct (k : CoreSt) (r q : RegSet) : (k.setAct r).setAct q = k.setAct q := by
  cases h : k.inSet1 <;> simp [CoreSt.setAct, h]

/-! ## The effect of an instruction, operation by operation -/

theorem X.bind_ok {α β : Type} {x : X α} {f : α → X β} {d e : Dev} {a : α} (h : x d = .ok (a, e)) :
    (x >>= f) d = f a e := by
  show Except.bind (x d) (fun p => f p.1 p.2) = _
  rw [h]; rfl

theorem X.bind_error {α β : Type} {x : X α} {f : α → X β} {d : Dev} {e : Exn} (h : x d = .error e) :
    (x >>= f) d = .error e := by
  show Except.bind (x d) (fun p => f p.1 p.2) = _
  rw [h]; rfl

/-- A sequence: the second part runs on what the first leaves. -/
theorem X.bind_run {α β : Type} (x : X α) (f : α → X β) (d : Dev) :
    (x >>= f) d = match x d with
      | .ok p => f p.1 p.2
      | .error e => .error e := by
  cases h : x d with
  | ok p => exact X.bind_ok h
  | error e => exact X.bind_error h

@[simp] theorem X.pure_run {α : Type} (a : α) (d : Dev) : (pure a : X α) d = .ok (a, d) := rfl
@[simp] theorem X.get_run (d : Dev) : (get : X Dev) d = .ok (d, d) := rfl
@[simp] theorem X.set_run (d e : Dev) : (set e : X PUnit) d = .ok (⟨⟩, e) := rfl
@[simp] theorem X.modify_run (f : Dev → Dev) (d : Dev) : (modify f : X PUnit) d = .ok (⟨⟩, f d) := rfl
@[simp] theorem endX_run {α : Type} (e : Exn) (d : Dev) : (endX e : X α) d = .error e := rfl
@[simp] theorem stallIf_false (d : Dev) : stallIf false d = .ok ((), d) := rfl
@[simp] theorem stallIf_true (d : Dev) : stallIf true d = .error .stall := rfl
@[simp] theorem emuIf_false (d : Dev) : emuIf false d = .ok ((), d) := rfl
@[simp] theorem emuIf_true (d : Dev) : emuIf true d = .error .emu := rfl
@[simp] theorem coreX_run (c : CoreId) (d : Dev) : coreX c d = .ok (d.core c, d) := rfl
@[simp] theorem regsX_run (c : CoreId) (d : Dev) : regsX c d = .ok ((d.core c).act, d) := rfl
@[simp] theorem modC_run (c : CoreId) (f : CoreSt → CoreSt) (d : Dev) : modC c f d = .ok ((), d.updCore c f) := rfl
@[simp] theorem modR_run (c : CoreId) (f : RegSet → RegSet) (d : Dev) :
    modR c f d = .ok ((), d.updCore c (fun s => s.setAct (f s.act))) := rfl
@[simp] theorem getA_run (c : CoreId) (n : Nat) (d : Dev) : getA c n d = .ok ((d.core c).act.getA n, d) := rfl
@[simp] theorem setA_run (c : CoreId) (n v : Nat) (d : Dev) :
    setA c n v d = .ok ((), d.updCore c (fun s => s.setAct (s.act.setA n v))) := rfl
@[simp] theorem getSr_run (c : CoreId) (d : Dev) : getSr c d = .ok ((d.core c).act.sr, d) := rfl
@[simp] theorem setSr_run (c : CoreId) (v : BitVec 16) (d : Dev) :
    setSr c v d = .ok ((), d.updCore c (fun s => s.setAct { s.act with sr := v })) := rfl
@[simp] theorem getCb_run (c : CoreId) (d : Dev) : getCb c d = .ok (srBit (d.core c).act.sr srCb, d) := rfl
@[simp] theorem setCb_run (c : CoreId) (b : Bool) (d : Dev) :
    setCb c b d = .ok ((), d.updCore c (fun s => s.setAct { s.act with sr := srPut (d.core c).act.sr srCb b })) := rfl
@[simp] theorem setPc_run (c : CoreId) (p : Nat) (d : Dev) :
    setPc c p d = .ok ((), d.updCore c (fun s => s.setAct { s.act with pc := BitVec.ofNat 21 p })) := rfl
@[simp] theorem getPc_run (c : CoreId) (d : Dev) : getPc c d = .ok ((d.core c).act.pc.toNat, d) := rfl

/-- With no load outstanding into the active set no register of it is busy. -/
theorem CoreSt.busyD_free {s : CoreSt} (h : s.loads.all (fun l => l.set1 != s.inSet1) = true) (n : Nat) :
    s.busyD n = false := by
  simp only [CoreSt.busyD, List.any_eq_false]
  intro l hl
  have := List.all_eq_true.mp h l hl
  simp_all

theorem CoreSt.busyAcc_free {s : CoreSt} (h : s.loads.all (fun l => l.set1 != s.inSet1) = true) (n : Nat) :
    s.busyAcc n = false := by
  simp only [CoreSt.busyAcc, List.any_eq_false]
  intro l hl
  have := List.all_eq_true.mp h l hl
  simp_all

@[simp] theorem CoreSt.busyD_setAct (k : CoreSt) (r : RegSet) (n : Nat) : (k.setAct r).busyD n = k.busyD n := by
  simp [CoreSt.busyD]

@[simp] theorem CoreSt.busyAcc_setAct (k : CoreSt) (r : RegSet) (n : Nat) : (k.setAct r).busyAcc n = k.busyAcc n := by
  simp [CoreSt.busyAcc]

theorem getD_run (c : CoreId) (n : Nat) (d : Dev) (h : (d.core c).busyD (n % 16) = false) :
    getD c n d = .ok (((d.core c).act.getD n).toNat, d) := by
  unfold getD
  rw [X.bind_ok (coreX_run c d), h, X.bind_ok (stallIf_false d), X.pure_run]

theorem setD_run (c : CoreId) (n v : Nat) (d : Dev) (h : (d.core c).busyD (n % 16) = false) :
    setD c n v d = .ok ((), d.updCore c (fun s => s.setAct (s.act.setD n (BitVec.ofNat 16 v)))) := by
  unfold setD
  rw [X.bind_ok (coreX_run c d), h, X.bind_ok (stallIf_false d), modR_run]

theorem getAcc_run (c : CoreId) (k : Nat) (d : Dev) (h : (d.core c).busyAcc (k % 4) = false) :
    getAcc c k d = .ok ((d.core c).act.getAcc k, d) := by
  unfold getAcc
  rw [X.bind_ok (coreX_run c d), h, X.bind_ok (stallIf_false d), X.pure_run]

theorem setAcc_run (c : CoreId) (k : Nat) (v : Int) (d : Dev) (h : (d.core c).busyAcc (k % 4) = false) :
    setAcc c k v d = .ok ((), d.updCore c (fun s => s.setAct (s.act.setAcc k v))) := by
  unfold setAcc
  rw [X.bind_ok (coreX_run c d), h, X.bind_ok (stallIf_false d), modR_run]

theorem accRaw_run (c : CoreId) (k : Nat) (d : Dev) (h : (d.core c).busyAcc (k % 4) = false) :
    accRaw c k d = .ok ((d.core c).act.acc[k % 4], d) := by
  unfold accRaw
  rw [X.bind_ok (coreX_run c d), h, X.bind_ok (stallIf_false d), X.pure_run]

/-! ## The fetch -/

/-- The words that a core fetches one after the other leave the device that Dev.fetchFrom says. -/
theorem fetchX_ok (c : CoreId) (n : Nat) : ∀ (p : Nat) (d e : Dev), d.fetchFrom c p n = some e →
    fetchX c p n d = .ok ((), e) := by
  induction n with
  | zero => intro p d e h; cases h; rfl
  | succ n ih =>
    intro p d e h
    unfold Dev.fetchFrom at h
    unfold fetchX
    rw [X.bind_ok (X.get_run d)]
    split at h
    · rename_i e' he
      rw [he]
      exact (X.bind_ok (X.set_run d e')).trans (ih (p + 1) e' e h)
    · cases h

theorem Dev.fetchBreak_of_inRange (d : Dev) (c : CoreId) (len : Nat) (h : d.inRange c len = true) :
    d.fetchBreak c len = d := by
  simp only [Dev.inRange, Bool.or_eq_true, Bool.not_eq_true', Bool.and_eq_true, decide_eq_true_eq] at h
  simp only [Dev.fetchBreak]
  split
  · rename_i hb
    rcases h with h | h
    · simp only [Dev.t4Break, Dev.t4On] at h ⊢
      split
      · simp_all
      · rfl
    · simp_all; omega
  · rfl

/-! ## The outcomes of one instruction -/

theorem issueX_run (c : CoreId) (len : Nat) (body : X Unit) (d : Dev) : issueX c len body d = body (d.begun c len) := by
  unfold issueX
  rw [X.bind_ok (getPc_run c d), X.bind_ok (setPc_run c _ d)]
  rfl

/-- How an instruction that issues ends: `e` is the device with its words fetched. -/
theorem Dev.runInstr_issues {c : CoreId} {len : Nat} {m : Option Bool} {d e : Dev} (h : d.issues c m len e)
    (body : X Unit) (run : Bool := false) :
    d.runInstr c len m body run = Dev.ended c run (d.core c).act.pc d e (body (e.begun c len)) := by
  obtain ⟨h1, h2, h3, h4, h5⟩ := h
  have hm : (m == none || m == some (srBit (d.core c).act.sr srMode)) = true := by
    rcases h2 with h | h <;> simp [h]
  simp only [Dev.runInstr, h1, hm, h3, Bool.and_self, if_true, Dev.fetchBreak_of_inRange d c len h4]
  rw [show (fetchX c (d.core c).act.pc.toNat len).run d = .ok ((), e) from fetchX_ok c len _ d e h5]
  show Dev.ended c run _ d e (issueX c len body e) = _
  rw [issueX_run]

/-- After an instruction that is no short-form bit instruction no rung run goes on. -/
theorem Dev.issued_false (d : Dev) (c : CoreId) (pc : BitVec 21) : d.issued c false pc = d.stepped c := rfl

/-- An instruction whose effect completes. -/
theorem Dev.runInstr_ok {c : CoreId} {len : Nat} {m : Option Bool} {d e d' : Dev} (h : d.issues c m len e)
    {body : X Unit} {u : Unit} (hb : body (e.begun c len) = .ok (u, d')) (run : Bool := false) :
    d.runInstr c len m body run = d'.issued c run (d.core c).act.pc := by
  rw [Dev.runInstr_issues h body run, hb]; rfl

/-- An instruction whose effect is the emulation trap. -/
theorem Dev.runInstr_emu {c : CoreId} {len : Nat} {m : Option Bool} {d e : Dev} (h : d.issues c m len e)
    {body : X Unit} (hb : body (e.begun c len) = .error .emu) (run : Bool := false) :
    d.runInstr c len m body run = (e.takeEmu c 2 (e.pWord c (d.core c).act.pc.toNat)).stepped c := by
  rw [Dev.runInstr_issues h body run, hb]; rfl

/-- An instruction that an access rule ends (R126). -/
theorem Dev.runInstr_acc {c : CoreId} {len : Nat} {m : Option Bool} {d e : Dev} (h : d.issues c m len e)
    {body : X Unit} {k a : Nat} {drop : Bool} (hb : body (e.begun c len) = .error (.acc k a drop)) (run : Bool := false) :
    d.runInstr c len m body run = (e.takeAcc c k a drop).stepped c := by
  rw [Dev.runInstr_issues h body run, hb]; rfl

/-- An instruction that waits for an access leaves the device as it is. -/
theorem Dev.runInstr_stall {c : CoreId} {len : Nat} {m : Option Bool} {d e : Dev} (h : d.issues c m len e)
    {body : X Unit} (hb : body (e.begun c len) = .error .stall) (run : Bool := false) : d.runInstr c len m body run = d := by
  rw [Dev.runInstr_issues h body run, hb]; rfl

/-- A core that issues nothing leaves the device as it is. -/
theorem Dev.runInstr_none {c : CoreId} {len : Nat} {m : Option Bool} {d : Dev} (h : d.canIssue c = false)
    (body : X Unit) (run : Bool := false) : d.runInstr c len m body run = d := by
  simp [Dev.runInstr, h]

theorem Dev.issues_held {c : CoreId} {len : Nat} {m : Option Bool} {d e : Dev} (h : d.issues c m len e) :
    d.sys.held = false := by
  have h1 := h.1
  simp only [Dev.canIssue, Bool.and_eq_true, Bool.not_eq_true'] at h1
  exact h1.1.1.1.2

/-- A command whose device is not held in reset. -/
theorem State.onDev_next {s : State} {f : Dev → Dev} (h : s.dev.sys.held = false) :
    s.onDev f = .next { s with dev := f s.dev } := by
  simp [State.onDev, h]

@[simp] theorem Dev.begun_core (d : Dev) (c : CoreId) (len : Nat) :
    (d.begun c len).core c =
      (d.core c).setAct { (d.core c).act with pc := BitVec.ofNat 21 ((d.core c).act.pc.toNat + len) } := by
  simp [Dev.begun]

/-! ## Instructions on registers alone -/

/-- An instruction whose effect is one change of the active registers. -/
theorem runInstr_regs {s : State} {e : Dev} {c : CoreId} {len : Nat} {m : Option Bool} {body : X Unit} {f : RegSet → RegSet}
    (h : s.dev.issues c m len e)
    (hb : body (e.begun c len) = .ok ((), (e.begun c len).updCore c (fun k => k.setAct (f k.act)))) :
    s.onDev (Dev.runInstr c len m body) = .next (s.on (e.retire c len f)) := by
  rw [State.onDev_next (Dev.issues_held h), Dev.runInstr_ok h hb false]
  simp only [State.on, Dev.issued_false, Dev.stepped, Dev.retire, Dev.begun, Dev.updCore_updCore]
  congr 2
  apply Dev.updCore_congr
  simp [BitVec.ofNat_add]

theorem begun_busyD (d : Dev) (c : CoreId) (len n : Nat) (h : d.regsFree c = true) : ((d.begun c len).core c).busyD n = false := by
  rw [Dev.begun_core, CoreSt.busyD_setAct]; exact CoreSt.busyD_free h n
theorem begun_busyAcc (d : Dev) (c : CoreId) (len n : Nat) (h : d.regsFree c = true) : ((d.begun c len).core c).busyAcc n = false := by
  rw [Dev.begun_core, CoreSt.busyAcc_setAct]; exact CoreSt.busyAcc_free h n

/-- A data operation on one register. -/
theorem aluX_ok (d : Dev) (c : CoreId) (op : AluOp) (n : Fin 16) (a b : BitVec 16) (h : ∀ n, (d.core c).busyD n = false) :
    aluX c op n.val a.toNat b.toNat d = .ok ((), d.updCore c (fun k => k.setAct (aluInto op n a b k.act))) := by
  simp only [aluX, X.bind_run, getSr_run]
  have e : b2n (srBit (d.core c).act.sr srC) = b2n ((d.core c).act.sr.getLsbD 0) := by rw [srBit_eq]; rfl
  rw [e]
  by_cases g : op = .cmp
  · subst g
    simp only [beq_self_eq_true, if_true, setSr_run, srAlu_eq]
    congr 2
    apply Dev.updCore_congr
    simp only [alu_r, alu_c, alu_v, tst_msb, beq_zero, aluInto, if_true]
  · have g' : (op == AluOp.cmp) = false := by simp [g]
    simp only [g', Bool.false_eq_true, if_false, X.bind_run, setD_run c _ _ d (h _), setSr_run, srAlu_eq, Dev.updCore_updCore]
    congr 2
    apply Dev.updCore_congr
    simp only [alu_r, alu_c, alu_v, tst_msb, beq_zero, aluInto, g, if_false, CoreSt.setAct_setAct, CoreSt.act_setAct, RegSet.setD, BitVec.ofNat_toNat]
    congr 2
    simp [Nat.mod_eq_of_lt n.isLt]

/-- A data operation of group 0x7. -/
theorem alu2_ok (d : Dev) (c : CoreId) (op : AluOp) (dd ds : Fin 16)  (h : ∀ n, (d.core c).busyD n = false) :
    alu2 c op dd ds d = .ok ((), d.updCore c (fun k => k.setAct (aluInto op dd (if op = .not ∨ op = .neg then (d.core c).act.d ds else (d.core c).act.d dd) ((d.core c).act.d ds) k.act))) := by
  simp only [alu2, X.bind_run, getD_run c _ d (h _), RegSet.getD, Nat.mod_eq_of_lt ds.isLt, Nat.mod_eq_of_lt dd.isLt]
  have := aluX_ok d c op dd (if op = .not ∨ op = .neg then (d.core c).act.d ds else (d.core c).act.d dd) ((d.core c).act.d ds) h
  rw [← this]
  congr 1
  by_cases g : op = .not ∨ op = .neg
  · rw [if_pos g, if_pos (by simpa using g)]; rfl
  · rw [if_neg g, if_neg (by simpa using g)]; rfl

/-- The active registers with PC past the instruction. -/
theorem begun_act (d : Dev) (c : CoreId) (len : Nat) : ((d.begun c len).core c).act = { (d.core c).act with pc := BitVec.ofNat 21 ((d.core c).act.pc.toNat + len) } := by
  rw [Dev.begun_core, CoreSt.act_setAct]


theorem imm6_eq (q : BitVec 6) : imm6 q = (q.signExtend 16).toNat := by
  revert q; decide

theorem sx40_toNat (v : BitVec 40) : sx 40 v.toNat = v.toInt := by
  simp only [sx, BitVec.toInt]
  have := v.isLt
  split <;> split <;> omega

theorem acc_ofInt (v : Int) : BitVec.ofNat 40 (toU 40 v) = BitVec.ofInt 40 v := by
  apply BitVec.eq_of_toNat_eq
  simp [toU, BitVec.toNat_ofInt]
  omega

/-- An accumulator takes a result. -/
theorem accOut_ok (d : Dev) (c : CoreId) (k : Fin 4) (o : AccOut) (h : ∀ n, (d.core c).busyAcc n = false) :
    accOut c k.val o d = .ok ((), d.updCore c (fun q => q.setAct (accTakes k o.v o.ovs o.sat q.act))) := by
  simp only [accOut, X.bind_run, setAcc_run c _ _ _ (h _), getSr_run, setSr_run, Dev.updCore_updCore]
  congr 2
  apply Dev.updCore_congr
  simp only [CoreSt.setAct_setAct, CoreSt.act_setAct, Dev.core_updCore, RegSet.setAcc, accTakes, srAcc, acc_ofInt]
  congr 2
  · simp [Nat.mod_eq_of_lt k.isLt]
  · obtain ⟨v, o1, o2⟩ := o
    cases o1 <;> cases o2 <;> simp [srPut_eq, srOvs, srSat, flagAt]

theorem lim40_eq (x : Int) : lim40 x = { v := acc40 x, ovs := decide (acc40 x ≠ x), sat := false } := by
  have e : clampI (-549755813888) 549755813887 x = acc40 x := by simp only [clampI, acc40]; omega
  simp only [lim40, e, AccOut.mk.injEq, true_and, and_true]
  rw [Bool.eq_iff_iff]; simp

theorem getAcc_eq (r : RegSet) (k : Fin 4) : r.getAcc k.val = (r.acc[k]).toInt := by
  simp only [RegSet.getAcc, sx40_toNat, Nat.mod_eq_of_lt k.isLt]; rfl

theorem accRnd_eq (a : Int) : accRnd a = { v := min 0x7FFFFF0000 (roundHalfAway a), ovs := decide (0x7FFFFF0000 < roundHalfAway a), sat := false } := by
  simp only [accRnd, roundHalfAway]
  split <;> split <;> simp_all <;> omega

theorem accSat32_eq (a : Int) : accSat32 a = { v := max (-2147483648) (min 2147483647 a), ovs := false, sat := decide (a < -2147483648 ∨ 2147483647 < a) } := by
  have e : clampI (-2147483648) 2147483647 a = max (-2147483648) (min 2147483647 a) := by simp only [clampI]; omega
  simp only [accSat32, e, AccOut.mk.injEq, true_and]
  rw [Bool.eq_iff_iff]; simp only [bne_iff_ne, decide_eq_true_eq]; omega

theorem setD_with (d : Dev) (c : CoreId) (n : Fin 16) (v : BitVec 16) (h : (d.core c).busyD (n.val % 16) = false) :
    setD c n.val v.toNat d = .ok ((), d.updCore c (fun k => k.setAct (k.act.withD n v))) := by
  rw [setD_run c _ _ _ h]
  congr 2
  apply Dev.updCore_congr
  congr 1
  simp [RegSet.setD, RegSet.withD, Nat.mod_eq_of_lt n.isLt]

theorem setA_with (d : Dev) (c : CoreId) (n : Fin 8) (v : Nat) :
    setA c n.val v d = .ok ((), d.updCore c (fun k => k.setAct (k.act.withA n (BitVec.ofNat 24 v)))) := by
  rw [setA_run]
  congr 2
  apply Dev.updCore_congr
  congr 1
  simp only [RegSet.setA, RegSet.withA, Nat.mod_eq_of_lt n.isLt]

theorem getD_d (r : RegSet) (n : Fin 16) : r.getD n.val = r.d n := by
  simp only [RegSet.getD, Nat.mod_eq_of_lt n.isLt]; rfl
theorem getA_an (r : RegSet) (n : Fin 8) : r.getA n.val = (r.an n).toNat := by
  simp only [RegSet.getA, Nat.mod_eq_of_lt n.isLt]; rfl
theorem accRaw_eq (r : RegSet) (k : Fin 4) : r.acc[k.val % 4] = r.acc[k] := by
  simp only [Nat.mod_eq_of_lt k.isLt]; rfl

theorem setD_eq {d : Dev} {c : CoreId} {n : Fin 16} {m : Nat} (v : BitVec 16) (hm : m = v.toNat) (h : (d.core c).busyD (n.val % 16) = false) :
    setD c n.val m d = .ok ((), d.updCore c (fun k => k.setAct (k.act.withD n v))) := by
  subst hm; exact setD_with d c n v h
theorem setA_eq {d : Dev} {c : CoreId} {n : Fin 8} {m : Nat} (v : BitVec 24) (hm : BitVec.ofNat 24 m = v) :
    setA c n.val m d = .ok ((), d.updCore c (fun k => k.setAct (k.act.withA n v))) := by
  subst hm; exact setA_with d c n m

end Sys2Proof.Machine
end

