-- ==== Sys2Proof/Laws/Access.lean ====
section
/-! SUPPORT. What a core reads: the access rules, memory words and register words as an instruction finds them when none of its
accesses is outstanding. -/

namespace Sys2Proof.Machine

theorem wordRule_updCore (d : Dev) (c e : CoreId) (f : CoreSt → CoreSt) (p wr : Bool) (w : Nat) :
    (d.updCore c f).wordRule e p wr w = d.wordRule e p wr w := rfl

theorem wordsRule_updCore (d : Dev) (c e : CoreId) (f : CoreSt → CoreSt) (p wr : Bool) (n : Nat) : ∀ w,
    (d.updCore c f).wordsRule e p wr w n = d.wordsRule e p wr w n := by
  induction n with
  | zero => intros; rfl
  | succ n ih => intro w; simp only [Dev.wordsRule, wordRule_updCore, ih]

theorem spanRule_begun (d : Dev) (c : CoreId) (len : Nat) (wr : Bool) (w n : Nat) :
    (d.begun c len).spanRule c wr w n = d.spanRule c wr w n := by
  simp only [Dev.spanRule, begun_act]
  simp only [Dev.begun, wordsRule_updCore]

theorem accessRule_begun (d : Dev) (c : CoreId) (len : Nat) (wr : Bool) (w n : Nat) :
    (d.begun c len).accessRule c wr w n = d.accessRule c wr w n := by
  simp only [Dev.accessRule, spanRule_begun]

theorem t4On_begun (d : Dev) (c : CoreId) (len : Nat) : (d.begun c len).t4On c = d.t4On c := by
  simp only [Dev.t4On, Dev.begun_core, CoreSt.setAct_inSet1]; rfl

/-- An access that breaks no rule goes on. -/
theorem ruleX_ok {c : CoreId} {wr : Bool} {w n : Nat} {d : Dev} (h : d.accessRule c wr w n = none) (b : Bool := false) :
    ruleX c wr w n b d = .ok ((), d) := by
  simp only [ruleX, X.bind_run, X.get_run, h]; rfl

/-- An access that breaks one ends the instruction; a bit write leaves the pair latch (R541). -/
theorem ruleX_acc {c : CoreId} {wr : Bool} {w n k a : Nat} {d : Dev} (h : d.accessRule c wr w n = some (k, a)) (b : Bool) :
    ruleX c wr w n b d = .error (.acc k a (wr && n == 1 && w % 2 == 1 && isRegWord w && !b)) := by
  simp only [ruleX, X.bind_run, X.get_run, h]; rfl

theorem spanX_ok {c : CoreId} {wr : Bool} {w n : Nat} {d : Dev} (h : d.spanRule c wr w n = none) :
    spanX c wr w n d = .ok ((), d) := by
  simp only [spanX, X.bind_run, X.get_run, h]; rfl

theorem t4Break_off {c : CoreId} {k : Nat} {d : Dev} (h : d.t4On c = false) : d.t4Break c k = d := by
  simp only [Dev.t4Break, Dev.t4On] at h ⊢
  split
  · simp_all
  · rfl

theorem farX_ok {c : CoreId} {w n : Nat} {d : Dev} (h : d.t4On c = false ∨ (w + n - 1) % 0x1000000 < 0xC0000) :
    farX c w n d = .ok ((), d) := by
  simp only [farX]
  split
  · rw [X.modify_run, t4Break_off (h.resolve_right (by omega))]
  · rfl

theorem frameFarX_ok {c : CoreId} {w n : Nat} {d : Dev} (h : d.t4On c = false ∨ (w + n - 1) % 0x1000000 < 0x20000) :
    frameFarX c w n d = .ok ((), d) := by
  simp only [frameFarX]
  split
  · rw [X.modify_run, t4Break_off (h.resolve_right (by omega))]
  · rfl

/-! ## Memory words -/

theorem eccAt_gran (d : Dev) (a : Arr) (off : Nat) : d.eccAt a (off / 4 * 4) = d.eccAt a off := by
  simp only [Dev.eccAt, granKey, Nat.mul_div_cancel _ (by decide : 0 < 4)]

theorem readGran_ok {d : Dev} {a : Arr} {off : Nat} (h : d.eccAt a off = .ok) : d.readGran a off = some d := by
  simp only [Dev.readGran, h]

theorem readGrans_ok {d : Dev} (gs : List (Arr × Nat)) (h : ∀ g ∈ gs, d.eccAt g.1 (g.2 * 4) = .ok) :
    d.readGrans gs = ([], d) := by
  induction gs with
  | nil => rfl
  | cons g gs ih =>
    simp only [Dev.readGrans, readGran_ok (h g (by simp))]
    exact ih (fun x hx => h x (by simp [hx]))

/-- Every granule of a list of words holds one of them. -/
theorem mem_granules {ws : List (Arr × Nat)} {g : Arr × Nat} (h : g ∈ granules ws) : ∃ w ∈ ws, g = (w.1, w.2 / 4) := by
  induction ws with
  | nil => cases h
  | cons w ws ih =>
    simp only [granules, List.mem_cons, List.mem_filter] at h
    rcases h with h | h
    · exact ⟨w, by simp, h⟩
    · obtain ⟨v, hv, e⟩ := ih h.1
      exact ⟨v, by simp [hv], e⟩

/-- Words that hold no error are read as they stand. -/
theorem readWords_ok {d : Dev} (ws : List (Arr × Nat)) (h : ∀ w ∈ ws, d.eccAt w.1 w.2 = .ok) :
    d.readWords ws = (ws.map (fun w => d.memWord w.1 w.2), [], d) := by
  have e : d.readGrans (granules (ws.filter d.needsGran)) = ([], d) := by
    apply readGrans_ok
    intro g hg
    obtain ⟨w, hw, rfl⟩ := mem_granules hg
    rw [eccAt_gran]
    exact h w (List.mem_filter.mp hw).1
  simp [Dev.readWords, e]

/-- With no store held nor buffered a core finds memory as it stands. -/
theorem ownView_quiet {d : Dev} {c : CoreId} (h : d.quiet c = true) (seq w : Nat) {a : Arr} {off : Nat}
    (hl : d.locate c w = .mem a off) (v : BitVec 16) : d.ownView c seq w v = (v, 0) := by
  simp only [Dev.quiet, Bool.and_eq_true, List.isEmpty_iff, Dev.noneHeld] at h
  have hh : ∀ (hs : List HeldQ), hs.all (fun x => x.by_ != some c) = true →
      hs.foldl (fun (acc : BitVec 16 × BitVec 16) x =>
        if x.by_ == some c && x.off == off then ((acc.1 &&& ~~~x.mask) ||| (x.val &&& x.mask), acc.2 ||| x.mask) else acc) (v, 0)
        = (v, 0) := by
    intro hs
    induction hs with
    | nil => intro _; rfl
    | cons x xs ih =>
      intro g
      simp only [List.all_cons, Bool.and_eq_true, bne_iff_ne] at g
      simp only [List.foldl_cons, beq_eq_false_iff_ne.mpr g.1, Bool.false_and, Bool.false_eq_true, if_false]
      exact ih g.2
  have ho : d.heldOver c a off v = (v, 0) := by
    unfold Dev.heldOver
    split
    · exact hh _ h.2
    · rfl
  simp only [Dev.ownView, hl, ho, Dev.overlay, h.1.2, List.foldl_nil]

/-- A core reads memory words that hold no error as they stand. -/
theorem coreReads_ok {d : Dev} {c : CoreId} (hs : d.quiet c = true) (seq : Nat) (ws : List Nat)
    (h : ∀ w ∈ ws, d.clean c w = true) (hr : ∀ w ∈ ws, ∀ v, d.locate c w ≠ .reg v) :
    d.coreReads c seq ws = .ok (ws.map (d.seen c), d) := by
  have hf : ∀ x ∈ d.fetched c seq ws, d.eccAt x.1 x.2 = .ok := by
    intro x hx
    simp only [Dev.fetched, List.mem_filterMap] at hx
    obtain ⟨w, hw, e⟩ := hx
    have hc := h w hw
    simp only [Dev.clean] at hc
    split at e
    · rename_i a off hl
      rw [hl] at hc
      split at e
      · cases e
      · cases e; simpa using hc
    · cases e
  simp only [Dev.coreReads, readWords_ok _ hf, List.isEmpty_nil, if_true]
  congr 2
  apply List.map_congr_left
  intro w hw
  simp only [Dev.seen]
  split
  · rename_i a off hl
    rw [ownView_quiet hs _ _ hl, hl]
    cases a <;> rfl
  · rename_i hl
    split
    · rename_i e; exact absurd e (hl _ _)
    · rename_i e; exact absurd e (hl _ _)
    · rename_i v e; exact absurd e (hr w hw v)
    · rfl

theorem readNow_ok {d : Dev} {c : CoreId} (hs : d.quiet c = true) (ws : List Nat) (h : ∀ w ∈ ws, d.clean c w = true)
    (hr : ∀ w ∈ ws, ∀ v, d.locate c w ≠ .reg v) : readNow c ws d = .ok (ws.map (d.seen c), d) := by
  have hl : (d.core c).loads = [] := by
    simp only [Dev.quiet, Bool.and_eq_true, List.isEmpty_iff] at hs
    exact hs.1.1
  simp only [readNow, X.bind_run, X.get_run, hl, List.any_nil, stallIf_false, coreReads_ok hs _ ws h hr, X.set_run, X.pure_run]

/-! ## Register words -/

theorem locate_reg {d : Dev} {c : CoreId} {w v : Nat} (h : d.locate c w = .reg v) : isRegWord w = true ∧ v = w := by
  have own : d.ownLoc c w ≠ .reg v := by
    simp only [Dev.ownLoc]; split
    · intro k; cases k
    · split <;> intro k <;> cases k
  simp only [Dev.locate] at h
  by_cases g0 : w < 0x20000
  · rw [if_pos g0] at h; exact absurd h own
  · rw [if_neg g0] at h
    unfold Dev.sharedLoc at h
    by_cases g : 0xD0000 ≤ w ∧ w < 0xEC000
    · rw [if_neg g0, if_neg (by omega), if_neg (by omega), if_neg (by omega), if_neg (by omega), if_neg (by omega),
        if_pos g.2] at h
      cases h
      simp only [isRegWord, Bool.and_eq_true, decide_eq_true_eq]
      exact ⟨⟨g.1, by omega⟩, trivial⟩
    · exfalso
      rw [if_neg g0] at h
      split at h; · cases h
      split at h; · cases h
      split at h; · cases h
      split at h; · cases h
      split at h; · cases h
      rw [if_neg (by omega)] at h
      split at h; · cases h
      split at h; · cases h
      split at h; · cases h
      split at h <;> cases h

/-- A word of the register areas that exists is a register word. -/
theorem locate_isReg {d : Dev} {c : CoreId} {w : Nat} (g : isRegWord w = true) (h : d.locate c w ≠ .none) :
    d.locate c w = .reg w := by
  simp only [isRegWord, Bool.and_eq_true, decide_eq_true_eq] at g
  revert h
  simp only [Dev.locate]
  rw [if_neg (by omega)]
  unfold Dev.sharedLoc
  rw [if_neg (by omega), if_neg (by omega), if_neg (by omega), if_neg (by omega), if_neg (by omega), if_neg (by omega)]
  split
  · intro _; rfl
  · rw [if_pos (by omega)]; intro h; exact absurd rfl h

/-- An access that breaks no rule reaches an existing first word. -/
theorem locate_of_accessRule {d : Dev} {c : CoreId} {wr : Bool} {w n : Nat} (hw : w < 0x1000000)
    (h : d.accessRule c wr w n = none) : d.locate c w ≠ .none := by
  intro e
  simp [Dev.accessRule, Dev.spanRule, Dev.wordsRule, Dev.wordRule, Nat.mod_eq_of_lt hw, e] at h

/-- A register word that holds no error is read as it stands, with no side effect (R541). -/
theorem peekReg_ok {d : Dev} {c : CoreId} (hs : d.quiet c = true) {w : Nat} (hl : d.locate c w = .reg w)
    (h : d.clean c w = true) : peekReg c w d = .ok (d.seen c w, d) := by
  simp only [Dev.quiet, Bool.and_eq_true, List.isEmpty_iff] at hs
  simp only [Dev.clean, hl, Bool.and_eq_true, List.all_eq_true, beq_iff_eq] at h
  simp only [peekReg, regGet, X.bind_run, X.get_run, hs.1.2, List.any_nil, stallIf_false, h.2, if_true, X.pure_run, X.modify_run,
    readGrans_ok _ h.1, Dev.seen, hl]

theorem peekWord_ok {d : Dev} {c : CoreId} (hs : d.quiet c = true) {w : Nat} (hl : isRegWord w = true → d.locate c w = .reg w)
    (h : d.clean c w = true) : peekWord c w d = .ok (d.seen c w, d) := by
  simp only [peekWord]
  by_cases g : isRegWord w = true
  · simp only [g, if_true]
    exact peekReg_ok hs (hl g) h
  · have g' : isRegWord w = false := by simpa using g
    simp only [g', Bool.false_eq_true, if_false, X.bind_run]
    rw [readNow_ok hs [w] (by simpa using h) (by
      intro v hv u hu; simp at hv; subst hv; exact g (locate_reg hu).1)]
    rfl

/-! ## Bit operands -/

theorem bitAt_begun (d : Dev) (c : CoreId) (len : Nat) (x : BitOpd) : bitAt ((d.begun c len).core c).act x = bitAt (d.core c).act x := by
  rw [begun_act]; rfl

theorem bitPlace_run (d : Dev) (c : CoreId) (x : BitOpd) : bitPlace c x d = .ok (bitAt (d.core c).act x, d) := by
  cases x <;> rfl

theorem bitAt_lt (r : RegSet) (x : BitOpd) : (bitAt r x).1 < 0x1000000 ∧ (bitAt r x).2 < 16 := by
  cases x <;> simp only [bitAt, shortBit, longBit] <;> constructor <;> apply Nat.mod_lt <;> decide

theorem quiet_begun (d : Dev) (c : CoreId) (len : Nat) : (d.begun c len).quiet c = d.quiet c := by
  simp only [Dev.quiet, Dev.begun_core, CoreSt.setAct_loads, CoreSt.setAct_sbuf]; rfl

theorem readsPlain_spec {d : Dev} {c : CoreId} {w n : Nat} (h : d.readsPlain c w n = true) :
    d.accessRule c false w n = none ∧ (∀ i, i < n → d.clean c ((w + i) % 0x1000000) = true) ∧ d.quiet c = true
      ∧ (d.t4On c = false ∨ (w + n - 1) % 0x1000000 < 0xC0000) := by
  simp only [Dev.readsPlain, Bool.and_eq_true, List.all_eq_true, List.mem_range, Option.isNone_iff_eq_none, Bool.or_eq_true, Bool.not_eq_true', decide_eq_true_eq] at h
  exact ⟨h.1.1.1, h.1.1.2, h.1.2, h.2⟩

/-! ## Store accesses (R91) -/

/-- Outside T4 mode a store access with room enters the buffer. -/
theorem storeAccess_ok {d : Dev} {c : CoreId} (h4 : d.t4On c = false) (hr : (d.core c).sbuf.length < 8)
    (ws : List (Nat × BitVec 16 × BitVec 16)) (b : Bool) : storeAccess c ws b d = .ok ((), d.stores c ws b) := by
  have : decide (8 ≤ (d.core c).sbuf.length) = false := by simpa using hr
  simp only [storeAccess, X.bind_run, X.get_run, h4, Bool.false_eq_true, if_false, this, stallIf_false, modC_run, Dev.stores]
  rfl

/-- With the buffer full it waits. -/
theorem storeAccess_full {d : Dev} {c : CoreId} (h4 : d.t4On c = false) (hr : 8 ≤ (d.core c).sbuf.length)
    (ws : List (Nat × BitVec 16 × BitVec 16)) (b : Bool) : storeAccess c ws b d = .error .stall := by
  simp only [storeAccess, X.bind_run, X.get_run, h4, Bool.false_eq_true, if_false, hr, decide_true, stallIf_true]

end Sys2Proof.Machine
end

