-- ==== Sys2Proof/Laws/Fields.lean ====
section
/-! SUPPORT. Register fields: what a field reads after a write of the same field, of another field of the same register, and
of another register. -/

namespace Sys2Proof.Machine

@[simp] theorem Dev.rd_wrReg_same (d : Dev) (a : Nat) (v : BitVec 32) : (d.wrReg a v).rd a = v := by
  simp [Dev.rd, Dev.wrReg]

theorem Dev.rd_wrReg_other (d : Dev) {a b : Nat} (h : b ≠ a) (v : BitVec 32) : (d.wrReg a v).rd b = d.rd b := by
  simp only [Dev.rd, Dev.wrReg]
  exact Store.get_set_other _ _ h _

/-- The bits of a field are below 2 to its width. -/
theorem Fld.of_lt (f : Fld) (v : BitVec 32) : f.of v < 2 ^ f.width := Nat.mod_lt _ (Nat.two_pow_pos _)

/-- A field lies in its register. -/
def Fld.ok (f : Fld) : Prop := f.lo ≤ f.hi ∧ f.hi < 32

theorem Fld.ins_lt (f : Fld) (h : f.ok) (v : BitVec 32) (n : Nat) :
    v.toNat % 2 ^ f.lo + n % 2 ^ f.width * 2 ^ f.lo + v.toNat / 2 ^ (f.hi + 1) * 2 ^ (f.hi + 1) < 2 ^ 32 := by
  obtain ⟨h1, h2⟩ := h
  have hw : f.lo + f.width = f.hi + 1 := by simp only [Fld.width]; omega
  have e1 : (2 : Nat) ^ (f.hi + 1) = 2 ^ f.lo * 2 ^ f.width := by rw [← Nat.pow_add, hw]
  have e2 : (2 : Nat) ^ 32 = 2 ^ (f.hi + 1) * 2 ^ (31 - f.hi) := by rw [← Nat.pow_add]; congr 1; omega
  have a1 := Nat.mod_lt v.toNat (Nat.two_pow_pos f.lo)
  have a2 := Nat.mod_lt n (Nat.two_pow_pos f.width)
  have a3 : v.toNat / 2 ^ (f.hi + 1) < 2 ^ (31 - f.hi) := by
    apply Nat.div_lt_of_lt_mul; rw [← e2]; exact v.isLt
  have b1 : v.toNat % 2 ^ f.lo + n % 2 ^ f.width * 2 ^ f.lo < 2 ^ (f.hi + 1) := by
    rw [e1]
    calc _ < 2 ^ f.lo + n % 2 ^ f.width * 2 ^ f.lo := by omega
      _ = (n % 2 ^ f.width + 1) * 2 ^ f.lo := by rw [Nat.add_mul]; omega
      _ ≤ 2 ^ f.width * 2 ^ f.lo := Nat.mul_le_mul_right _ a2
      _ = _ := Nat.mul_comm _ _
  calc _ < 2 ^ (f.hi + 1) + v.toNat / 2 ^ (f.hi + 1) * 2 ^ (f.hi + 1) := by omega
    _ = (v.toNat / 2 ^ (f.hi + 1) + 1) * 2 ^ (f.hi + 1) := by rw [Nat.add_mul]; omega
    _ ≤ 2 ^ (31 - f.hi) * 2 ^ (f.hi + 1) := Nat.mul_le_mul_right _ a3
    _ = _ := by rw [e2]; exact Nat.mul_comm _ _

theorem Fld.ins_toNat (f : Fld) (h : f.ok) (v : BitVec 32) (n : Nat) :
    (f.ins v n).toNat = v.toNat % 2 ^ f.lo + n % 2 ^ f.width * 2 ^ f.lo + v.toNat / 2 ^ (f.hi + 1) * 2 ^ (f.hi + 1) := by
  simp only [Fld.ins, BitVec.toNat_ofNat]
  exact Nat.mod_eq_of_lt (f.ins_lt h v n)

/-- A bit of a register after a field was set: inside the field the written bit, outside the old one. -/
theorem Fld.ins_testBit (f : Fld) (h : f.ok) (v : BitVec 32) (n i : Nat) :
    (f.ins v n).toNat.testBit i = if f.lo ≤ i ∧ i ≤ f.hi then n.testBit (i - f.lo) else v.toNat.testBit i := by
  rw [Fld.ins_toNat f h]
  obtain ⟨h1, h2⟩ := h
  have hw : f.lo + f.width = f.hi + 1 := by simp only [Fld.width]; omega
  have e1 : (2 : Nat) ^ (f.hi + 1) = 2 ^ f.lo * 2 ^ f.width := by rw [← Nat.pow_add, hw]
  have a1 := Nat.mod_lt v.toNat (Nat.two_pow_pos f.lo)
  have a2 := Nat.mod_lt n (Nat.two_pow_pos f.width)
  have b1 : v.toNat % 2 ^ f.lo + n % 2 ^ f.width * 2 ^ f.lo < 2 ^ (f.hi + 1) := by
    rw [e1]
    calc _ < 2 ^ f.lo + n % 2 ^ f.width * 2 ^ f.lo := by omega
      _ = (n % 2 ^ f.width + 1) * 2 ^ f.lo := by rw [Nat.add_mul]; omega
      _ ≤ 2 ^ f.width * 2 ^ f.lo := Nat.mul_le_mul_right _ a2
      _ = _ := Nat.mul_comm _ _
  have c1 : v.toNat % 2 ^ f.lo + n % 2 ^ f.width * 2 ^ f.lo + v.toNat / 2 ^ (f.hi + 1) * 2 ^ (f.hi + 1)
      = 2 ^ (f.hi + 1) * (v.toNat / 2 ^ (f.hi + 1)) + (2 ^ f.lo * (n % 2 ^ f.width) + v.toNat % 2 ^ f.lo) := by
    rw [Nat.mul_comm (2 ^ (f.hi + 1)), Nat.mul_comm (2 ^ f.lo)]; omega
  have c2 : 2 ^ f.lo * (n % 2 ^ f.width) + v.toNat % 2 ^ f.lo < 2 ^ (f.hi + 1) := by
    rw [Nat.mul_comm (2 ^ f.lo)]; omega
  rw [c1, Nat.testBit_two_pow_mul_add _ c2, Nat.testBit_two_pow_mul_add _ a1]
  by_cases g1 : i < f.lo
  · rw [if_pos (by omega), if_pos g1, if_neg (by omega), Nat.testBit_mod_two_pow]; simp [g1]
  · by_cases g2 : i ≤ f.hi
    · rw [if_pos (by omega), if_neg g1, if_pos ⟨by omega, g2⟩, Nat.testBit_mod_two_pow]
      have : i - f.lo < f.width := by omega
      simp [this]
    · rw [if_neg (by omega), if_neg (by omega), Nat.testBit_div_two_pow]
      congr 1; omega

/-- A field reads what was written to it. -/
theorem Fld.of_ins_same (f : Fld) (h : f.ok) (v : BitVec 32) (n : Nat) : f.of (f.ins v n) = n % 2 ^ f.width := by
  apply Nat.eq_of_testBit_eq
  intro i
  have hw : f.lo + f.width = f.hi + 1 := by simp only [Fld.width]; have := h.1; omega
  rw [Fld.of, Nat.testBit_mod_two_pow, Nat.testBit_div_two_pow, Fld.ins_testBit f h, Nat.testBit_mod_two_pow]
  by_cases g : i < f.width
  · rw [if_pos (by omega)]; simp [g]
  · simp [g]

/-- A field reads as before after a write of a field that shares no bit with it. -/
theorem Fld.of_ins_other (f g : Fld) (h : f.ok) (hd : g.hi < f.lo ∨ f.hi < g.lo) (hg : g.lo ≤ g.hi) (v : BitVec 32) (n : Nat) :
    g.of (f.ins v n) = g.of v := by
  apply Nat.eq_of_testBit_eq
  intro i
  rw [Fld.of, Fld.of, Nat.testBit_mod_two_pow, Nat.testBit_div_two_pow, Nat.testBit_mod_two_pow, Nat.testBit_div_two_pow,
    Fld.ins_testBit f h]
  by_cases c : i < g.width
  · simp only [Fld.width] at c
    rw [if_neg (by omega)]
  · simp [c]

theorem Dev.get_put_same (d : Dev) (f : Fld) (h : f.ok) (n : Nat) : (d.put f n).get f = n % 2 ^ f.width := by
  simp only [Dev.get, Dev.put, Dev.rd_wrReg_same, Fld.of_ins_same f h]

theorem Dev.get_put_other (d : Dev) (f g : Fld) (h : f.ok) (hg : g.lo ≤ g.hi)
    (hd : g.addr ≠ f.addr ∨ g.hi < f.lo ∨ f.hi < g.lo) (n : Nat) : (d.put f n).get g = d.get g := by
  by_cases e : g.addr = f.addr
  · simp only [Dev.get, Dev.put, e, Dev.rd_wrReg_same]
    rw [Fld.of_ins_other f g h (hd.resolve_left (fun k => k e)) hg]
  · simp only [Dev.get, Dev.put, Dev.rd_wrReg_other d e]

theorem Dev.rd_put_other (d : Dev) (f : Fld) {a : Nat} (h : a ≠ f.addr) (n : Nat) : (d.put f n).rd a = d.rd a := by
  simp only [Dev.put, Dev.rd_wrReg_other d h]

end Sys2Proof.Machine
end

