-- ==== Sys2Proof/Laws/Memory.lean ====
section
/-! SUPPORT. Memory: a read after a write, and every memory operation keeps the canonical form. -/

namespace Sys2Proof.Machine

/-- Keys of different words differ. -/
theorem memKey_inj {a b : Arr} {i j : Nat} (h : memKey a i = memKey b j) : i = j ∧ arrCode a = arrCode b := by
  have h1 : arrCode a < 64 := by cases a <;> simp only [arrCode, b2n] <;> (try split) <;> omega
  have h2 : arrCode b < 64 := by cases b <;> simp only [arrCode, b2n] <;> (try split) <;> omega
  simp only [memKey] at h
  omega

theorem memKey_ne {a : Arr} {i j : Nat} (h : i ≠ j) : memKey a i ≠ memKey a j := fun e => h (memKey_inj e).1

@[simp] theorem Dev.mw_setMw_same (d : Dev) (a : Arr) (i : Nat) (v : BitVec 16) : (d.setMw a i v).mw a i = v := by
  simp [Dev.mw, Dev.setMw]

theorem Dev.mw_setMw_other (d : Dev) {a b : Arr} {i j : Nat} (h : memKey b j ≠ memKey a i) (v : BitVec 16) :
    (d.setMw a i v).mw b j = d.mw b j := by
  simp only [Dev.mw, Dev.setMw]
  exact Store.get_set_other _ _ h _

@[simp] theorem Dev.eccAt_setEcc_same (d : Dev) (a : Arr) (i : Nat) (e : Ecc) : (d.setEcc a i e).eccAt a i = e := by
  simp [Dev.eccAt, Dev.setEcc]

theorem Dev.eccAt_setEcc_other (d : Dev) {a b : Arr} {i j : Nat} (h : granKey b j ≠ granKey a i) (e : Ecc) :
    (d.setEcc a i e).eccAt b j = d.eccAt b j := by
  simp only [Dev.eccAt, Dev.setEcc]
  exact Store.get_set_other _ _ h _

/-! ## The canonical form -/

theorem Memory.wf_iff (d : Dev) :
    Memory.wf d = true ↔ Store.wf memZero d.mem = true ∧ Store.wf (fun _ => Ecc.ok) d.ecc = true := by
  simp [Memory.wf]

theorem Memory.wf_setMw (d : Dev) (a : Arr) (i : Nat) (v : BitVec 16) (h : Memory.wf d = true) :
    Memory.wf (d.setMw a i v) = true := by
  rw [Memory.wf_iff] at h ⊢
  exact ⟨Store.wf_set _ _ _ _ h.1, h.2⟩

theorem Memory.wf_setEcc (d : Dev) (a : Arr) (i : Nat) (e : Ecc) (h : Memory.wf d = true) :
    Memory.wf (d.setEcc a i e) = true := by
  rw [Memory.wf_iff] at h ⊢
  exact ⟨h.1, Store.wf_set _ _ _ _ h.2⟩

theorem Memory.wf_setMasked (d : Dev) (a : Arr) (i : Nat) (m v : BitVec 16) (h : Memory.wf d = true) :
    Memory.wf (d.setMasked a i m v) = true := Memory.wf_setMw d a i _ h

theorem Memory.wf_setMws (a : Arr) (ws : List (BitVec 16)) :
    ∀ (d : Dev) (i : Nat), Memory.wf d = true → Memory.wf (d.setMws a i ws) = true := by
  induction ws with
  | nil => intro d i h; exact h
  | cons w ws ih => intro d i h; exact ih _ _ (Memory.wf_setMw d a i w h)

theorem Memory.wf_fillMw (d : Dev) (a : Arr) (i : Nat) (v : BitVec 16) (n : Nat) (h : Memory.wf d = true) :
    Memory.wf (d.fillMw a i v n) = true := Memory.wf_setMws a _ d i h

theorem Memory.wf_clearArr (d : Dev) (a : Arr) (h : Memory.wf d = true) : Memory.wf (d.clearArr a) = true := by
  rw [Memory.wf_iff] at h ⊢
  exact ⟨Store.wf_filter _ _ _ h.1, Store.wf_filter _ _ _ h.2⟩

theorem Memory.wf_foldl {β : Type} (f : Dev → β → Dev) (hf : ∀ d b, Memory.wf d = true → Memory.wf (f d b) = true)
    (l : List β) : ∀ d, Memory.wf d = true → Memory.wf (l.foldl f d) = true := by
  induction l with
  | nil => intro d h; exact h
  | cons b l ih => intro d h; exact ih _ (hf d b h)

theorem Memory.wf_copyArr (d : Dev) (dst src : Arr) (h : Memory.wf d = true) : Memory.wf (d.copyArr dst src) = true :=
  Memory.wf_foldl _ (fun d e hd => Memory.wf_setMw d dst _ e.2 hd) _ _ (Memory.wf_clearArr d dst h)

/-- The memory after reset has the canonical form. -/
theorem Memory.wf_reset : Memory.wf Dev.reset = true := rfl

end Sys2Proof.Machine
end

