-- ==== Sys2Proof/WellFormed.lean ====
section
/-! DEFINITION. Which commands are well formed: the operands whose types admit more than the spec's commands have are in
range. Every command has its meaning whether or not it is well formed; the host's traffic and the device's neighbours send
well-formed ones. -/

namespace Sys2Proof

open Sys2Proof.Machine (arrSize)

/-- The data bytes a DLC names (Table 12.5): classic frames carry at most 8. -/
def dlcBytes (fdf : Bool) (dlc : Nat) : Nat :=
  if dlc ≤ 8 then dlc else if fdf then [12, 16, 20, 24, 32, 48, 64].getD (dlc - 9) 64 else 8

/-- A CAN frame: an FD frame is no remote frame, BRS is an FD frame's, a standard identifier has 11 bits, and the data have
the length of DLC. -/
def CanFrame.wf (f : CanFrame) : Bool :=
  !(f.fdf && f.rtr) && (f.fdf || !f.brs) && f.data.length == (if f.rtr then 0 else dlcBytes f.fdf f.dlc.val)

/-- A host read TLP: BAR2 holds 2 MiB. -/
def HostRd.wf (x : HostRd) : Bool :=
  match x with
  | .bar2 off len => len != 0 && off.toNat + len ≤ 0x200000
  | .dword off => off.toNat % 4 == 0
  | .qword off => off.toNat % 8 == 0
  | .other _ | .outside => true

/-- The data of a read of host memory have exactly, or at most and at least one of, `n` words. -/
def HostRead.ofLength (n : Nat) (x : HostRead) : Bool :=
  match x with
  | .data ws => ws.length == n
  | .unsupported | .aborted | .poisoned => true
def HostRead.upTo (n : Nat) (x : HostRead) : Bool :=
  match x with
  | .data ws => ws.length ≤ n
  | .unsupported | .aborted | .poisoned => true

/-- A CHANGE frame: staged words fit the program bank. -/
def ChangeFrame.wf (f : ChangeFrame) : Bool :=
  match f with
  | .words p ws => p.toNat + ws.length ≤ 0x200000
  | .opened | .prepare | .abort | .result _ | .marker _ => true

/-- A command is well formed. -/
def Instr.wf (i : Instr) : Bool :=
  match i with
  | .patrolScrub a granule _ => granule * 4 < arrSize a
  | .brownOut rails _ => rails != 0
  | .nodeFrameReceive _ _ f => f.octets.length < 0x10000
  | .enumFrameReturn _ count dly eseq => count < 0x10000 && dly < 0x100000000 && eseq < 0x10000
  | .linkDelayRequest _ _ lseq turn => lseq < 0x10000 && turn < 0x100000000
  | .standbyRingFrame _ _ f => f.octets.length < 0x10000
  | .canFrameReceive _ f => f.wf
  | .canTxEnd _ _ ldly => ldly.all (fun n => decide (n < 512))
  | .hostBarRead x => x.wf
  | .hostBar2Write off ws => !ws.isEmpty && off.toNat + ws.length ≤ 0x100000
  | .segrDoorbell _ _ ents => ents.all (fun e => e.length == 16)
  | .descriptorFetch _ x => x.ofLength 16
  | .transferChunk _ x => x.upTo 2048
  | .helloReceive _ f => f.payload.length ≤ 256
  | .joinReceive _ f => f.payload.length ≤ 256
  | .assignReceive _ f => f.payload.length ≤ 256
  | .lsaReceive _ f => f.payload.length ≤ 256
  | .fabricFrameReceive _ f => f.payload.length ≤ 256
  | .publishReceive _ f => f.payload.length ≤ 256
  | .tsyncReqReceive _ f => f.payload.length ≤ 256
  | .tsyncResponse _ f => f.payload.length ≤ 256
  | .heartbeatReceive h => h.role != 3 && h.sync != 3
  | .lineReceive w _ ws => w.toNat % 64 == 0 && ws.length == 64
  | .changeReceive f => f.wf
  | .resyncDone c => Machine.Store.rising c.axes && Machine.Store.rising c.groups && Machine.Store.rising c.mule.ux
  | .storeBufferDrain _ i => i < 8
  | .nop .. | .wfe .. | .wfeWake .. | .sev .. | .sevf .. | .wunt .. | .wuntDone .. | .fenceR .. | .fenceW ..
  | .fenceAll .. | .fenceDone .. | .ret .. | .reti .. | .trap .. | .mode .. | .jmpAn .. | .callAn ..
  | .reservedEncoding .. | .ldb .. | .ldbn .. | .andb .. | .andbn .. | .orb .. | .orbn .. | .xorb .. | .xorbn ..
  | .stb .. | .stbn .. | .setb .. | .clrb .. | .edgr .. | .edgf .. | .cpush .. | .cpand .. | .cpor .. | .cpxor ..
  | .cnot .. | .cset .. | .cclr .. | .movb .. | .move .. | .load .. | .store .. | .movq .. | .addq .. | .cmpq ..
  | .movqA .. | .add .. | .adc .. | .sub .. | .sbc .. | .cmp .. | .and .. | .or .. | .xor .. | .not .. | .neg ..
  | .lsl .. | .lsr .. | .asr .. | .ror .. | .adds .. | .subs .. | .mac .. | .msu .. | .mpy .. | .accClr ..
  | .addacc .. | .subacc .. | .negacc .. | .asl .. | .accAsr .. | .rnd .. | .sat32 .. | .addaImm .. | .suba ..
  | .addaD .. | .addaA .. | .mset .. | .mget .. | .branch .. | .call .. | .calli .. | .tbr .. | .tbst ..
  | .telap .. | .tcmp .. | .ldi .. | .alui .. | .ldd .. | .std .. | .ldiA .. | .lit .. | .lith .. | .stkAdd ..
  | .stkSub .. | .stkAnd .. | .stkOr .. | .stkXor .. | .stkShl .. | .stkShr .. | .stkAsr .. | .stkMul ..
  | .stkEq .. | .stkLts .. | .stkLtu .. | .stkNot .. | .stkNeg .. | .dup .. | .drop .. | .swap .. | .over ..
  | .rot .. | .popaL .. | .popaH .. | .pushaL .. | .pushaH .. | .inca .. | .ld .. | .ldInc .. | .st .. | .stInc ..
  | .stkBra .. | .bz .. | .stkCall .. | .eventEntry .. | .t4ModeWrite .. | .t4EventTimeout .. | .clockLoss ..
  | .dieLinkTimeout .. | .mcStatusWrite .. | .ceClr .. | .inj .. | .setupLockSet .. | .aeClr .. | .aeLogClear ..
  | .registerWrite .. | .powerOnReset .. | .resetPin .. | .fenceNReset .. | .devResetDelay .. | .internalReset ..
  | .startWarm .. | .startCold .. | .scanStop .. | .maxClr .. | .initDone .. | .iFlip .. | .iCopyForwardDone ..
  | .barrierStart .. | .barrierEnd .. | .qFlip .. | .commitEnd .. | .rollbackEnd .. | .scanOverrun .. | .gapEnd ..
  | .hostSnapshotRead .. | .ctaskEnable .. | .clrAll .. | .clrOrph .. | .open .. | .prepare .. | .chgCommit ..
  | .abort .. | .checkingDone .. | .stageDataWrite .. | .stagePtrWrite .. | .commitPoint .. | .ringCycleStart ..
  | .windowClose .. | .cyclePoint .. | .ringQPickup .. | .axisEnable .. | .axisDisable .. | .clrFault ..
  | .axisSwap .. | .peakClr .. | .disAll .. | .swapList .. | .coefficientWrite .. | .axisConfigWrite ..
  | .gantryCtrlWrite .. | .gantryOfsWrite .. | .groupEnable .. | .groupCfgWrite .. | .memberWrite .. | .go ..
  | .stop .. | .qstop .. | .flush .. | .resume .. | .qptrWrite .. | .queueEntryWrite .. | .ringStart ..
  | .ringStop .. | .linkSynchronized .. | .startStepTimeout .. | .enumFrameSend .. | .ringSyncDone ..
  | .ringStopDone .. | .mfLost .. | .ringPcsLoss .. | .healClose .. | .ringDeadTimeout .. | .svcGo ..
  | .svcTimeout .. | .cntClr .. | .cptWrite .. | .ringConfigWrite .. | .canStart .. | .canStop .. | .recover ..
  | .canSyncDone .. | .canStopDone .. | .recoverDone .. | .txreqWrite .. | .txcanWrite .. | .mraWrite ..
  | .mrwWrite .. | .mrrRead .. | .rxqaWrite .. | .canBusError .. | .canTxChoice .. | .tatDeadline ..
  | .canQPickup .. | .lomExit .. | .fieldTick .. | .fieldImageWrite .. | .fieldGroupSample ..
  | .currentLimitEntry .. | .outputLatch .. | .thermalShutdown .. | .fieldTempWarning .. | .vfldLockout ..
  | .vfldRecover .. | .supplyLoss .. | .vfldOkRestore .. | .fioRetry .. | .fioFaultClear .. | .fioDirWrite ..
  | .parWrite .. | .poisonedWrite .. | .pcieConfigRequest .. | .cmdqTailDoorbell .. | .cplqHeadDoorbell ..
  | .cmdqEna .. | .cmdqDis .. | .cplqEna .. | .cplqDis .. | .hostNop .. | .readW .. | .writeW .. | .snapRead ..
  | .forceWr .. | .stage .. | .progCmd .. | .scanCmd .. | .segBind .. | .nvRead .. | .nvWrite .. | .fwStage ..
  | .fwHandover .. | .devReset .. | .reservedCommand .. | .hostCompletionTimeout .. | .pgCmd .. | .hostIrq ..
  | .pcieLinkDown .. | .pcieLinkUp .. | .functionLevelReset .. | .hotReset .. | .perstRelease .. | .helloSend ..
  | .helloTimeout .. | .fabricLinkLoss .. | .electionSettled .. | .epochTick .. | .rootTimeout .. | .joinSend ..
  | .rootAssign .. | .lsaSend .. | .lsaExpire .. | .publishSend .. | .subAgeTick .. | .tsyncRequest ..
  | .tlockTimeout .. | .fabCntClr .. | .rejoin .. | .heartbeatSend .. | .heartbeatMiss .. | .noticeReceive ..
  | .partnerActLow .. | .masterFrameAbsent .. | .takeover .. | .fenceTimeout .. | .fenceRelease .. | .dualActive ..
  | .muleWrReceive .. | .muleRecordReceive .. | .pointEndReceive .. | .ackReceive .. | .mirrorPointTimer ..
  | .resyncStart .. | .pairTimeExchange .. | .pairLaneLoss .. | .goActive .. | .switch ..
  | .switchoverAckTimeout .. | .switchoverHandoff .. | .tbStep .. | .timeLoRead .. | .evHpendClear ..
  | .gooseCheckIn .. | .goosePeriodClose .. | .gooseConfigWrite .. | .henCapture .. | .henFlushDone ..
  | .henFlush .. | .verify .. | .henVerifyDone .. | .henCntClr .. | .eraseAll .. | .eraseRun .. | .eraseRunDone ..
  | .henRangeWrite .. | .henRselWrite .. | .bufferDrain .. | .verifyPassDone .. | .nvrRead .. | .nvrWrite ..
  | .nvrDone .. | .wringEnable .. | .wringLoadDone .. | .wringTrigger .. | .wringUpdateDone .. | .powerFail ..
  | .powerFailDone .. | .powerFailRecover .. | .bkSet .. | .bkLoad .. | .bkWakeFire .. | .bkWakeWrite ..
  | .bkSubRead .. | .bkCalPeriod .. | .bkLock .. | .bkUnlock .. | .bkPowerUp .. | .bkBrownout .. | .oscStop ..
  | .lcCmd .. | .lcBurnDone .. | .ksProg .. | .ksProgDone .. | .psBurn .. | .psBurnDone .. | .debugEnableRequest ..
  | .debugResponse .. | .deadExit .. | .handoverPoint .. | .fwCommitPoint .. | .bootArunStore .. | .loadReturn ..
  | .t4PreloadDone .. | .pcsSyncRegained .. | .fabricBlockLock .. | .pairBlockLock .. | .tatTimeReached ..
  | .oscRestart .. | .backupSupplyReturn .. | .resetNRelease .. | .fenceNRelease .. | .brownOutRelease ..
  | .pfwNDeassert .. | .tjCoreUpdate .. | .debugHalt .. | .currentLimitExit .. => true

end Sys2Proof
end

