-- ==== Sys2Proof/Tests/Slice0.lean ====
section
/-! SUPPORT. Tests: an ill-formed term for each check of Instr.wf, small steps whose results the spec gives, and for every
statement of Certificates/Slice0/Obligations.lean with hypotheses concrete states and operands that meet them together (no
hypothesis set is empty). -/

namespace Sys2Proof.Tests

open Sys2Proof Sys2Proof.Machine

set_option maxRecDepth 40000

/-! ## Small states -/

/-- The device after reset. -/
abbrev d0 : Dev := State.reset.dev

/-- `d` with register fields put. -/
def regs (l : List (Fld × Nat)) (d : Dev) : Dev := l.foldl (fun d p => d.put p.1 p.2) d

/-- The device after reset with register fields put. -/
def with0 (l : List (Fld × Nat)) : Dev := regs l d0

/-- The same at time `t`. -/
def atT (t : Nat) (l : List (Fld × Nat)) : Dev := { with0 l with time := BitVec.ofNat 64 t }

/-- Tile 0 runs a strand, with `f` of its register set 0. -/
def tile (f : RegSet → RegSet) : Dev :=
  d0.updCore 0 (fun k => { k with run0 := .active, s0 := f k.s0 })

/-- The Bellwether as reset leaves it (PRIV and MODE set), with `f` of its register set 0. -/
def bell (f : RegSet → RegSet) : Dev := d0.updCore 16 (fun k => { k with s0 := f k.s0 })

/-- The fields of the next state of command `i`, where there is one. -/
def after (i : Instr) (s : State) : Option Dev :=
  match exec i s with
  | .next t => some t.dev
  | .fault _ => none
  | .refused _ => none

/-- What field `f` holds after command `i` on device `d`. -/
def val (i : Instr) (d : Dev) (f : Fld) : Option Nat := (after i (State.reset.on d)).map (fun u => u.get f)

/-- A fabric frame as it arrives on a link with payload `p`. -/
def frame (kind : BitVec 8) (p : List (BitVec 8)) : FabFrame :=
  { kind := kind, ver := 0x10, dst := 0, src := 0, ttl := 16, seq := 0, payload := p, crcOk := true }

/-- The device with `n` words fetched at the PC of core `c`. -/
def ft (d : Dev) (c : CoreId) (n : Nat) : Dev := (d.fetchFrom c (d.core c).act.pc.toNat n).getD d

/-- Core `c` can issue an instruction of `n` words that decodes with MODE = `m` where given. -/
def runs (d : Dev) (c : CoreId) (m : Option Bool) (n : Nat) : Bool :=
  d.canIssue c && (m == none || m == some (srBit (d.core c).act.sr srMode)) && (d.core c).trip == none && d.inRange c n
    && (d.fetchFrom c (d.core c).act.pc.toNat n).isSome

theorem issues_of {d : Dev} {c : CoreId} {m : Option Bool} {n : Nat} (h : runs d c m n = true) : d.issues c m n (ft d c n) := by
  simp only [runs, Bool.and_eq_true, Bool.or_eq_true, beq_iff_eq, Option.isSome_iff_exists] at h
  obtain ⟨⟨⟨⟨h1, h2⟩, h3⟩, h4⟩, e, h5⟩ := h
  exact ⟨h1, h2, h3, h4, by rw [ft, h5]; rfl⟩

/-! ## WellFormed: each check refuses an ill-formed term -/

theorem test_wf_patrolScrub : (Instr.patrolScrub .mark 0x4000 .ok).wf = false ∧ (Instr.patrolScrub .mark 0x3FFF .ok).wf = true := by
  decide
theorem test_wf_brownOut : (Instr.brownOut 0 ⟨0, 0, []⟩).wf = false ∧ (Instr.brownOut 1 ⟨0, 0, []⟩).wf = true := by decide

theorem test_wf_nodeFrameReceive (b : Bool) :
    (Instr.nodeFrameReceive 0 .inp ⟨List.replicate 80 0, b⟩).wf = true
      ∧ (Instr.nodeFrameReceive 0 .inp ⟨List.replicate 0x10000 0, b⟩).wf = false := by
  refine ⟨by cases b <;> decide, ?_⟩
  show decide ((List.replicate 0x10000 (0 : BitVec 8)).length < 0x10000) = false
  rw [List.length_replicate]; rfl
theorem test_wf_enumFrameReturn :
    (Instr.enumFrameReturn 0 1 0 0).wf = true ∧ (Instr.enumFrameReturn 0 0x10000 0 0).wf = false
      ∧ (Instr.enumFrameReturn 0 1 0x100000000 0).wf = false ∧ (Instr.enumFrameReturn 0 1 0 0x10000).wf = false := by decide
theorem test_wf_linkDelayRequest :
    (Instr.linkDelayRequest 0 .inp 0xFFFF 0).wf = true ∧ (Instr.linkDelayRequest 0 .inp 0x10000 0).wf = false
      ∧ (Instr.linkDelayRequest 0 .inp 0 0x100000000).wf = false := by decide
theorem test_wf_standbyRingFrame (b : Bool) :
    (Instr.standbyRingFrame 0 .inp ⟨List.replicate 80 0, b⟩).wf = true
      ∧ (Instr.standbyRingFrame 0 .inp ⟨List.replicate 0x10000 0, b⟩).wf = false := by
  refine ⟨by cases b <;> decide, ?_⟩
  show decide ((List.replicate 0x10000 (0 : BitVec 8)).length < 0x10000) = false
  rw [List.length_replicate]; rfl

/-- A CAN frame of `n` data bytes. -/
def canF (rtr fdf brs : Bool) (dlc : Fin 16) (n : Nat) : CanFrame :=
  { esi := false, xtd := false, rtr := rtr, id := 0, fdf := fdf, brs := brs, dlc := dlc, data := List.replicate n 0, sof := 0 }

theorem test_wf_canFrame :
    (Instr.canFrameReceive 0 (canF false true true 15 64)).wf = true ∧ (Instr.canFrameReceive 0 (canF true true false 0 0)).wf = false
      ∧ (Instr.canFrameReceive 0 (canF false false true 8 8)).wf = false ∧ (Instr.canFrameReceive 0 (canF false false false 9 12)).wf = false
      ∧ (Instr.canFrameReceive 0 (canF true false false 4 4)).wf = false := by decide
theorem test_wf_canTxEnd : (Instr.canTxEnd 0 .ok (some 512)).wf = false ∧ (Instr.canTxEnd 0 .ok (some 511)).wf = true := by decide
theorem test_wf_hostBarRead :
    (Instr.hostBarRead (.bar2 0x1FFFFC 4)).wf = true ∧ (Instr.hostBarRead (.bar2 0x1FFFFC 8)).wf = false
      ∧ (Instr.hostBarRead (.bar2 0 0)).wf = false ∧ (Instr.hostBarRead (.dword 2)).wf = false ∧ (Instr.hostBarRead (.qword 4)).wf = false := by
  decide
theorem test_wf_hostBar2Write :
    (Instr.hostBar2Write 0xFFFFF [(0xFFFF, 0)]).wf = true ∧ (Instr.hostBar2Write 0xFFFFF [(0xFFFF, 0), (0xFFFF, 0)]).wf = false
      ∧ (Instr.hostBar2Write 0 []).wf = false := by decide
theorem test_wf_segrDoorbell :
    (Instr.segrDoorbell 0 1 [List.replicate 16 0]).wf = true ∧ (Instr.segrDoorbell 0 1 [List.replicate 15 0]).wf = false := by decide
theorem test_wf_descriptorFetch :
    (Instr.descriptorFetch 0 (.data (List.replicate 16 0))).wf = true ∧ (Instr.descriptorFetch 0 (.data [])).wf = false := by decide
theorem test_wf_transferChunk :
    (Instr.transferChunk 0 (.data [0])).wf = true ∧ (Instr.transferChunk 0 (.data (List.replicate 2049 0))).wf = false := by decide
theorem test_wf_fabric :
    (Instr.helloReceive 0 (frame 1 (List.replicate 256 0))).wf = true
      ∧ ([Instr.helloReceive 0, Instr.joinReceive 0, Instr.assignReceive 0, Instr.lsaReceive 0, Instr.fabricFrameReceive 0,
          Instr.publishReceive 0, Instr.tsyncReqReceive 0, Instr.tsyncResponse 0].all
            (fun c => !(c (frame 1 (List.replicate 257 0))).wf)) = true := by decide
theorem test_wf_heartbeatReceive :
    (Instr.heartbeatReceive { (default : Heartbeat) with role := 3 }).wf = false
      ∧ (Instr.heartbeatReceive { (default : Heartbeat) with sync := 3 }).wf = false
      ∧ (Instr.heartbeatReceive { (default : Heartbeat) with role := 2, sync := 2 }).wf = true := by decide
theorem test_wf_lineReceive :
    (Instr.lineReceive 0x30040 0 (List.replicate 64 0)).wf = true ∧ (Instr.lineReceive 0x30041 0 (List.replicate 64 0)).wf = false
      ∧ (Instr.lineReceive 0x30040 0 (List.replicate 63 0)).wf = false := by decide
theorem test_wf_changeReceive :
    (Instr.changeReceive (.words 0x1FFFFF [0])).wf = true ∧ (Instr.changeReceive (.words 0x1FFFFF [0, 0])).wf = false := by decide
theorem test_wf_resyncDone :
    (Instr.resyncDone ⟨[], [], [], [], default⟩).wf = true ∧ (Instr.resyncDone ⟨[], [], [(1, default), (1, default)], [], default⟩).wf = false
      ∧ (Instr.resyncDone ⟨[], [], [], [(2, default), (1, default)], default⟩).wf = false
      ∧ (Instr.resyncDone ⟨[], [], [], [], { (default : MuleSt) with ux := [(1, 0), (0, 0)] }⟩).wf = false := by decide
theorem test_wf_storeBufferDrain : (Instr.storeBufferDrain 0 8).wf = false ∧ (Instr.storeBufferDrain 0 7).wf = true := by decide

/-! ## Witnesses: instructions -/

theorem witness_IntegerArithmetic :
    (tile id).issues 0 (some false) 1 (ft (tile id) 0 1) ∧ (tile id).issues 0 (some false) 2 (ft (tile id) 0 2)
      ∧ (ft (tile id) 0 1).regsFree 0 = true ∧ (ft (tile id) 0 2).regsFree 0 = true ∧ AluOp.add ≠ .not ∧ AluOp.add ≠ .neg := by
  refine ⟨issues_of (by decide), issues_of (by decide), ?_⟩; decide

/-- ADD 0x7FFF + 1: N and V (R98). -/
theorem test_add_overflow :
    (after (.add 0 1 2) (State.reset.on (tile (fun r => (r.withD 1 0x7FFF).withD 2 1)))).map
      (fun u => ((u.core 0).s0.d 1, (u.core 0).s0.sr &&& 0xF, (u.core 0).s0.pc)) = some (0x8000, 0xA, 1) := by decide
/-- SUB 0 − 1: N and C (borrow) (R98). -/
theorem test_sub_borrow :
    (after (.sub 0 1 2) (State.reset.on (tile (fun r => r.withD 2 1)))).map
      (fun u => ((u.core 0).s0.d 1, (u.core 0).s0.sr &&& 0xF)) = some (0xFFFF, 0x9) := by decide

theorem witness_AccumulatorResults :
    (tile id).issues 0 (some false) 1 (ft (tile id) 0 1) ∧ (ft (tile id) 0 1).regsFree 0 = true := ⟨issues_of (by decide), by decide⟩

/-- MAC limits at the top of 40 bits and sets OVS, bit 11 (R100). -/
theorem test_mac_limit :
    (after (.mac 0 0 1 2) (State.reset.on (tile (fun r =>
      { ((r.withD 1 0x7FFF).withD 2 0x7FFF) with acc := r.acc.set 0 0x7FFFFFFFFF })))).map
      (fun u => ((u.core 0).s0.acc[0], (u.core 0).s0.sr)) = some (0x7FFFFFFFFF, 0x0800) := by decide

theorem witness_RegisterMovesAndAddresses :
    (tile id).issues 0 (some false) 1 (ft (tile id) 0 1) ∧ (ft (tile id) 0 1).regsFree 0 = true ∧ (0 : Fin 16).val % 2 = 0
      ∧ (15 : Fin 16).val % 2 = 1 := by
  refine ⟨issues_of (by decide), ?_⟩; decide

/-- The bit-stack depth that SR holds. -/
def bspOf (d : Dev) : Nat := (((d.core 0).act.sr).extractLsb' 5 5).toNat

theorem witness_ConditionBitInstructions :
    let f := tile (fun r => { r with sr := withBsp r.sr 16 })
    let d1 := ft (tile id) 0 1
    let d2 := ft (tile id) 0 2
    (tile id).issues 0 (some false) (bitLen (.short 0 0)) d1 ∧ (tile id).issues 0 (some false) (bitLen (.long .own 0xFFFFF)) d2
      ∧ f.issues 0 (some false) 1 (ft f 0 1) ∧ d1.readsPlain 0 (bitAt (d1.core 0).act (.short 0 0)).1 1 = true
      ∧ d2.readsPlain 0 (bitAt (d2.core 0).act (.long .own 0xFFFFF)).1 1 = true
      ∧ d1.regsFree 0 = true ∧ bspOf d1 = 0 ∧ bspOf (ft f 0 1) = 16 ∧ (ft f 0 1).regsFree 0 = true := by
  refine ⟨issues_of (by decide), issues_of (by decide), issues_of (by decide), ?_⟩; decide

/-- Tile 0 runs a strand in T4 mode. -/
def t4Tile : Dev := (tile id).put (R.TILE_STATE_T4_ACT 0) 1

theorem witness_BitWrites :
    let d := ft (tile id) 0 1
    let f := ft t4Tile 0 1
    (tile id).issues 0 (some false) (bitLen (.short 0 0)) d ∧ t4Tile.issues 0 (some false) (bitLen (.short 0 0)) f
      ∧ d.canStore 0 (bitAt (d.core 0).act (.short 0 0)).1 1 1 = true ∧ f.t4On 0 = true
      ∧ f.canStore 0 (bitAt (f.core 0).act (.short 0 0)).1 1 1 = true ∧ d.readsPlain 0 (bitAt (d.core 0).act (.short 0 0)).1 1 = true
      ∧ (bitAt (d.core 0).act (.short 0 0)).2 % 2 = 0 ∧ (bitAt (d.core 0).act (.short 0 1)).2 % 2 = 1
      ∧ d.accessRule 0 true (bitAt (d.core 0).act (.short 0 1)).1 1 = none ∧ (d.core 0).act.sr.getLsbD 4 = false
      ∧ (tile (fun r => { r with sr := withCb r.sr true })).core 0 ≠ (tile id).core 0 := by
  refine ⟨issues_of (by decide), issues_of (by decide), ?_⟩; decide

theorem witness_BitWrites_shared :
    let d := ft (tile id) 0 2
    let w := (bitAt (d.core 0).act (.long .mark 0)).1
    (tile id).issues 0 (some false) (bitLen (.long .mark 0)) d ∧ d.t4On 0 = false ∧ d.accessRule 0 true w 1 = none ∧ 0x20000 ≤ w
      ∧ (d.core 0).sbuf.length < 8 := by
  refine ⟨issues_of (by decide), ?_⟩; decide

/-- Tile 0 with an outstanding load and a buffered store. -/
def busyTile : Dev :=
  (tile id).updCore 0 (fun k => { k with
    loads := [{ seq := 1, set1 := false, dst := .word 0, words := [0x30000] }]
    sbuf := [{ seq := 0, set1 := false, words := [(0x30004, 0xFFFF, 5)] }] })

theorem witness_WaitsFencesAndTheirEnds :
    let d := ft (tile id) 0 1
    let f := ft busyTile 0 1
    (tile id).issues 0 none 1 d ∧ busyTile.issues 0 none 1 f ∧ d.t4On 0 = false ∧ (d.core 0).wake = false ∧ (d.core 0).loads = []
      ∧ (d.core 0).sbuf.isEmpty = true ∧ d.noneHeld 0 = true ∧ d.readsPlain 0 ((d.core 0).act.getA 0) 4 = true
      ∧ d.seen4 0 ((d.core 0).act.getA 0) ≤ d.time.toNat ∧ f.t4On 0 = false ∧ (f.core 0).loads ≠ [] ∧ (f.core 0).sbuf.isEmpty = false := by
  refine ⟨issues_of (by decide), issues_of (by decide), ?_⟩; decide

/-- Tile 0 waits in `w` with its wake latch set. -/
def waitTile (w : Wait) : Dev := (tile id).updCore 0 (fun k => { k with wait := w, wake := true })

theorem witness_WaitsFencesAndTheirEnds_end :
    (waitTile .wfe).sys.held = false ∧ (waitTile .wfe).t4On 0 = false ∧ ((waitTile .wfe).core 0).wait = .wfe ∧ ((waitTile .wfe).core 0).wake = true
      ∧ ((waitTile (.wunt 0)).core 0).wait = .wunt 0 ∧ (0 : BitVec 64).toNat ≤ (waitTile (.wunt 0)).time.toNat
      ∧ ((waitTile (.wunt 1)).core 0).wait = .wunt 1 ∧ (waitTile (.wunt 1)).time.toNat < (1 : BitVec 64).toNat
      ∧ ((waitTile (.fence true true)).core 0).wait = .fence true true ∧ ((waitTile (.fence true true)).core 0).loads = []
      ∧ ((waitTile (.sevf 7)).core 0).wait = .sevf 7 ∧ ((waitTile (.sevf 7)).core 0).sbuf = []
      ∧ (waitTile (.sevf 7)).noneHeld 0 = true ∧ (waitTile .wfe).alive 0 = true
      ∧ (let d := waitTile .wfe; { d with sys := { d.sys with fatal := true } } : Dev).alive 0 = false := by decide

theorem witness_JumpsCallsAndReturns :
    let s := tile (fun r => (r.withA 7 0x1000).withA 3 0x200000)
    let d := ft s 0 1
    let m := s.setOwn 0 0x1001 0x8000
    s.issues 0 none 1 d ∧ s.issues 0 (some false) 1 d ∧ s.issues 0 (some false) 2 (ft s 0 2) ∧ m.issues 0 none 1 (ft m 0 1)
      ∧ (d.core 0).act.getA 0 < 0x200000 ∧ 0x200000 ≤ (d.core 0).act.getA 3 ∧ 4 ≤ (d.core 0).act.getA 7
      ∧ d.canPush 0 ((d.core 0).act.getA 7 - 2) 2 = true ∧ d.canPush 0 ((d.core 0).act.getA 7 - 4) 4 = true
      ∧ condHolds (d.core 0).act.sr .ra = true ∧ condHolds (d.core 0).act.sr .eq = false
      ∧ d.strandEndHere 0 = false ∧ d.ownPlain 0 0x1000 2 = true ∧ (d.seen 0 0x1001).getLsbD 15 = false
      ∧ (ft m 0 1).ownPlain 0 0x1000 4 = true ∧ ((ft m 0 1).seen 0 0x1001).getLsbD 15 = true := by
  refine ⟨issues_of (by decide), issues_of (by decide), issues_of (by decide), issues_of (by decide), ?_⟩; decide

theorem witness_JumpsCallsAndReturns_end :
    let s := (tile (fun r => r.withA 7 0xFFE)).put (R.TILE_STK_SP 0) 0x1000
    let d := ft s 0 1
    s.issues 0 none 1 d ∧ (0 : CoreId) = tileCore 0 ∧ (d.core 0).inSet1 = false
      ∧ (d.core 0).act.getA 7 = (d.get (R.TILE_STK_SP 0) + 0xFFFFFE) % 0x1000000 := by
  refine ⟨issues_of (by decide), ?_⟩; decide

theorem witness_TrapsAndModeChanges :
    let s := (bell (fun r => { r.withA 7 0x1000 with sr := 0x8000 }))
    let d := ft s 16 1
    let e := (tile id).put R.LC_STAT_STATE 1
    s.issues 16 none 1 d ∧ (tile id).issues 0 none 1 (ft (tile id) 0 1) ∧ d0.issues 16 none 1 (ft d0 16 1) ∧ e.issues 0 none 1 (ft e 0 1)
      ∧ d.t4On 16 = false ∧ d.emuVec 16 = some 0x40 ∧ (d.core 16).act.sr.getLsbD 14 = false
      ∧ 6 ≤ (d.core 16).act.getA 7 ∧ d.canPush 16 ((d.core 16).act.getA 7 - 6) 6 = true
      ∧ (ft (tile id) 0 1).emuVec 0 = none ∧ (d.core 16).act.opstk = []
      ∧ ((ft d0 16 1).core 16).act.sr.getLsbD 15 = true ∧ ((ft d0 16 1).core 16).act.sr.getLsbD 14 = true
      ∧ ¬ (((ft e 0 1).core 0).act.sr.getLsbD 15 = true ∨ (ft e 0 1).get R.LC_STAT_STATE = 0) := by
  refine ⟨issues_of (by decide), issues_of (by decide), issues_of (by decide), issues_of (by decide), ?_⟩; decide

/-- Tile 0 with a frame of kind `n` at A7 = 0x1000. -/
def framed (n : BitVec 16) : Dev := (tile (fun r => r.withA 7 0x1000)).setMws (.loc 0) 0x1000 [n, 0, 0, 0x10, 0, 0, 0, 0]

/-- The same in set 1. -/
def framed1 : Dev := (framed 4).updCore 0 (fun k => { k with inSet1 := true, s1 := k.s0 })

theorem witness_ReturnsFromTrapsAndEvents :
    let d (n : BitVec 16) := ft (framed n) 0 1
    let e := ft framed1 0 1
    (framed 1).issues 0 none 1 (d 1) ∧ (framed 2).issues 0 none 1 (d 2) ∧ (framed 3).issues 0 none 1 (d 3) ∧ (framed 5).issues 0 none 1 (d 5)
      ∧ framed1.issues 0 none 1 e
      ∧ ([(1, 8), (2, 6), (3, 6)].all (fun (p : BitVec 16 × Nat) => (d p.1).seen 0 0x1000 == p.1 && (d p.1).ownPlain 0 0x1000 p.2)) = true
      ∧ (d 5).ownPlain 0 0x1000 1 = true ∧ 4 < ((d 5).seen 0 0x1000).toNat
      ∧ e.ownPlain 0 0x1000 8 = true ∧ e.seen 0 ((e.core 0).act.getA 7) = 4 ∧ (e.core 0).inSet1 = true
      ∧ e.sys.fatal = false ∧ e.prog.swapWait = false ∧ (e.core 0).strandSince = false ∧ (e.core 0).run0 = .active := by
  refine ⟨issues_of (by decide), issues_of (by decide), issues_of (by decide), issues_of (by decide), issues_of (by decide), ?_⟩; decide

/-- One event waits on tile 0. -/
def eventTile : Dev := ((tile id).put (R.TILE_EVT_STK_SP 0) 0x1000).updCore 0 (fun k => { k with pend := [⟨5, 0, 0x100, none⟩] })

theorem witness_EventEntry :
    eventTile.sys.held = false ∧ eventTile.entryOpen 0 = true ∧ (eventTile.core 0).pend = ⟨5, 0, 0x100, none⟩ :: []
      ∧ (eventTile.core 0).s0.sr.getLsbD 14 = false ∧ 8 ≤ eventTile.get (R.TILE_EVT_STK_SP 0)
      ∧ eventTile.canPush 0 (eventTile.get (R.TILE_EVT_STK_SP 0) - 8) 8 = true ∧ (d0.core 0).pend = [] := by decide

/-- The handler of an event begins with SR 0 in set 1, with the frame of 8 words below EVT_STK.SP in the store buffer (R121, R91). -/
theorem test_event_entry :
    (after (.eventEntry 0) (State.reset.on eventTile)).map
      (fun u => ((u.core 0).inSet1, (u.core 0).s1.pc, (u.core 0).s1.sr, (u.core 0).s1.an 7, (u.core 0).sbuf.length)) =
      some (true, 0x100, 0, 0xFF8, 4) := by
  decide

theorem witness_LoadsReadMemory :
    let s := tile (fun r => r.withA 1 0x30000)
    let d := ft s 0 1
    let b := (tile id).updCore 0 (fun k => { k with seq := 1, sbuf := [{ seq := 0, set1 := false, words := [(0, 0xFFFF, 5)] }] })
    s.issues 0 (some false) 1 d ∧ s.issues 0 (some false) 2 (ft s 0 2) ∧ b.issues 0 (some false) 1 (ft b 0 1)
      ∧ d.regsFree 0 = true ∧ (ft s 0 2).regsFree 0 = true ∧ memOpdOk (.pair 14) = true ∧ memOpdOk (.pair 15) = false
      ∧ effAddr .postInc ((d.core 0).act.getA 0) 1 ((d.core 0).act.mN 0).toNat = some (0, 1) ∧ d.ownPlain 0 0 1 = true
      ∧ effAddr .ind ((d.core 0).act.getA 1) 2 ((d.core 0).act.mN 1).toNat = some (0x30000, 0x30000) ∧ d.t4On 0 = false
      ∧ d.accessRule 0 false 0x30000 2 = none ∧ d.accessRule 0 false 0x30001 2 = none ∧ dispOpdOk (.word 3) = true
      ∧ 0x30001 = (((d.core 0).act.an 1) + (1 : BitVec 16).signExtend 24).toNat
      ∧ ((ft b 0 1).core 0).sbuf = [{ seq := 0, set1 := false, words := [(0, 0xFFFF, 5)] }] ∧ 0 < ((ft b 0 1).core 0).seq := by
  refine ⟨issues_of (by decide), issues_of (by decide), issues_of (by decide), ?_⟩; decide

theorem witness_LoadsReadMemory_return :
    let d := (tile id).updCore 0 (fun k => { k with loads := [{ seq := 1, set1 := false, dst := .word 0, words := [0x30000] }] })
    d.sys.held = false ∧ (d.core 0).loads[0]? = some { seq := 1, set1 := false, dst := .word 0, words := [0x30000] } ∧ d.canReturn 0 0 = true
      ∧ (d.core 0).sbuf = [] ∧ d.noneHeld 0 = true ∧ d.clean 0 0x30000 = true ∧ d.locate 0 0x30000 = .mem .mark 0 := by decide

theorem witness_StoresWriteMemory :
    let d := (tile id).updCore 0 (fun k => { k with sbuf := [{ seq := 0, set1 := false, words := [(0x30004, 0x00FF, 5)] }] })
    let g := (tile id).updCore 0 (fun k => { k with sbuf := [{ seq := 0, set1 := false, words := [(0xE0120, 0xFFFF, 5), (0xE0121, 0xFFFF, 0)] }] })
    let e := ft (tile id) 0 1
    let f := ft t4Tile 0 1
    (tile id).issues 0 (some false) 1 e ∧ t4Tile.issues 0 (some false) 1 f ∧ e.regsFree 0 = true ∧ f.regsFree 0 = true
      ∧ e.canStore 0 0x30000 1 1 = true ∧ e.canStore 0 0x30001 2 2 = true ∧ f.canStore 0 5 2 1 = true ∧ f.t4On 0 = true
      ∧ d.sys.held = false ∧ (d.core 0).sbuf[0]? = some { seq := 0, set1 := false, words := [(0x30004, 0x00FF, 5)] } ∧ d.canDrain 0 0 = true
      ∧ d.locate 0 0x30004 = .mem .mark 4 ∧ d.eccAt .mark 4 = .ok ∧ Arr.mark ≠ .mram ∧ (∀ h, Arr.mark ≠ .qHalf h)
      ∧ g.canDrain 0 0 = true ∧ isRegWord 0xE0120 = true := by
  refine ⟨issues_of (by decide), issues_of (by decide), ?_⟩; decide

/-- A store to the shared marker memory is not in memory until it drains (R91, R97). -/
theorem test_store_then_drain :
    ((after (.store 0 1 .ind (.word 2)) (State.reset.on (tile (fun r => (r.withA 1 0x30000).withD 2 7)))).bind (fun u =>
      (after (.storeBufferDrain 0 0) (State.reset.on u)).map (fun v => (u.mw .mark 0, v.mw .mark 0, (v.core 0).sbuf.length)))) = some (0, 7, 0) := by
  decide

theorem witness_TimebaseAndTimers :
    let d := ft (tile id) 0 1
    let f := ft t4Tile 0 1
    (tile id).issues 0 (some false) 1 d ∧ t4Tile.issues 0 (some false) 1 f ∧ d.regsFree 0 = true ∧ f.regsFree 0 = true
      ∧ (f.core 0).inj = false ∧ (d.core 0).act.getA 0 % 4 = 0 ∧ d.canStore 0 ((d.core 0).act.getA 0) 4 1 true = true
      ∧ f.canStore 0 ((f.core 0).act.getA 0) 4 1 true = true ∧ d.readsPlain 0 ((d.core 0).act.getA 0) 4 = true := by
  refine ⟨issues_of (by decide), issues_of (by decide), ?_⟩; decide

/-- The Bellwether with an operand stack. -/
def stack (q : List (BitVec 16)) : Dev := bell (fun r => { (r.withA 7 0x1000).withA 4 0x2000 with opstk := q })

theorem witness_StackModeOperations :
    let d (q : List (BitVec 16)) := ft (stack q) 16 1
    (stack []).issues 16 (some true) 1 (d []) ∧ (stack [3, 2, 1]).issues 16 (some true) 1 (d [3, 2, 1])
      ∧ (stack (List.replicate 16 1)).issues 16 (some true) 1 (d (List.replicate 16 1))
      ∧ ((d []).core 16).act.opstk = [] ∧ ((d [3, 2, 1]).core 16).act.opstk = 3 :: 2 :: 1 :: []
      ∧ (d []).ownPlain 16 (((d []).core 16).act.an 0).toNat 1 = true ∧ (d [3, 2, 1]).canStore 16 (((d [3, 2, 1]).core 16).act.an 0).toNat 1 1 = true
      ∧ 2 ≤ ((d []).core 16).act.getA 7 ∧ (d []).canPush 16 (((d []).core 16).act.getA 7 - 2) 2 = true
      ∧ (List.replicate 15 (1 : BitVec 16)).length = 15
      ∧ ((d (List.replicate 16 1)).core 16).act.opstk = List.replicate 15 1 ++ [1]
      ∧ 1 ≤ ((d (List.replicate 16 1)).core 16).act.getA 4 ∧ (d (List.replicate 16 1)).canStore 16 (0x2000 - 1) 1 1 = true
      ∧ (d []).ownPlain 16 0x2000 1 = true := by
  refine ⟨issues_of (by decide), issues_of (by decide), issues_of (by decide), ?_⟩; decide

/-- SUB takes the top from the entry below it; a push onto 16 entries spills the bottom one (R86, R114). -/
theorem test_stack_sub :
    (after (.stkSub 16) (State.reset.on (stack [2, 5]))).map (fun u => (u.core 16).s0.opstk) = some [3] := by decide
theorem test_stack_spill :
    (after (.lit 16 7) (State.reset.on (stack (List.replicate 15 1 ++ [9])))).map
      (fun u => ((u.core 16).sbuf.map (·.words), (u.core 16).s0.an 4, (u.core 16).s0.opstk.length)) = some ([[(0x1FFF, 0xFFFF, 9)]], 0x1FFF, 16) := by decide

/-! ## Witnesses: the machine as a whole -/

theorem witness_StepRunsTheFrontCommand : ({ State.reset with pending := [.nop 0] } : State).pending = .nop 0 :: [] := by decide
theorem fuseField_le_refl (f : FuseField) : f.le f := ⟨id, id, BitVec.and_self, BitVec.and_self, BitVec.and_self⟩
theorem bank_le_refl (b : Bank) : b.le b := ⟨fuseField_le_refl _, fuseField_le_refl _, fun _ _ => fuseField_le_refl _⟩
theorem witness_NoStepUnburnsAFuse : State.reset.fuses.le State.reset.fuses ∧ ∃ t, step State.reset = .next t :=
  ⟨⟨BitVec.and_self, bank_le_refl _, bank_le_refl _, fuseField_le_refl _, fuseField_le_refl _, rfl, rfl⟩, _, rfl⟩
theorem test_idle_step : (match step State.reset with | .next t => t.pending | _ => [.nop 0]) = [] := by decide

/-- A step runs the command at the front of the queue and keeps the rest. -/
theorem test_step_front :
    (match step { State.reset with pending := [.setupLockSet .host, .nop 0] } with
      | .next t => (t.pending, t.dev.flag R.SETUP_LOCK_LOCK)
      | _ => ([], false)) = ([.nop 0], true) := by decide
/-- Words of every group, written out from the tables of 03_isa_encoding.md; 0x7035, 0x1125, 0x15FD, 0x3E20, 0x4516, 0x9048, 0x8C00 and
0xC389 are the spec's own. -/
theorem test_decode_words :
    isaDecode 0 false 0x7035 0 = .add 0 3 5 ∧ isaDecode 0 false 0x607F 0 = .movq 0 1 0x3F
      ∧ isaDecode 0 false 0xF020 0x1234 = .ldi 0 2 0x1234 ∧ isaDecode 0 false 0xF128 0 = .reservedEncoding 0
      ∧ isaDecode 0 false 0x8123 0 = .mac 0 1 2 3 ∧ isaDecode 0 false 0x8C00 0 = .accClr 0 0
      ∧ isaDecode 0 false 0x4516 0 = .move 0 (.a 1) (.a 6) ∧ isaDecode 0 false 0x9048 0 = .addaImm 0 1 8
      ∧ isaDecode 0 false 0x9842 0 = .mset 0 1 2 ∧ isaDecode 0 false 0x1125 0 = .ldb 0 (.short 1 37)
      ∧ isaDecode 0 false 0x15FD 0 = .andb 0 (.short 1 0xFD) ∧ isaDecode 0 false 0x3810 0x1234 = .ldb 0 (.long .mark 0x1234)
      ∧ isaDecode 0 false 0x2200 0 = .stb 0 (.short 2 0) ∧ isaDecode 0 false 0x3E20 0x0126 = .edgr 0 (.long .inst 0x0126)
      ∧ isaDecode 0 false 0x3000 0 = .cpush 0 ∧ isaDecode 0 false 0x37A3 0 = .movb 0 true 2 3 ∧ isaDecode 0 false 0 0 = .nop 0
      ∧ isaDecode 0 false 0x0503 0 = .fenceAll 0 ∧ isaDecode 0 false 0xA1F0 0 = .branch 0 .eq (.short 0xF0)
      ∧ isaDecode 0 false 0xBE05 0x4321 = .call 0 (.long 0x54321) ∧ isaDecode 0 false 0x0812 0 = .trap 0 0x12
      ∧ isaDecode 0 false 0xD142 0 = .reservedEncoding 0 ∧ isaDecode 0 true 0xD142 0 = .reservedEncoding 0
      ∧ isaDecode 0 false 0x0901 0 = .mode 0 true ∧ isaDecode 0 true 0x0900 0 = .mode 0 false
      ∧ isaDecode 0 false 0x5134 0 = .load 0 1 .postInc (.word 3) ∧ isaDecode 0 false 0x5934 0 = .store 0 1 .postInc (.word 3)
      ∧ isaDecode 0 false 0xC389 0 = .tcmp 0 2 1 1 ∧ isaDecode 0 true 0x1005 0 = .lit 0 5
      ∧ isaDecode 0 true 0x3001 0 = .stkSub 0 ∧ isaDecode 0 true 0x5021 0 = .st 0 2 := by decide
/-- The command at the PC of a core is the one its words stand for. -/
theorem test_next_instr : ((tile id).setMw (.prog false) 0 0x7035).nextInstr 0 = .add 0 3 5 := by decide
/-- No row of the table has bits: no word spells a command. -/
theorem test_decode_none : decodeTableWord 16 0 = none ∧ (State.reset.withFetchWord 16 0).pending = [] := by decide

/-! ## Witnesses: tiles, errors, scan, change -/

theorem ok_of_ecc {d : Dev} (h : d.ecc = []) (a : Arr) (o : Nat) : d.eccAt a o = .ok := by
  simp only [Dev.eccAt, h]; rfl

theorem clean_of_ecc {d : Dev} (h : d.ecc = []) : d.imagesClean := fun a o _ => ok_of_ecc h a o

/-- Tile 0 in T4 mode with its contract unbroken. -/
def contracted : Dev := with0 [(R.TILE_STATE_T4_ACT 0, 1), (R.LC_STAT_DBG_EN, 1)]

theorem witness_T4ModeAndDebug :
    (∀ p, (d0.updCore 0 (fun k => { k with t4Preload := true })).eccAt d0.progArr p = .ok)
      ∧ d0.writes .host (R.TILE_CTRL 1) = true
      ∧ (let d := with0 [(R.TILE_CTRL_T4_MODE 0, 1)]
         d.writes .host (R.TILE_CTRL 1) = true ∧ ∃ u : Fin 16, u ≠ 1 ∧ u.val / 4 = (1 : Fin 16).val / 4 ∧ d.flag (R.TILE_CTRL_T4_MODE u.val) = true)
      ∧ (let d := d0.updCore 0 (fun k => { k with t4Preload := true })
         d.sys.held = false ∧ (d.core (tileCore 0)).t4Preload = true)
      ∧ (let d := { (tile (fun r => r)).updCore 0 (fun k => { k with pend := [⟨5, 0, 0, none⟩] }) with time := 100000 }
         (d.core (tileCore 0)).pend = ⟨5, 0, 0, none⟩ :: [] ∧ (d.core (tileCore 0)).run0 = .active ∧ (d.core (tileCore 0)).inSet1 = false
           ∧ max (0 : BitVec 64).toNat (d.core (tileCore 0)).t4Fence.toNat + 100000 ≤ d.time.toNat)
      ∧ (let d := (with0 [(R.LC_STAT_DBG_EN, 1)]).updCore 0 (fun k => { k with halted := true })
         d.sys.held = false ∧ d.flag R.LC_STAT_DBG_EN = true ∧ (d.core (tileCore 0)).halted = true ∧ d.contract 0 = false)
      ∧ contracted.contract 0 = true ∧ d0.flag R.LC_STAT_DBG_EN = false := by
  refine ⟨fun p => ok_of_ecc rfl _ p, ?_⟩; decide

theorem witness_ScrubberAndFatalChecks :
    d0.sys.held = false ∧ Arr.mark ≠ .mram ∧ 0x3FFF * 4 < arrSize .mark ∧ (¬ ∃ t, Arr.mark = .icache t) ∧ (∃ t, Arr.icache 3 = .icache t)
      ∧ 0 * 4 < arrSize (.icache 3) ∧ d0.sys.fatal = false ∧ d0.mcHeld = false
      ∧ (with0 [(R.MC_STATUS_RECOV, 1)]).mcHeld = true
      ∧ (d0.icLine 0 0).words = []
      ∧ (let d := ft (tile id) 0 1
         d.sys.held = false ∧ (d.icLine 0 0).words ≠ [] ∧ (d.icLine 0 0).line % 128 = 0 / 8
           ∧ ∀ i < 32, d.eccAt d.progArr (32 * (d.icLine 0 0).line + i) = .ok) := by decide

/-- The loss of the clock is a fatal machine check of kind 5 with event 1 raised (R29, Table 1.6). -/
theorem test_clock_loss :
    (after .clockLoss State.reset).map (fun u => (u.sys.fatal, u.get R.MC_STATUS_KIND, u.flag ((R.EV_RAISED 0).bit 1), u.sys.due))
      = some (true, 5, true, [.machineCheck]) := by decide

theorem witness_ErrorLogsAndRegisterWrites :
    d0.reaches .host R.MC_STATUS.addr = true ∧ d0.reaches .host R.MC_CTRL.addr = true ∧ d0.reaches (.core 16) R.MC_CTRL.addr = true
      ∧ d0.reaches (.core 0) R.MC_CTRL.addr = true ∧ (0 : CoreId).val < 16
      ∧ d0.reaches .host R.SETUP_LOCK.addr = true ∧ d0.reaches .host R.AE_STATUS.addr = true
      ∧ (d0.accessRule 16 true R.SCAN_GAP.addr 2).isNone = true ∧ d0.unlocked R.SCAN_GAP.addr = true
      ∧ (with0 [(R.SETUP_LOCK_LOCK, 1)]).unlocked R.SCAN_GAP.addr = false ∧ d0.flag R.BOOT_STAT_DEAD = false ∧ d0.hostMay 2 true = true
      ∧ (with0 [(R.PS_HREG, 1)]).hostMay 2 true = false ∧ (with0 [(R.BOOT_STAT_DEAD, 1)]).flag R.BOOT_STAT_DEAD = true
      ∧ (2 : BitVec 22).toNat % 4 ≠ 0 ∧ d0.d3hot = false
      ∧ (d0.updHif (fun h => { h with cfg := [(17, 3)] })).d3hot = true := by decide

/-- Under the set-up lock a write is discarded and counted (R48). -/
theorem test_lock_counts :
    (let d := with0 [(R.SETUP_LOCK_LOCK, 1)]
     (val (.registerWrite (.dword 0x1008 5)) d R.SCAN_GAP_GAP, val (.registerWrite (.dword 0x1008 5)) d R.AE_STATUS_LOCK_COUNT)) = (some (d0.get R.SCAN_GAP_GAP), some 1) := by
  decide

theorem witness_RaisedEventReachesFlagsAndTiles :
    d0.sys.held = false
      ∧ (let d := with0 [(R.EV_ROUTE_TILES 5, 1), (R.EV_ROUTE_PRE 5, 1)]
         d.get (R.EV_ROUTE_TILES 5) / 2 ^ 0 % 2 = 1 ∧ d.get (R.EV_ROUTE_TILES 5) / 2 ^ 1 % 2 = 0 ∧ d.flag (R.EV_ROUTE_PRE 5) = true
           ∧ (¬ ∃ p ∈ (d.core (tileCore 0)).pend, p.src = 5) ∧ (∃ p ∈ (eventTile.core (tileCore 0)).pend, p.src = 5)) := by decide

theorem witness_ScanCommandsAndStateEnds :
    d0.imagesClean ∧ (∀ k, 5 ≤ k → k < 13 → d0.flag (R.PMAP_IEN k) = false) ∧ d0.writes .host R.SCAN_CTRL = true ∧ d0.scanAlone = true ∧ d0.get R.SCAN_STAT_STATE = 0 ∧ d0.mapOk = true ∧ d0.prog.loaded = false
      ∧ (d0.scan.resetSince = true ∨ d0.scan.mustCold = true)
      ∧ (let d := d0.updScan (fun x => { x with resetSince := false })
         d.writes .host R.SCAN_CTRL = true ∧ d.scanAlone = true ∧ ¬ (d.scan.resetSince = true ∨ d.scan.mustCold = true))
      ∧ (let d := with0 [(R.PMAP 0, 0x8000)]
         d.writes .host R.SCAN_CTRL = true ∧ d.scanAlone = true ∧ d.mapOk = false)
      ∧ ([1, 3, 4, 5, 6, 7].all (fun n => (with0 [(R.SCAN_STAT_STATE, n)]).scanAlone && (with0 [(R.SCAN_STAT_STATE, n)]).writes .host R.SCAN_CTRL)) = true
      ∧ d0.scan.stopPend = false ∧ (d0.updScan (fun x => { x with stopPend := true })).scan.stopPend = true ∧ d0.flag R.SCAN_CTRL_STOP_OUT = false
      ∧ (d0.updScan (fun x => { x with reported := 65535 })).scan.reported % 65536 = 65535 ∧ d0.scan.reported % 65536 ≠ 65535
      ∧ min ((atT 100000 [(R.SCAN_GAP_GAP, 0xFFFFFFFF)]).get R.SCAN_GAP_GAP) 100000 ≤ ((atT 100000 []).time - d0.scan.gapBegan).toNat
      ∧ ((atT 99999 []).time - d0.scan.gapBegan).toNat < min ((with0 [(R.SCAN_GAP_GAP, 0xFFFFFFFF)]).get R.SCAN_GAP_GAP) 100000 := by
  refine ⟨clean_of_ecc rfl, ?_, ?_⟩
  · intro k h1 h2
    exact (by decide : ∀ k < 13, 5 ≤ k → d0.flag (R.PMAP_IEN k) = false) k h2 h1
  · decide

/-- A start in STOP after a reset is a cold start: INIT with COLD set (R149, R151). -/
theorem test_start_warm_after_reset :
    (val (.startWarm .host false) d0 R.SCAN_STAT_STATE, val (.startWarm .host false) d0 R.SCAN_STAT_COLD) = (some 1, some 1) := by decide

theorem witness_SnapshotAndCopyForward :
    let d := with0 [(R.SCAN_STAT_STATE, 2)]
    let e := d.updScan (fun x => { x with overrun := true, heldI := [(2, 40, 7)] })
    d.imagesClean ∧ e.imagesClean ∧ d.scanAlone = true ∧ d.get R.SCAN_STAT_STATE = 2 ∧ d.scan.copyList = [] ∧ d.scan.overrun = false
      ∧ d.scan.heldI = [] ∧ e.scanAlone = true ∧ e.get R.SCAN_STAT_STATE = 2 ∧ e.scan.copyList = [] ∧ e.scan.heldI = [(2, 40, 7)]
      ∧ e.scan.overrun = true ∧ d.sys.held = false := by
  refine ⟨clean_of_ecc rfl, clean_of_ecc rfl, ?_⟩; decide

theorem witness_CommitRollbackAndTheirEnds :
    let e := (with0 [(R.SCAN_STAT_STATE, 5), (R.MC_CTRL_ESC_LIM, 1)]).updScan (fun x => { x with qFlipped := true, mcNow := true })
    (∀ n, (with0 [(R.SCAN_STAT_STATE, n)]).imagesClean) ∧ e.imagesClean
      ∧ ([4, 5, 7].all (fun n => (with0 [(R.SCAN_STAT_STATE, n)]).scanAlone)) = true
      ∧ (∀ t : Fin 16, (with0 [(R.SCAN_STAT_STATE, 4)]).settled0 (tileCore t) = true) ∧ d0.scan.skipNow = false
      ∧ (d0.updScan (fun x => { x with skipNow := true })).scan.skipNow = true ∧ d0.scan.qFlipped = false
      ∧ e.scanAlone = true ∧ e.get R.SCAN_STAT_STATE = 5 ∧ e.scan.qFlipped = true ∧ e.scan.mcNow = true ∧ e.get R.MC_CTRL_ESC_LIM ≠ 0
      ∧ e.get R.MC_CTRL_ESC_LIM ≤ min 15 (e.get R.MC_STATUS_ESC_COUNT + 1) := by
  refine ⟨fun _ => clean_of_ecc rfl, clean_of_ecc rfl, ?_⟩; decide

theorem witness_ScanCeiling :
    let d := atT 10 [(R.SCAN_CEIL_CEIL, 1)]
    d.sys.held = false ∧ d.sys.fatal = false ∧ d.scan.overrun = false ∧ d.get R.SCAN_CEIL_CEIL ≠ 0
      ∧ d.get R.SCAN_CEIL_CEIL * 10 ≤ (d.time - d.scan.began).toNat ∧ (d.put R.SCAN_STAT_STATE 2).get R.SCAN_STAT_STATE = 2
      ∧ (d.put R.SCAN_STAT_STATE 3).get R.SCAN_STAT_STATE = 3
      ∧ ¬ (d0.get R.SCAN_CEIL_CEIL ≠ 0) := by decide

/-- A scan past its ceiling in EXEC overruns: OVR, event 3, the commit skipped, every tile reported (R163). -/
theorem test_scan_overrun :
    (after .scanOverrun (State.reset.on (atT 10 [(R.SCAN_CEIL_CEIL, 1), (R.SCAN_STAT_STATE, 3)]))).map
      (fun u => (u.flag R.SCAN_STAT_OVR, u.scan.skipNow, u.scan.reported, u.flag ((R.EV_RAISED 0).bit 3))) = some (true, true, 65535, true) := by decide

theorem witness_CycleTaskEnableAndForceClears :
    let d := with0 [(R.CTASK_EN 1, 1)]
    d0.arrClean .forceTab ∧ d.writes .host (R.CTASK 0) = true ∧ d0.writes .host (R.CTASK 0) = true
      ∧ (∃ j : Fin 8, j ≠ 0 ∧ d.flag (R.CTASK_EN j.val) = true ∧ d.get (R.CTASK_RING j.val) = 0 ∧ d.get (R.CTASK_POINT j.val) = 0 ∧ d.get (R.CTASK_TILE j.val) = 0)
      ∧ (¬ ∃ j : Fin 8, j ≠ 0 ∧ d0.flag (R.CTASK_EN j.val) = true)
      ∧ d0.reaches .host R.FORCE_CTRL.addr = true ∧ d0.get R.PROG_STAT_STATE ≠ 5 ∧ d0.get R.PAIR_STAT_ROLE ≠ 1 := by
  refine ⟨fun o => ok_of_ecc rfl _ o, ?_⟩; decide

theorem witness_OnlineChange :
    (∀ n, (with0 [(R.PROG_STAT_STATE, n)]).arrClean (.prog (with0 [(R.PROG_STAT_STATE, n)]).inactive)) ∧ ([0, 1, 2, 3, 4, 5, 6].all (fun n => (with0 [(R.PROG_STAT_STATE, n)]).reaches .host R.CHG_CTRL.addr)) = true
      ∧ d0.writes .host R.STAGE_PTR = true ∧ d0.reaches .host R.STAGE_DATA.addr = true
      ∧ d0.mirroring = false ∧ d0.prog.swapWait = false ∧ d0.sys.fatal = false ∧ (∀ t : Fin 16, (d0.core (tileCore t)).inSet1 = false)
      ∧ ¬ (d0.get R.PAIR_STAT_SYNC = 2)
      ∧ (let d := (with0 [(R.PAIR_STAT_SYNC, 2), (R.PAIR_STAT_ROLE, 1), (R.PROG_STAT_STATE, 3)])
         d.get R.PAIR_STAT_SYNC = 2 ∧ d.get R.PAIR_STAT_ROLE = 1 ∧ d.prog.pairRes ≠ some true ∧ d.reaches .host R.CHG_CTRL.addr = true)
      ∧ d0.hif.running = []
      ∧ (let d := (with0 [(R.PROG_STAT_STATE, 3), (R.SCAN_STAT_STATE, 3)]).setMw (.prog d0.inactive) 8 1
         d.pkgFull d.inactive = true ∧ d.get R.SCAN_STAT_STATE ≠ 0 ∧ d.reaches .host R.CHG_CTRL.addr = true)
      ∧ d0.sys.held = false ∧ d0.get R.PAIR_STAT_ROLE = 0 ∧ d0.packageErr d0.inactive = 1 ∧ d0.prog.held = []
      ∧ (with0 [(R.PROG_STAT_STATE, 5)]).get R.PROG_STAT_STATE = 5 := by
  refine ⟨fun _ o => ok_of_ecc rfl _ o, ?_⟩; decide

/-! ## Witnesses: motion -/

/-- Axis 0 on ring 0, which is in RUN. -/
def sampledAxis : Dev := with0 [(R.AXIS_MAP_EN 0, 1), (R.RING_STAT_STATE 0, 5)]

theorem witness_AxisAndMuleCommands :
    sampledAxis.reaches .host (R.AXIS_CMD 0).addr = true ∧ sampledAxis.sampled 0 = true ∧ sampledAxis.flag (R.AXIS_STAT_PEND 0) = false
      ∧ d0.reaches (.core 16) (R.AXIS_CMD 127).addr = true ∧ d0.resting 127 = true ∧ d0.uncoupled 127 = true ∧ (d0.axis 127).cmd = 0
      ∧ d0.flag (R.AXIS_STAT_PEND 127) = false ∧ d0.flag R.MULE_STAT_LPEND = false ∧ d0.mule.evs = [] ∧ d0.get (R.AXIS_STAT_STATE 127) = 0
      ∧ d0.reaches .host R.MULE_CMD.addr = true ∧ (∀ m : Fin 128, d0.flag (R.AXIS_STAT_PEND m.val) = false)
      ∧ (with0 [(R.MULE_STAT_LPEND, 1)]).flag R.MULE_STAT_LPEND = true := by decide

/-- A list of axis 0 alone, which has a sample clock. -/
def listed : Dev := sampledAxis.put (R.SWAP_SEL 0) 1

theorem witness_AxisAndMuleCommands_list :
    (listed.rd (R.SWAP_SEL 0).addr).getLsbD 0 = true ∧ listed.flag R.MULE_STAT_LPEND = false ∧ listed.mule.evs = []
      ∧ listed.flag (R.AXIS_STAT_PEND 0) = false ∧ listed.sampled 0 = true
      ∧ (∀ m : Fin 128, m.val ≠ 0 → (listed.rd (R.SWAP_SEL (m.val / 32)).addr).getLsbD (m.val % 32) = false) := by decide

/-- ENABLE of an axis with no map is refused with MAPDENY (R211). -/
theorem test_enable_unmapped :
    (val (.axisEnable .host 127) d0 (R.AXIS_STAT_MAPDENY 127), val (.axisEnable .host 127) d0 (R.AXIS_STAT_STATE 127)) = (some 1, some 0) := by decide

theorem witness_AxisAndGantryWrites :
    d0.reaches .host (R.AXIS_CTRL 0).addr = true ∧ d0.reaches .host (R.COEF 0 0 0).addr = true ∧ d0.get (R.AXIS_STAT_BANK 0) = b2n false
      ∧ ¬ (d0.get (R.AXIS_STAT_BANK 0) = b2n true ∨ d0.flag (R.AXIS_STAT_PEND 0) = true) ∧ (with0 [(R.AXIS_STAT_STATE 0, 2)]).get (R.AXIS_STAT_STATE 0) ≠ 0
      ∧ d0.flag (R.AXIS_CTRL_SPSRC 0) = false ∧ sampledAxis.sampled 0 = true ∧ sampledAxis.get (R.AXIS_STAT_STATE 0) = 0
      ∧ (sampledAxis.put (R.AXIS_CTRL_SPSRC 0) 1).flag (R.AXIS_CTRL_SPSRC 0) = true
      ∧ (d0.rd (R.AXIS_CTRL 0).addr ^^^ 0xC) &&& 0xC ≠ 0 ∧ ¬ ((d0.rd (R.AXIS_CTRL 0).addr ^^^ 0) &&& 0xC ≠ 0) ∧ d0.mule.evs = []
      ∧ d0.reaches .host (R.GANTRY_CTRL 0).addr = true
      ∧ (let d := with0 [(R.GANTRY_CTRL_EN 0, 1), (R.AXIS_STAT_STATE 0, 2)]
         d.flag (R.GANTRY_CTRL_EN 0) = true ∧ d.get (R.AXIS_STAT_STATE (d.get (R.GANTRY_CTRL_L 0))) ≠ 0)
      ∧ d0.flag (R.GANTRY_CTRL_EN 0) = false ∧ (0x80000100 : BitVec 32).getLsbD 31 = true ∧ (0x80000000 : BitVec 32).extractLsb' 0 7 = (0x80000000 : BitVec 32).extractLsb' 8 7 := by
  decide

theorem witness_GroupCommandsAndQueues :
    d0.reaches .host (R.GROUP_CFG 0).addr = true ∧ d0.flag (R.GROUP_CFG_EN 0) = false ∧ (with0 [(R.GROUP_CFG_EN 0, 1)]).flag (R.GROUP_CFG_EN 0) = true
      ∧ (let d := sampledAxis.put (R.GROUP_MEMBER_AXIS_EN 0 0) 1
         (∃ j : Fin 8, d.flag (R.GROUP_MEMBER_AXIS_EN 0 j.val) = true)
           ∧ (∀ j : Fin 8, d.flag (R.GROUP_MEMBER_AXIS_EN 0 j.val) = true → j = 0 ∧ d.sampled (d.get (R.GROUP_MEMBER_AXIS_AXIS 0 j.val)) = true)
           ∧ d.get (R.RING_STAT_STATE (d.get (R.AXIS_MAP_RING (d.get (R.GROUP_MEMBER_AXIS_AXIS 0 0))))) = 5 ∧ d.mule.evs = []
           ∧ (15625, 107) ∉ d.mule.seen
           ∧ (15625, 107) ∈ { d with mule := { d.mule with seen := [(15625, 107)] } }.mule.seen)
      ∧ (¬ ∃ j : Fin 8, d0.flag (R.GROUP_MEMBER_AXIS_EN 0 j.val) = true)
      ∧ d0.reaches .host (R.GROUP_QPTR 0).addr = true ∧ d0.reaches .host (R.SEGQ 0 0).addr = true ∧ d0.mule.evs = []
      ∧ d0.get (R.GROUP_CFG_SRC 0) ≠ 1 ∧ (with0 [(R.GROUP_CFG_SRC 0, 1)]).get (R.GROUP_CFG_SRC 0) = 1
      ∧ (64 + 128 - d0.get (R.GROUP_QPTR_RD 0)) % 128 ≤ 64 ∧ ¬ ((65 + 128 - d0.get (R.GROUP_QPTR_RD 0)) % 128 ≤ 64)
      ∧ (let d := with0 [(R.GROUP_QPTR_WR 0, 64)]
         (1023 / 16 + 128 - d.get (R.GROUP_QPTR_RD 0)) % 64 < (d.get (R.GROUP_QPTR_WR 0) + 128 - d.get (R.GROUP_QPTR_RD 0)) % 128) := by decide

/-- WR moves to 64 entries ahead of RD at most (R233). -/
theorem test_qptr :
    (val (.qptrWrite .host 0 64) d0 (R.GROUP_QPTR_COUNT 0), val (.qptrWrite .host 0 65) d0 (R.GROUP_STAT_QERR 0)) = (some 64, some 1) := by decide

/-! ## Witnesses: rings and CAN -/

/-- The states of ring 0 in which `p` holds, of 0 to 7. -/
def ringSt (n : Nat) : Dev := with0 [(R.RING_STAT_STATE 0, n), (R.RING_CFG_NNODE 0, 1), (R.RING_CFG_CTC 0, 1)]

theorem witness_RingRegisterCommands :
    ((List.range 8).all (fun n => (ringSt n).writes .host (R.RING_CFG 0) && (ringSt n).writes .host (R.RING_SCHED_LO 0 0) && (ringSt n).get (R.RING_STAT_STATE 0) == n)) = true
      ∧ d0.ecc = [] ∧ (ringSt 0).get (R.RING_CFG_CTC 0) ≤ 5 ∧ 1 ≤ (ringSt 0).get (R.RING_CFG_NNODE 0) ∧ (ringSt 0).get (R.RING_CFG_NNODE 0) ≤ 32
      ∧ (ringSt 0).get (R.RING_CFG_NPL 0) ≤ 5 ∧ (∀ q : Fin 8, (ringSt 0).flag (R.RING_CPT_EN 0 q.val) = false)
      ∧ ¬ (d0.get (R.RING_CFG_CTC 0) ≤ 5 ∧ 1 ≤ d0.get (R.RING_CFG_NNODE 0)) ∧ d0.mule.evs = []
      ∧ ((0x8007FFFF : BitVec 32).getLsbD 31 = true ∧ (0x8007FFFF : BitVec 32).getLsbD 30 = false ∧ 15625 * 2 ^ (ringSt 5).get (R.RING_CFG_CTC 0) ≤ ((0x8007FFFF : BitVec 32).extractLsb' 0 19).toNat)
      ∧ ¬ ((ringSt 5).flag (R.RING_SVC_STAT_BUSY 0) = true ∨ ¬ ((ringSt 5).get (R.RING_STAT_STATE 0) = 4 ∨ (ringSt 5).get (R.RING_STAT_STATE 0) = 5)
        ∨ (ringSt 5).get (R.RING_CFG_NNODE 0) ≤ 0 ∨ ¬ ((1 : Fin 4).val = 1 ∨ (1 : Fin 4).val = 2)) := by decide

/-- A ring with no node in CFG cannot start: ERR 0x0B (R261). -/
theorem test_ring_start :
    (val (.ringStart .host 0) (with0 [(R.RING_CFG_NNODE 0, 0)]) (R.RING_STAT_ERR 0), val (.ringStart .host 0) (ringSt 0) (R.RING_STAT_STATE 0)) = (some 0x0B, some 1) := by
  decide

/-- Ring 0 in ENUM with two equal loops measured. -/
def enumRing (count : Nat) : Dev :=
  { (ringSt 2).updRing 0 (fun q => { q with enumAt := some 100, eseq := 7, enumN := 7, enumLoops := [900, 908], enumCount := count }) with time := 1000 }

theorem witness_RingStartUp :
    let q := (enumRing 1).ring 0
    (enumRing 1).get R.PAIR_STAT_ROLE ≠ 2 ∧ 7 % 65536 = q.eseq ∧ q.enumN = 7
      ∧ (let e := (enumRing 1).updRing 0 (fun q => { q with enumN := 5, enumLoops := [] })
         (e.ring 0).enumN ≠ 7 + 1 ∧ ¬ ((e.ring 0).enumN % 65536 = 7) ∧ (e.ring 0).enumLoops = [])
      ∧ (enumRing 1).sys.held = false ∧ (enumRing 1).ecc = [] ∧ (enumRing 1).get (R.RING_STAT_STATE 0) = 2 ∧ q.enumAt = some 100 ∧ 7 = q.eseq ∧ q.enumN ≠ 7 + 1
      ∧ (100 : BitVec 64).toNat ≤ (enumRing 1).time.toNat ∧ (enumRing 1).time.toNat - 100 = 900 ∧ 900 ≤ 908 + 8 ∧ 908 ≤ 900 + 8 ∧ q.enumLoops = [900, 908] ∧ q.enumCount = 1
      ∧ 1 = (enumRing 1).get (R.RING_CFG_NNODE 0) ∧ 32 < ((enumRing 33).ring 0).enumCount ∧ 2 ≠ (enumRing 2).get (R.RING_CFG_NNODE 0)
      ∧ (enumRing 1).flag (R.RING_CFG_AUTO 0) = false ∧ ((ringSt 2).ring 0).enumAt = none
      ∧ (let d := (ringSt 1).updRing 0 (fun q => { q with linkIn := true }); (d.ring 0).linkIn = true ∧ d.get (R.RING_STAT_STATE 0) = 1)
      ∧ 10000000 ≤ ({ ringSt 1 with time := 10000000 } : Dev).time.toNat - ((ringSt 1).ring 0).stepAt.toNat
      ∧ 20000000 ≤ ({ ringSt 2 with time := 20000000 } : Dev).time.toNat - ((ringSt 2).ring 0).stepAt.toNat
      ∧ 100000000 ≤ ({ ringSt 4 with time := 100000000 } : Dev).time.toNat - ((ringSt 4).ring 0).stepAt.toNat ∧ ((ringSt 4).ring 0).toRun = false
      ∧ 16 ≤ (((ringSt 4).updRing 0 (fun q => { q with syncGood := 16 })).ring 0).syncGood ∧ ((ringSt 6).ring 0).stopLeft = 0
      ∧ (((ringSt 6).updRing 0 (fun q => { q with linkOut := true })).ring 0).linkOut = true
      ∧ (10000 : Nat) ≤ 10000 ∧ ((ringSt 1).ring 0).linkIn = false ∧ (ringSt 1).get (R.RING_STAT_STATE 0) = 1 := by decide

/-- Ring 0 in RUN at the moment t_n = 31,250. -/
def ringNow : Dev := { (ringSt 5) with time := 31250 }

theorem witness_RingCycleAndPoints :
    let q := ringNow.ring 0
    ringNow.sys.held = false ∧ ringNow.ecc = [] ∧ ringNow.mule.evs = [] ∧ ringNow.get (R.RING_STAT_STATE 0) = 5
      ∧ ringNow.time.toNat % (15625 * 2 ^ ringNow.get (R.RING_CFG_CTC 0)) = 0 ∧ q.t.toNat ≠ 31250 ∧ q.muleT.toNat ≠ 31250 ∧ q.startAt.toNat ≤ 31250 ∧ q.stopAsked = false
      ∧ ringNow.sys.fatal = false ∧ ringNow.sys.ringsOff = false ∧ ringNow.get R.PAIR_STAT_ROLE = 0
      ∧ (let d := (regs [(R.AXIS_STAT_STATE 0, 2)] ringNow).updAxis 0 (fun a => { a with par := { a.par with map := 0x8000 } })
         d.get (R.AXIS_STAT_STATE 0) = 2 ∧ d.axOn 0 0 = true ∧ d.mapFld R.AXIS_MAP_NODE 0 < d.get (R.RING_CFG_NNODE 0)
           ∧ ∀ m : Fin 128, m ≠ 0 → d.axOn 0 m.val = false)
      ∧ (let m : MasterFrame := ⟨1, 31250, 1, 1, true, false, 0, 0, 0, 0, 0, 0, [List.replicate 16 7]⟩
         m.ctc < 256 ∧ m.nslot < 256 ∧ m.svcIndex < 65536 ∧ m.slots.length = m.nslot ∧ (∀ w ∈ m.slots, w.length = 16) ∧ 0 < m.nslot)
      ∧ 31251 % (15625 * 2 ^ ringNow.get (R.RING_CFG_CTC 0)) ≠ 0
      ∧ q.qPicked = false ∧ q.t.toNat + 31250 ≤ ringNow.time.toNat + 1000
      ∧ (let d := ringNow.updRing 0 (fun q => { q with cpt := [0x80000000] })
         (0 : Nat) ∉ (d.ring 0).points ∧ d.pointTime 0 0 = some 0 ∧ 0 ≤ d.time.toNat)
      ∧ ringNow.pointTime 0 0 = none := by decide

/-- t_n of a ring in RUN: CYC is t_n over the cycle time, and one master frame leaves (R248, R266). -/
theorem test_ring_cycle :
    (after (.ringCycleStart 0) (State.reset.on ringNow)).map (fun u => (u.get (R.RING_CYC 0), u.out.length, (u.ring 0).t)) = some (1, 1, 31250) := by decide

/-- Ring 0 in RUN with a slot of node 0 at 500 ns, at time `t` of the cycle that begins at 31,250. -/
def ringSlot (t : Nat) : Dev :=
  { (regs [(R.RING_SCHED_LO_EN 0 0, 1), (R.RING_SCHED_HI_OFS 0 0, 500), (R.RING_CFG_WIN 0, 8)] (ringSt 5)).updRing 0 (fun q => { q with t := 31250 }) with time := BitVec.ofNat 64 t }

/-- The octets of a node frame of node 0 with CYC, NSTAT and a payload of zeros. -/
def nodeOct (cyc nstat : Nat) : List (BitVec 8) :=
  withFcs (List.replicate 12 0 ++ [0x88, 0xB5, 2, 0] ++ bytesLE 2 cyc ++ bytesLE 2 nstat ++ List.replicate 56 0)

/-- The octets of an enumeration or link-delay frame with zeros behind TYPE and VER. -/
def auxOct (type : BitVec 8) : List (BitVec 8) := withFcs (List.replicate 12 0 ++ [0x88, 0xB5, type, 0x10] ++ List.replicate 48 0)

/-- A node frame of node 0 for the cycle in progress, activated where `a` is 1. -/
def slotFrame (d : Dev) (a : Nat) : RxFrame := ⟨nodeOct (d.rCyc 0) a, false⟩

/-- Ring 0 healed at time `t`, with the window of node 0 of the cycle before open past t_n = 62,500. -/
def lateSlot (t : Nat) : Dev :=
  { ((ringSlot t).put (R.RING_STAT_HEALED 0) 1).updRing 0 (fun q =>
      { q with t := 62500, prevT := 31250, prevDelta := 31000, prevOpen := true, late := [(0, false)] }) with time := BitVec.ofNat 64 t }

theorem witness_RingFramesAndWindows :
    (let d := ringSlot (31250 + 500 + 8)
     let f := slotFrame d 1
     let g := slotFrame d 0
     d.sys.held = false ∧ d.ecc = [] ∧ d.mule.evs = [] ∧ d.get R.PAIR_STAT_ROLE ≠ 2 ∧ d.get (R.RING_STAT_STATE 0) = 5
       ∧ d.flag (R.RING_STAT_HEALED 0) = false ∧ (d.ring 0).tko = false ∧ f.fcsOk = true ∧ f.isType 2 = true ∧ f.octets.length = 80
       ∧ f.node.node = 0 ∧ f.cyc = BitVec.ofNat 16 (d.rCyc 0) ∧ f.node.nstat.getLsbD 0 = true ∧ g.node.nstat.getLsbD 0 = false
       ∧ g.cyc = f.cyc ∧ g.fcsOk = true ∧ d.ofsOf 0 0 = some 500
       ∧ (d.time.toNat : Int) - (d.ring 0).t.toNat - 500 - (d.ring 0).inDisp = 8 ∧ max 8 (d.get (R.RING_CFG_WIN 0)) = 8 ∧ (0 : Nat) ∉ (d.ring 0).accepted
       ∧ (0 : Nat) ∈ ((d.updRing 0 (fun q => { q with accepted := [0] })).ring 0).accepted
       ∧ (d.ring 0).req = none ∧ (0 : Nat) ∉ (d.ring 0).closed ∧ (d.ring 0).outOpen = false ∧ (0 : Nat) ∉ (d.ring 0).accOut ∧ (d.ring 0).late = []
       ∧ (d.ring 0).slip = false ∧ ({ f with codeErr := true } : RxFrame).fcsOk = false) := by decide

theorem witness_RingFramesAndWindows_late :
    (let d := lateSlot (62750 + 8)
         let q := d.ring 0
         let f : RxFrame := ⟨nodeOct (31250 / 31250) 1, false⟩
         d.sys.held = false ∧ d.ecc = [] ∧ d.mule.evs = [] ∧ d.get R.PAIR_STAT_ROLE ≠ 2 ∧ d.get (R.RING_STAT_STATE 0) = 5
           ∧ d.flag (R.RING_STAT_HEALED 0) = true ∧ q.t.toNat = q.prevT.toNat + 15625 * 2 ^ d.get (R.RING_CFG_CTC 0)
           ∧ f.cyc = BitVec.ofNat 16 (q.prevT.toNat / (15625 * 2 ^ d.get (R.RING_CFG_CTC 0))) ∧ d.prevOfs 0 0 = some 500 ∧ q.prevOpen = true
           ∧ (q.t.toNat : Int) ≤ q.prevT.toNat + 500 + q.prevDelta + 8 ∧ q.late = [(0, false)]
           ∧ (d.time.toNat : Int) - q.prevT.toNat - 500 - q.prevDelta = 8 ∧ q.req = none ∧ q.lateSlip = false
           ∧ f.fcsOk = true ∧ f.isType 2 = true ∧ f.octets.length = 80 ∧ f.node.node = 0 ∧ f.node.nstat.getLsbD 0 = true) := by decide

theorem witness_RingFramesAndWindows_counts :
    (let d := ringSlot 31251
     (d.time.toNat : Int) - (d.ring 0).t.toNat - 500 - (d.ring 0).inDisp < -(max 8 (d.get (R.RING_CFG_WIN 0)) : Nat))
      ∧ (let d := ringSlot 60000
         ((max 8 (d.get (R.RING_CFG_WIN 0)) : Nat) : Int) < (d.time.toNat : Int) - (d.ring 0).t.toNat - 500 - (d.ring 0).inDisp)
      ∧ (let f : RxFrame := ⟨auxOct 3, false⟩
         f.fcsOk = true ∧ f.isType 1 = false ∧ f.isType 2 = false ∧ f.isType 4 = false)
      ∧ ¬ (3 ≤ (ringSt 2).get (R.RING_STAT_STATE 0) ∧ (ringSt 2).get (R.RING_STAT_STATE 0) ≤ 6) ∧ (ringSt 2).ofsOf 0 0 = none := by decide

/-- A frame at the edge of its window is accepted with AERR 8; one damaged only counts (R275, R278). -/
theorem test_slot_edge :
    (val (.nodeFrameReceive 0 .inp (slotFrame (ringSlot 31758) 1)) (ringSlot 31758) (R.RING_NODE_AERR_LAST 0 0),
      val (.nodeFrameReceive 0 .inp { slotFrame (ringSlot 31758) 1 with codeErr := true }) (ringSlot 31758) (R.RING_FCS_ERR 0)) = (some 8, some 1) := by decide

/-- The standby of a pair with ring 0's ports synchronized, which asked for L at time 0. -/
def passRing : Dev := (with0 [(R.PAIR_STAT_ROLE, 2)]).updRing 0 (fun q =>
  { q with linkOut := true, linkIn := true, pass := { q.pass with reqAt := some 0, link := some 40 } })

theorem witness_RingBreaksAndTimeouts :
    (let d := { (ringSt 5).updRing 0 (fun q => { q with mfMiss := 1 }) with time := 100000 }
     d.sys.held = false ∧ d.ecc = [] ∧ d.mule.evs = [] ∧ 3 ≤ d.get (R.RING_STAT_STATE 0) ∧ d.flag (R.RING_STAT_HEALED 0) = false ∧ (d.ring 0).mfBack = false
       ∧ (d.ring 0).mfGone = false ∧ 1 ≤ (d.ring 0).mfMiss
       ∧ 10 * ((d.ring 0).t.toNat + d.get (R.RING_LOOP 0) + 500) + (68 + 32 * d.get (R.RING_CFG_NNODE 0)) * 32 ≤ 10 * d.time.toNat)
      ∧ (let d := ((ringSt 5).put (R.RING_STAT_HEALED 0) 1).updRing 0 (fun q => { q with clean := 16, dead := 64 })
         d.flag (R.RING_STAT_HEALED 0) = true ∧ 16 ≤ (d.ring 0).clean ∧ 64 ≤ (d.ring 0).dead ∧ d.get (R.RING_STAT_STATE 0) = 5)
      ∧ (let y : SvcReq := ⟨1, 1, 0, 0, 0, 65, true⟩
         let d := (ringSt 5).updRing 0 (fun q => { q with req := some y })
         (d.ring 0).req = some y ∧ 64 < y.cycles ∧ y.own = true)
      ∧ (let d := (with0 [(R.PAIR_STAT_ROLE, 2)]).updRing 0 (fun q => { q with linkIn := true })
         d.sys.held = false ∧ d.ecc = [] ∧ d.mule.evs = [] ∧ d.get R.PAIR_STAT_ROLE = 2 ∧ (d.ring 0).linkIn = true ∧ (d.ring 0).pass.reqAt = none) := by decide

theorem witness_RingBreaksAndTimeouts_standby :
    (let d := passRing
     let q := d.ring 0
     let enum : RxFrame := ⟨auxOct 3, false⟩
     let rsp : RxFrame := ⟨auxOct 5, false⟩
     let other : RxFrame := ⟨nodeOct 1 1, false⟩
     d.sys.held = false ∧ d.ecc = [] ∧ d.mule.evs = [] ∧ d.get R.PAIR_STAT_ROLE = 2 ∧ q.pass.reqAt = some 0
           ∧ d.time.toNat < (0 : BitVec 64).toNat + 1000000000 ∧ q.linkOut = true ∧ q.pass.fwdOut.toNat ≤ d.time.toNat ∧ q.linkIn = true
           ∧ q.pass.fwdIn.toNat ≤ d.time.toNat ∧ ((passRing.updRing 0 (fun q => { q with linkOut := false })).ring 0).linkOut = false
           ∧ enum.isType 3 = true ∧ enum.fcsOk = true ∧ 26 ≤ enum.octets.length
           ∧ rsp.isType 5 = true ∧ rsp.fcsOk = true ∧ rsp.lseq = q.pass.lseq
           ∧ other.isType 1 = false ∧ other.isType 3 = false ∧ other.isType 4 = false ∧ other.isType 5 = false
           ∧ (⟨auxOct 4, false⟩ : RxFrame).isType 4 = true)
      ∧ (let f : RxFrame := ⟨MasterFrame.octets 0 ⟨1, 31250, 1, 1, true, false, 0, 0, 0, 0, 0, 0, [List.replicate 16 7]⟩, false⟩
         f.isType 1 = true ∧ f.fcsOk = true ∧ (passRing.ring 0).pass.used ≠ some (true, f.cyc)) := by decide

/-- CAN channel 0 in state `n`, 500 kbit/s at 100 MHz: (4 + 1) × (199 + 1) = 1,000. -/
def canCh (n : Nat) : Dev :=
  with0 [(R.CAN_STAT_STATE 0, n), (R.CAN_ARBT_TQ 0, 4), (R.CAN_ARBT_NQ 0, 199), (R.CAN_ARBT_SPQ 0, 159), (R.CAN_ARBT_SJW 0, 39)]

theorem witness_CanStatesAndCommands :
    ((List.range 6).all (fun n => (canCh n).reaches .host (R.CAN_CMD 0).addr && (canCh n).get (R.CAN_STAT_STATE 0) == n)) = true ∧ d0.ecc = []
      ∧ ((canCh 0).get (R.CAN_ARBT_TQ 0) + 1) * ((canCh 0).get (R.CAN_ARBT_NQ 0) + 1) = 1000
      ∧ (let d := with0 [(R.CAN_ARBT_TQ 0, 0), (R.CAN_ARBT_NQ 0, 255)]; (d.get (R.CAN_ARBT_TQ 0) + 1) * (d.get (R.CAN_ARBT_NQ 0) + 1) < 1000)
      ∧ (canCh 0).flag (R.CAN_CFG_FDOE 0) = false
      ∧ ¬ (159 = 0 ∨ 199 ≤ 159 ∨ 199 - 159 < 39 + 1 ∨ 159 < 39 + 1) ∧ (159 = 0 ∨ 199 ≤ 159 ∨ 199 - 159 < 40 + 1)
      ∧ (let d := regs [(R.CAN_CFG_FDOE 0, 1), (R.CAN_DATT_TQ 0, 0), (R.CAN_DATT_NQ 0, 0)] (canCh 0)
         d.flag (R.CAN_CFG_FDOE 0) = true ∧ (d.get (R.CAN_DATT_TQ 0) + 1) * (d.get (R.CAN_DATT_NQ 0) + 1) < 125)
      ∧ (canCh 0).get (R.CAN_IMG_INUM 0) ≤ 16 ∧ (canCh 0).get (R.CAN_IMG_QNUM 0) = 0 ∧ 16 < ((canCh 0).put (R.CAN_IMG_INUM 0) 17).get (R.CAN_IMG_INUM 0)
      ∧ ((canCh 2).canSt 0).stopping = false ∧ (((canCh 2).updCan 0 (fun q => { q with stopping := true })).canSt 0).stopping = true
      ∧ ((canCh 2).canSt 0).onBus = none
      ∧ ((canCh 5).canSt 0).recAt.toNat + 1408 * 1000 ≤ ({ canCh 5 with time := 1408000 } : Dev).time.toNat
      ∧ (with0 [(R.CAN_CFG_LOM 0, 1)]).flag (R.CAN_CFG_LOM 0) = true ∧ d0.flag (R.CAN_CFG_LOM 0) = false ∧ d0.get R.PAIR_STAT_ROLE ≠ 2 := by decide

/-- START with too short a bit fails with code 1; with a valid one it enters SYNC (R294). -/
theorem test_can_start :
    (val (.canStart .host 0) (with0 [(R.CAN_ARBT_TQ 0, 0)]) (R.CAN_STAT_ERR 0), val (.canStart .host 0) (canCh 0) (R.CAN_STAT_STATE 0)) = (some 1, some 1) := by decide

theorem witness_CanMessageRam :
    d0.reaches .host (R.CAN_CMD 0).addr = true ∧ d0.ecc = []
      ∧ (let d := (canCh 2).put (R.CAN_MRA_ADDR 0) 0x3FF
         d.get (R.CAN_MRA_ADDR 0) < 0x400 ∧ d.get (R.CAN_STAT_STATE 0) ≠ 0 ∧ d.reaches .host (R.CAN_CMD 0).addr = true)
      ∧ (let d := with0 [(R.CAN_TXREQ 0, 1), (R.CAN_MRA_ADDR 0, 0x400)]
         0x400 ≤ d.get (R.CAN_MRA_ADDR 0) ∧ d.flag ((R.CAN_TXREQ 0).bit ((0x400 - 0x400) / 40)) = true)
      ∧ (let d := with0 [(R.CAN_MRA_ADDR 0, 0x8FE)]
         d.get (R.CAN_MRA_ADDR 0) = 0x8FE ∧ d.flag ((R.CAN_TXREQ 0).bit ((0x8FF - 0x400) / 40)) = false ∧ d.get (R.CAN_STAT_STATE 0) = 0)
      ∧ d0.d3hot = false ∧ d0.flag R.BOOT_STAT_DEAD = false ∧ d0.hostMay 2 false = true
      ∧ (let d := with0 [(R.SETUP_LOCK_LOCK, 1)]; d.flag R.SETUP_LOCK_LOCK = true ∧ d.get (R.CAN_MRA_ADDR 0) = 0 ∧ d.get (R.CAN_STAT_STATE 0) = 0)
      ∧ (let d := with0 [(R.CAN_MRA_ADDR 0, 0x1CFF)]; 0x900 ≤ d.get (R.CAN_MRA_ADDR 0) ∧ d.get (R.CAN_MRA_ADDR 0) < 0x1D00)
      ∧ (with0 [(R.CAN_STAT_LOMF 0, 1)]).flag (R.CAN_STAT_LOMF 0) = true
      ∧ (let d := (with0 [(R.CAN_TXREQ 0, 1)]).updCan 0 (fun q => { q with onBus := some 0 })
         d.flag ((R.CAN_TXREQ 0).bit 0) = true ∧ (d.canSt 0).onBus = some 0 ∧ (d.canSt 0).onBus ≠ some 1 ∧ (1 : BitVec 32).getLsbD 0 = true) := by decide

/-- A filter element 0 that matches every standard frame and stores it in queue 0, with image slot 1. -/
def filtered : Dev := ((canCh 2).setMw (.can 0) 1 0x4000).setMw (.can 0) 9 0

theorem witness_CanReception :
    let dw (k j : Nat) : BitVec 32 := filtered.mw (.can 0) (8 * k + j + 1) ++ filtered.mw (.can 0) (8 * k + j)
    let f := canF false false false 8 8
    filtered.sys.held = false ∧ filtered.ecc = [] ∧ filtered.get (R.CAN_STAT_STATE 0) = 2 ∧ f.fdf = false
      ∧ (dw 0 0).extractLsb' 30 2 = 1 ∧ (dw 0 0).getLsbD 29 = f.xtd ∧ f.id &&& (dw 0 2).extractLsb' 0 29 = (dw 0 0).extractLsb' 0 29 &&& (dw 0 2).extractLsb' 0 29
      ∧ ((dw 0 4).extractLsb' 0 2).toNat = 0 ∧ filtered.get (R.CAN_RXQS_COUNT 0 0) < 64 ∧ (filtered.put (R.CAN_RXQS_COUNT 0 0) 64).get (R.CAN_RXQS_COUNT 0 0) = 64
      ∧ filtered.get R.PAIR_STAT_ROLE ≠ 2 ∧ (∀ k : Fin 128, ((canCh 2).mw (.can 0) (8 * k.val + 1)) = 0) ∧ ((canCh 2).put (R.CAN_CFG_NOMATCH 0) 2).get (R.CAN_CFG_NOMATCH 0) = 2
      ∧ filtered.flag (R.CAN_STAT_LOMF 0) = false ∧ (filtered.put (R.CAN_ECNT_TEC 0) 248).get (R.CAN_ECNT_TEC 0) + 8 = 256
      ∧ (filtered.put (R.CAN_ECNT_TEC 0) 247).get (R.CAN_ECNT_TEC 0) + 8 = 255 := by decide

/-- The entry of a matched frame counts; TEC above 255 is BUSOFF (R299, R306). -/
theorem test_can_receive :
    (val (.canFrameReceive 0 (canF false false false 8 8)) filtered (R.CAN_RXQS_COUNT 0 0),
      val (.canBusError 0 .tec8) (filtered.put (R.CAN_ECNT_TEC 0) 248) (R.CAN_STAT_STATE 0),
      val (.canBusError 0 .tec8) (filtered.put (R.CAN_ECNT_TEC 0) 247) (R.CAN_STAT_STATE 0)) = (some 1, some 4, some 3) := by decide

/-- Buffer 0 of channel 0 pending, alone. -/
def pending0 : Dev := (canCh 2).put (R.CAN_TXREQ 0) 1

theorem witness_CanTransmission :
    pending0.sys.held = false ∧ pending0.ecc = [] ∧ pending0.get (R.CAN_STAT_STATE 0) = 2 ∧ (pending0.canSt 0).stopping = false ∧ (pending0.canSt 0).onBus = none
      ∧ pending0.flag (R.CAN_STAT_LOMF 0) = false ∧ pending0.sys.fatal = false ∧ pending0.sys.outsOff = false
      ∧ (∀ x : Fin 32, pending0.flag ((R.CAN_TXREQ 0).bit x.val) = true → x = 0) ∧ (pending0.mw (.can 0) 0x402).getLsbD 14 = false ∧ (pending0.mw (.can 0) 0x403).getLsbD 7 = false
      ∧ (let d := pending0.setMw (.can 0) 0x403 0x80
         (d.mw (.can 0) 0x403).getLsbD 7 = true ∧ d.flag (R.CAN_CFG_FDOE 0) = false)
      ∧ (let d := pending0.updCan 0 (fun q => { q with onBus := some 0 })
         (d.canSt 0).onBus = some 0 ∧ (d.canSt 0).held = [] ∧ d.get R.PAIR_STAT_ROLE ≠ 2 ∧ d.flag (R.CAN_CFG_LBK 0) = false)
      ∧ (let d := { (pending0.setMw (.can 0) 0x402 0x4000).put (R.CAN_TAT_WIN_WIN 0) 1 with time := 1000 }
         d.flag ((R.CAN_TXREQ 0).bit 0) = true ∧ (d.mw (.can 0) 0x402).getLsbD 14 = true ∧ (d.pmapOf 5).getLsbD 31 = false ∧ (d.canSt 0).onBus ≠ some 0
           ∧ d.get (R.CAN_TAT_WIN_WIN 0) ≠ 0 ∧ (d.mw (.can 0) 0x407 ++ d.mw (.can 0) 0x406 ++ d.mw (.can 0) 0x405 ++ d.mw (.can 0) 0x404).toNat + 1000 * d.get (R.CAN_TAT_WIN_WIN 0) ≤ d.time.toNat)
      ∧ (let d := { (regs [(R.CAN_IMG_PICK 0, 1), (R.CAN_IMG_QNUM 0, 1)] (canCh 2)).updScan (fun x => { x with pmap := List.replicate 13 0x80000000 }) with time := 1000 }
         1000 * d.get (R.CAN_IMG_PICK 0) ≠ 0 ∧ d.time.toNat % (1000 * d.get (R.CAN_IMG_PICK 0)) = 0 ∧ (d.canSt 0).pickAt ≠ d.time ∧ d.get (R.CAN_STAT_STATE 0) ≠ 0
           ∧ (d.pmapOf 5).getLsbD 31 = true ∧ 0 < d.get (R.CAN_IMG_QNUM 0) ∧ d.get (R.CAN_IMG_QNUM 0) ≤ 32 ∧ (d.canSt 0).onBus ≠ some 0) := by decide

/-! ## Witnesses: field channels -/

theorem witness_FieldTickImageAndSets :
    let d := atT 8000 []
    d.sys.held = false ∧ d.ecc = [] ∧ d.time.toNat % 8000 = 0 ∧ d.fio.tickAt ≠ some d.time ∧ d.pair.sbyTicks = 0
      ∧ (let e := (atT 8500 []).updFio (fun q => { q with tickAt := some 8000, written := false })
         e.fio.tickAt = some 8000 ∧ e.fio.written = false ∧ (8000 : BitVec 64).toNat + 500 ≤ e.time.toNat
         ∧ 7 ∈ (e.updFio (fun q => { q with chg := [7] })).fio.chg)
      ∧ d0.writes .host R.FIO_DIR = true ∧ d0.writes .host (R.FIO_GCFG 0) = true ∧ (∀ i : Fin 32, d0.get (R.FIO_GCFG_PAR (i.val / 4)) = 0)
      ∧ (∃ i : Fin 32, (with0 [(R.FIO_GCFG_PAR 0, 1)]).get (R.FIO_GCFG_PAR (i.val / 4)) ≠ 0 ∧ (0 : BitVec 32).getLsbD i.val = false)
      ∧ ((1 : BitVec 32).extractLsb' 0 2).toNat ≠ 0 ∧ (∃ j : Fin 4, (d0.rd R.FIO_DIR.addr).getLsbD (4 * 0 + j.val) = false)
      ∧ (∀ j : Fin 4, ((with0 [(R.FIO_DIR, 15)]).rd R.FIO_DIR.addr).getLsbD (4 * 0 + j.val) = true) := by decide

theorem witness_FieldSamplesAndFaults :
    (let d := atT 1008900 [(R.FIO_GCFG_SPER 0, 1)]
     d.sys.held = false ∧ (1000 * 0 + 900 ≤ d.time.toNat) ∧ (d.time.toNat - 900) % (8000 * max 1 (min 125 (d.get (R.FIO_GCFG_SPER 0)))) = 0
       ∧ 1000000 ≤ (d.time - d.fio.relAt).toNat ∧ Store.get (fun _ => 0) d.fio.sampled 0 ≠ d.time.toNat + 1
       ∧ d.fio.filt.getLsbD 0 ≠ (1 : BitVec 4).getLsbD 0 ∧ d.fio.dir.getLsbD 0 = false)
      ∧ (let d := d0.updFio (fun q => { q with on := 1, dir := 1 })
         d.fio.on.getLsbD 0 = true ∧ Store.look 0 d.fio.limit = none ∧ d.fio.dir.getLsbD 0 = true ∧ d.fio.on.getLsbD 31 = false)
      ∧ (let d := (atT 200000 []).updFio (fun q => { q with limit := [(0, 1)] })
         Store.look 0 d.fio.limit = some (0 + 1) ∧ 200000 ≤ (d.time - BitVec.ofNat 64 0).toNat
           ∧ (({ d with time := 199999 } : Dev).time - BitVec.ofNat 64 0).toNat < 200000 ∧ d.fio.limit ≠ [])
      ∧ d0.reaches .host R.FIO_RETRY.addr = true ∧ d0.reaches .host R.FIO_STAT.addr = true ∧ d0.fio.limit = [] ∧ d0.fio.hot = false ∧ d0.fio.loss = false
      ∧ d0.flag R.FIO_STAT_VFLD_OK = false ∧ (with0 [(R.FIO_STAT_VFLD_OK, 1)]).flag R.FIO_STAT_VFLD_OK = true ∧ d0.get R.FIO_STAT_FIO_FAULT = 0 := by decide

/-- A latch that follows 200 µs of current limit switches its channel off and sets FIO_FAULT (R324). -/
theorem test_output_latch :
    (after (.outputLatch 0) (State.reset.on ((atT 200000 []).updFio (fun q => { q with on := 3, dir := 3, limit := [(0, 1)] })))).map
      (fun u => (u.fio.latched, u.fio.on, u.get R.FIO_STAT_FIO_FAULT)) = some ([0], 2, 1) := by decide

/-! ## Witnesses: the host -/

/-- Completion queue 0 and command queue 0 of 16 entries are enabled, RDY is set, and the queue holds `cs`. -/
def queue (cs : List HostCmd) : Dev :=
  (with0 [(R.CPLQ_STAT_EN 0, 1), (R.CPLQ_CFG_SZ 0, 4), (R.CMDQ_STAT_EN 0, 1), (R.CMDQ_CFG_SZ 0, 4), (R.HIF_STAT_RDY, 1)]).setFetched 0 cs

/-- A command with opcode `opc`. -/
def cmd (opc : Nat) : HostCmd := ⟨opc, 0, 7, 0, 0x1000, 4, 0x30000, 0, 0⟩

theorem witness_HostQueuesDoorbellsAndPages :
    d0.sys.held = false ∧ d0.writes .host (R.CMDQ_CFG 0) = true ∧ d0.writes .host (R.CPLQ_CFG 0) = true ∧ d0.flag (R.CMDQ_STAT_EN 0) = false
      ∧ (let d := with0 [(R.CPLQ_STAT_EN 0, 1)]
         (d.rd (R.CMDQ_BASE_LO 0).addr).extractLsb' 0 6 = 0 ∧ 4 ≤ (4 : Fin 16).val ∧ (12 : Fin 16).val ≤ 12 ∧ d.flag (R.CPLQ_STAT_EN 0) = true ∧ d.writes .host (R.CMDQ_CFG 0) = true)
      ∧ (d0.rd (R.CPLQ_BASE_LO 0).addr).extractLsb' 0 6 = 0 ∧ d0.flag (R.CPLQ_STAT_EN 0) = false
      ∧ (let d := queue [cmd 0]
         d.flag (R.CMDQ_STAT_EN 0) = true ∧ d.fetchedOf 0 = [cmd 0] ∧ d.cplFree (d.get (R.CMDQ_CFG_CPLQ 0)) = true ∧ d.writes .host (R.CMDQ_CFG 0) = true
           ∧ (∃ z : Fin 16, d.flag (R.CMDQ_STAT_EN z.val) = true ∧ d.get (R.CMDQ_CFG_CPLQ z.val) = 0)
           ∧ (∀ x ∈ d.hif.running, x.q ≠ 0) ∧ d.bellRight = true ∧ d.flag R.HIF_STAT_RDY = true ∧ d.flag (R.CMDQ_STAT_ERR 0) = false ∧ (15 : BitVec 32).toNat < 2 ^ d.get (R.CMDQ_CFG_SZ 0) ∧ 2 ^ d.get (R.CMDQ_CFG_SZ 0) ≤ (16 : BitVec 32).toNat
           ∧ d.flag (R.CPLQ_STAT_EN 0) = true ∧ natAt d.hif.cplHead 0 = 0 ∧ natAt d.hif.cplUsed 0 = 0 ∧ d.hif.owed = [])
      ∧ (let d := queue []
         let e := d.updHif (fun h => { h with cplUsed := setNat h.cplUsed 0 2, link := true, msixEn := true })
         (1 + 2 ^ e.get (R.CPLQ_CFG_SZ 0) - natAt e.hif.cplHead 0) % 2 ^ e.get (R.CPLQ_CFG_SZ 0) ≤ natAt e.hif.cplUsed 0 ∧ e.hif.link = true ∧ e.hif.msixEn = true)
      ∧ d0.bellRight = true ∧ d0.flag R.HIF_STAT_RDY = false ∧ d0.d3hot = false
      ∧ d0.segOf 0 = none ∧ (d0.setSeg 0 (some ⟨0x1000, 4, 0x2000, 0, 0, []⟩)).segOf 0 = some ⟨0x1000, 4, 0x2000, 0, 0, []⟩ ∧ (4 + 65536 - 0) % 65536 ≤ 4
      ∧ (with0 [(R.PS_HREG, 1)]).hostMay 3 true = false ∧ d0.flag R.BOOT_STAT_DEAD = false
      ∧ d0.reaches .host R.PG_CMD.addr = true ∧ d0.reaches (.core 16) R.PG_CMD.addr = true ∧ d0.get (pageFlagFld 511) = (0 : Fin 4).val
      ∧ (d0.put (pageFlagFld 511) 1).get (pageFlagFld 511) = (1 : Fin 4).val
      ∧ d0.reaches .host R.HOST_IRQ.addr = true
      ∧ (let d := d0.updHif (fun h => { h with link := true, msixEn := true, tbl := [] })
         d.hif.link = true ∧ d.hif.msixEn = true ∧ d.msixMasked 0 = true
           ∧ (d.updHif (fun h => { h with tbl := [(3, 0)] })).msixMasked 0 = false) := by
  decide

/-- A tail doorbell beyond the queue puts it into ERROR with ECODE 1 (R340). -/
theorem test_tail_doorbell :
    (val (.cmdqTailDoorbell 0 16) (queue []) (R.CMDQ_STAT_ERR 0), val (.cmdqTailDoorbell 0 16) (queue []) (R.CMDQ_STAT_ECODE 0)) = (some 1, some 1) := by decide

theorem witness_HostCommandsStart :
    (let d := queue [cmd 0]
     d.sys.held = false ∧ d.hif.running = [] ∧ d.hostReady 0 = true ∧ d.fetchedOf 0 = cmd 0 :: [] ∧ (∀ x : Fin 16, x ≠ 0 → d.hostReady x.val = false) ∧ (cmd 0).opc = 0 ∧ d.cmdCheck (cmd 0) = 0)
      ∧ (queue [cmd 0xE]).cmdCheck (cmd 0xE) = 1 ∧ (queue [cmd 2]).cmdCheck { cmd 2 with cid := 0xFFFF } = 2 ∧ d0.fetchedOf 0 = []
      ∧ (let d := (queue []).updHif (fun h => { h with tailDb := setNat h.tailDb 0 1 })
         d.flag (R.CMDQ_STAT_EN 0) = true ∧ d.flag (R.CMDQ_STAT_ERR 0) = false ∧ d.flag R.HIF_STAT_RDY = true ∧ d.d3hot = false ∧ natAt d.hif.fetchIx 0 ≠ natAt d.hif.tailDb 0)
      ∧ (∀ y, HostRead.poisoned ≠ .data y) := by
  refine ⟨by decide, by decide, by decide, by decide, by decide, ?_⟩
  intro y h; cases h

/-- A queue whose one command passes its checks: page 0 in the pool, and the state that the opcode asks for. -/
def passing (c : HostCmd) (l : List (Fld × Nat)) : Bool :=
  let d := regs ((R.WIN_POOL 0, 1) :: l) (queue [c])
  d.hif.running.isEmpty && d.hostReady 0 && d.fetchedOf 0 == [c] && d.cmdCheck c == 0

theorem witness_HostCommandsStart_pass :
    passing (cmd 1) [] = true ∧ passing (cmd 2) [] = true ∧ passing (cmd 3) [(R.SCAN_STAT_STATE, 3)] = true ∧ passing { cmd 4 with daddr := 4095 } [] = true
      ∧ passing { cmd 5 with daddr := 0 } [(R.PROG_STAT_STATE, 1)] = true ∧ passing { cmd 6 with arg0 := 1 } [] = true
      ∧ passing { cmd 7 with arg0 := 4 } [(R.SCAN_STAT_STATE, 3)] = true ∧ passing { cmd 7 with arg0 := 1 } [] = true
      ∧ passing { cmd 8 with arg0 := 0x80000000 } [] = true ∧ passing { cmd 9 with daddr := 0x600000 } [] = true
      ∧ passing { cmd 0xA with daddr := 0x600000 } [] = true ∧ passing { cmd 0xB with daddr := 0 } [] = true ∧ passing (cmd 0xC) [] = true
      ∧ passing { cmd 0xD with arg0 := 0x52535421 } [] = true := by decide

/-- NOP completes: HEAD and TAIL advance and one entry is written (R342). -/
theorem test_host_nop :
    (after (.hostNop 0) (State.reset.on (queue [cmd 0]))).map (fun u => (u.get (R.CMDQ_STAT_HEAD 0), u.get (R.CPLQ_STAT_TAIL 0), u.out.isEmpty)) = some (1, 1, false) := by
  decide

/-- A running transfer of `c` with page 0 locked, one of four words from M. -/
def moving (opc : Nat) (w : HostWait) : Dev :=
  ((queue []).put (pageFlagFld 0) 3).updHif (fun h => { h with running := [⟨0, cmd opc, 0, none, w, some 0, true⟩] })

theorem witness_HostTransfers :
    (moving 1 .chunk).sys.held = false ∧ (moving 1 .chunk).ecc = [] ∧ (moving 1 .chunk).hif.running = [⟨0, cmd 1, 0, none, .chunk, some 0, true⟩]
      ∧ 0 < (cmd 1).len ∧ (moving 1 .chunk).get R.PROG_STAT_STATE ≠ 5 ∧ 0x30000 ≤ (cmd 1).daddr ∧ (cmd 1).daddr + (cmd 1).len ≤ 0x40000
      ∧ (moving 2 .chunk).hif.running = [⟨0, cmd 2, 0, none, .chunk, some 0, true⟩] ∧ ([0, 0, 0, 0] : List (BitVec 16)).length = min 2048 (cmd 2).len
      ∧ (moving 3 .snap).hif.running = [⟨0, cmd 3, 0, none, .snap, some 0, true⟩] ∧ (cmd 3).len ≤ 2048 ∧ (moving 3 .snap).get R.SCAN_STAT_STATE = 0
      ∧ (moving 3 .snap).prog.swapWait = false ∧ d0.hif.running = [] ∧ d0.canFetch 0 = false
      ∧ ((queue []).updHif (fun h => { h with tailDb := setNat h.tailDb 0 1 })).canFetch 0 = true := by decide

theorem witness_HostTlpsAndLink :
    d0.ecc = [] ∧ d0.sys.held = false ∧ d0.d3hot = false ∧ d0.flag R.BOOT_STAT_DEAD = false ∧ d0.hostMay 2 false = true ∧ (with0 [(R.PS_HREG, 1)]).hostMay 2 false = false
      ∧ (with0 [(R.BOOT_STAT_DEAD, 1)]).flag R.BOOT_STAT_DEAD = true ∧ (1 : BitVec 22).toNat % 4 ≠ 0 ∧ d0.hostMay 3 false = true ∧ (0xFFFFE : BitVec 20).toNat % 2 = 0
      ∧ (0xFFFFE : BitVec 20).toNat % 2048 ≠ 2047 ∧ d0.hostMay 3 true = true ∧ d0.get (pageFlagFld ((0xFFFFE : BitVec 20).toNat / 2048)) = 0
      ∧ (d0.put (pageFlagFld 511) 2).get (pageFlagFld ((0xFFFFE : BitVec 20).toNat / 2048)) = 2 ∧ (with0 [(R.PS_HREG, 1)]).hostMay 3 true = false ∧ (1 : Fin 8) ≠ 0
      ∧ d0.hif.link = false ∧ (d0.updHif (fun h => { h with link := true })).hif.link = true ∧ (d0.updHif (fun h => { h with perst := true })).hif.perst = true
      ∧ (d0.updHif (fun h => { h with perst := true })).hif.link = false := by decide

/-- A write to a page of the device is discarded and counted (R350). -/
theorem test_window_discard :
    val (.hostBar2Write 0 [(0xFFFF, 5), (0xFFFF, 5)]) (d0.put (pageFlagFld 0) 2) R.WIN_STAT_DISC_CNT = some 1 := by decide

/-! ## Witnesses: the fabric and the pair -/

/-- Link 0 is enabled with block lock, in state `st`; the device has UID 5. -/
def link0 (st : Nat) (l : List (Fld × Nat)) : Dev :=
  { (with0 ([(R.FAB_CFG_EN, 1), (R.FAB_CFG_LINKEN, 1), (R.LINK_STAT_STATE 0, st), (R.UID_LO, 5)] ++ l)).updLink 0 (fun k => { k with lock := true }) with time := 5000000 }

/-- A HELLO of UID 3 that names root `root` at `hops` hops, with capabilities `cap`. -/
def hello (root hops cap : Nat) : FabFrame :=
  frame 1 (bytesLE 8 3 ++ bytesLE 8 root ++ bytesLE 1 hops ++ [9, 1, 0] ++ bytesLE 4 cap ++ List.replicate 8 0)

theorem witness_FabricLinks :
    (let d := link0 1 []
     let f := hello 3 0 0x10000007
     d.sys.held = false ∧ d.flag R.FAB_CFG_EN = true ∧ (d.get R.FAB_CFG_LINKEN).testBit 0 = true ∧ (d.link 0).lock = true ∧ f.crcOk = true ∧ f.ver.toNat / 16 = 1 ∧ f.kind = 1
       ∧ leAt f.payload 20 4 / 2 ^ 28 = 1 ∧ d.get (R.LINK_STAT_STATE 0) = 1 ∧ d.fabAuth = false ∧ (d.link 0).good < 2 ∧ d0.flag R.FAB_CFG_EN = false
       ∧ ({ f with crcOk := false } : FabFrame).crcOk = false ∧ (0x20000007 : Nat) / 2 ^ 28 ≠ 1)
      ∧ (let d := (link0 1 []).updLink 0 (fun k => { k with good := 2 }); 2 ≤ (d.link 0).good ∧ d.fabAuth = false)
      ∧ (let d := ((link0 1 [(R.PS_POL, 0x20)]).updKey (fun k => { k with fab := .absent })); d.fabAuth = true ∧ d.fabKey = none ∧ d.get (R.LINK_STAT_STATE 0) < 4)
      ∧ (let d := ((link0 1 [(R.PS_POL, 0x20)]).updLink 0 (fun k => { k with good := 2, auth := true })); d.fabAuth = true ∧ (d.link 0).auth = true)
      ∧ (link0 4 []).get (R.LINK_STAT_STATE 0) = 4
      ∧ (let d := ((link0 2 [(R.FAB_STAT_STATE, 2), (R.FAB_STAT_ROOT, 1)]).updLink 0 (fun k => { k with good := 2 })).updFab (fun b => { b with root := 5 })
         let f := hello 3 14 0x10000007
         d.get R.FAB_STAT_STATE ≠ 0 ∧ d.fab.dead = none ∧ leAt f.payload 16 1 < 15 ∧ leAt f.payload 8 8 < d.uid ∧ leAt f.payload 8 8 ≠ d.fab.root ∧ d.fab.root ≤ d.uid
           ∧ (∀ j : Fin 4, j ≠ 0 → d.fabLinkUp j.val = false))
      ∧ 300000 ≤ ((link0 2 []).time - ((link0 2 []).link 0).lastHello).toNat ∧ (link0 0 []).get (R.LINK_STAT_STATE 0) = 0
      ∧ (let d := link0 2 [(R.FAB_STAT_STATE, 1)]; d.get R.FAB_STAT_STATE = 1 ∧ 1000000 ≤ (d.time - d.fab.rootSince).toNat ∧ d.flag R.FAB_STAT_ROOT = false)
      ∧ (let d := (link0 1 [(R.FAB_STAT_STATE, 2)]).updFab (fun b => { b with root := 3 })
         3000000 ≤ (d.time - d.fab.epochAt).toNat ∧ d.fab.root ≠ d.uid ∧ (∀ j : Fin 4, d.fabLinkUp j.val = false))
      ∧ (link0 1 [(R.FAB_STAT_ROOT, 1), (R.FAB_STAT_STATE, 2)]).flag R.FAB_STAT_ROOT = true
      ∧ d0.writes .host R.FAB_CMD_CNT_CLR = true := by decide

/-- The third good HELLO brings the link UP with the AND of the capabilities (R370). -/
theorem test_hello_up :
    (let d := (link0 1 []).updLink 0 (fun k => { k with good := 2 })
     (val (.helloReceive 0 (hello 3 0 0x10000003)) d (R.LINK_STAT_STATE 0), val (.helloReceive 0 (hello 3 0 0x10000003)) d (R.LINK_CAP 0))) = (some 2, some 0x10000003) := by
  decide

/-- JOIN of UID 3 with a present number 4, a requested number 6, or neither. -/
def join (flags : Nat) : FabFrame := frame 2 (bytesLE 8 3 ++ [4, 6, BitVec.ofNat 8 flags, 0])
/-- The root, which has given number 0 to itself. -/
def rootDev : Dev :=
  (link0 2 [(R.FAB_STAT_STATE, 3), (R.FAB_STAT_ROOT, 1), (R.FAB_STAT_VALID, 1)]).updFab (fun b => { b with assigned := true, nums := [(0, 5)] })

theorem witness_FabricNumbersAndRoutes :
    (rootDev.sys.held = false ∧ rootDev.flag R.FAB_CFG_EN = true ∧ (rootDev.get R.FAB_CFG_LINKEN).testBit 0 = true ∧ (rootDev.link 0).lock = true ∧ (join 1).crcOk = true
        ∧ (join 1).ver.toNat / 16 = 1 ∧ rootDev.get (R.LINK_STAT_STATE 0) = 2 ∧ (join 1).kind = BitVec.ofNat 8 2 ∧ rootDev.flag R.FAB_STAT_ROOT = true ∧ rootDev.fab.assigned = true
        ∧ leAt (join 1).payload 0 8 = 3 ∧ (leAt (join 1).payload 10 1).testBit 0 = true ∧ leAt (join 1).payload 8 1 = 4 ∧ (leAt (join 2).payload 10 1).testBit 1 = true
        ∧ leAt (join 2).payload 9 1 = 6 ∧ (∀ e ∈ rootDev.fab.nums ++ rootDev.fab.lsdb.map (fun a => (a.num, a.uid)), e.1 ≠ 4 ∧ e.1 ≠ 6)
        ∧ (∃ e ∈ rootDev.fab.nums, e.1 = 0 ∧ e.2 ≠ 3))
      ∧ (let d := link0 2 [(R.FAB_STAT_STATE, 2), (R.TSYNC_STAT_PARENT, 0)]
         d.get R.FAB_STAT_STATE = 2 ∧ d.flag R.FAB_STAT_ROOT = false ∧ d.get R.TSYNC_STAT_PARENT < 4)
      ∧ (let d := (link0 2 [(R.FAB_STAT_STATE, 2), (R.FAB_STAT_ROOT, 1)]).updFab (fun b => { b with joins := [⟨7, none, some 1⟩] })
         d.flag R.FAB_STAT_ROOT = true ∧ d.fab.assigned = false ∧ 1000000 ≤ (d.time - d.fab.joinAt).toNat ∧ d.fab.joins.Pairwise (fun j k => j.uid < k.uid) ∧ d.fab.joins.length < 256)
      ∧ (let f := frame 3 (bytesLE 8 5 ++ [6, 1, 0, 0])
         let d := link0 2 [(R.FAB_STAT_STATE, 2)]
         f.kind = BitVec.ofNat 8 3 ∧ leAt f.payload 0 8 = d.uid ∧ leAt f.payload 9 1 % 2 = 1)
      ∧ (let d := (link0 2 []).updFab (fun b => { b with via := [(3, 1)] }); d.fab.via.find? (fun e => e.1 == 3) = some (3, 1) ∧ d0.fab.via.find? (fun e => e.1 == 3) = none)
      ∧ (let f := frame 4 (List.replicate 24 0)
         f.kind = BitVec.ofNat 8 4 ∧ (lsaOfBytes f.payload (link0 2 []).time).uid ≠ (link0 2 []).uid ∧ (link0 2 []).fab.lsdb = [])
      ∧ (let d := link0 2 [(R.FAB_STAT_VALID, 1), (R.FAB_STAT_STATE, 3)]
         d.flag R.FAB_STAT_VALID = true ∧ d.get R.FAB_STAT_STATE = 3 ∧ (lsaOfBytes (List.replicate 24 0) d.time).num = d.get R.FAB_STAT_DEVNUM ∧ (lsaOfBytes (List.replicate 24 0) d.time).uid < d.uid)
      ∧ (let d := { (link0 2 []).updFab (fun b => { b with lsdb := [⟨9, 1, 3, [], [], 0⟩] }) with time := 30000000 }
         (3 : BitVec 64).toNat ≠ d.uid ∧ ∃ y ∈ d.fab.lsdb, y.uid = (3 : BitVec 64).toNat ∧ 30000000 ≤ (d.time - y.at_).toNat)
      ∧ d0.writes .host R.FAB_CMD_REJOIN = true := by decide

/-- A publication for entry 0: two words to M at 0x30100, from device 9, with hash `h`. -/
def publication (h : Nat) : FabFrame :=
  { frame 0x10 ([0, 0] ++ bytesLE 2 7 ++ bytesLE 4 h ++ [1, 0, 2, 0]) with dst := 0xFFFFFF00, src := 0x900 }
/-- Subscription 0 for it, whose layout hash is 0x1234. -/
def subscriber (l : List (Fld × Nat)) : Dev :=
  (link0 2 ([(R.SUB_CTRL_EN 0, 1), (R.SUB_CTRL_SRCDEV 0, 9), (R.SUB_DST_ADDR 0, 0x30100), (R.SUB_DST_LEN 0, 2)] ++ l)).setMw .mark 0x102 0x1234

theorem witness_PublishedVariablesAndTime :
    (let d := subscriber []
     let f := publication 0x1234
     d.sys.held = false ∧ d.ecc = [] ∧ f.kind = BitVec.ofNat 8 0x10 ∧ d.get (R.LINK_STAT_STATE 0) = 2 ∧ f.dst.toNat / 256 = 0xFFFFFF
       ∧ d.get (R.SUB_CTRL_SRCDEV 0) = f.src.toNat / 256 % 256 ∧ d.get (R.SUB_CTRL_PUB_ID 0) = leAt f.payload 0 1 ∧ d.flag (R.SUB_CTRL_EN 0) = true
       ∧ (∀ j : Fin 32, j ≠ 0 → d.get (R.SUB_CTRL_SRCDEV j.val) ≠ 9) ∧ 0x30000 ≤ d.get (R.SUB_DST_ADDR 0) ∧ d.get (R.SUB_DST_ADDR 0) + 4 + d.get (R.SUB_DST_LEN 0) ≤ 0x40000
       ∧ leAt f.payload 4 4 = (d.mw .mark 0x102).toNat + 65536 * (d.mw .mark 0x103).toNat ∧ leAt f.payload 4 4 ≠ 0 ∧ f.payload.length = 8 + 2 * d.get (R.SUB_DST_LEN 0)
       ∧ leAt (publication 0x1235).payload 4 4 ≠ 0x1234 ∧ (d.subSt 0).stale = false)
      ∧ (with0 [(R.SUB_DST_LEN 0, 0)]).get (R.SUB_DST_LEN 0) < 1
      ∧ (let d := { subscriber [(R.PUB_CTRL_EN 0, 1), (R.PUB_SRC_ADDR 0, 0x30000), (R.PUB_SRC_LEN 0, 1), (R.PUB_DST 0, 0x900), (R.ROUTE 2, 0x100), (R.LINK_CAP 0, 3)] with time := 15625 }
         d.flag (R.PUB_CTRL_EN 0) = true ∧ d.flag R.FAB_CFG_EN = true ∧ d.time.toNat % (max 1 (d.get (R.PUB_CTRL_PER 0)) * 15625) = 0 ∧ 1 ≤ d.get (R.PUB_SRC_LEN 0)
           ∧ d.get (R.PUB_DST 0) / 65536 = 0 ∧ d.flag R.FAB_STAT_VALID = false ∧ d.routeOf (d.get (R.PUB_DST 0) / 256 % 256) / 32 < 4
           ∧ d.get (R.LINK_STAT_STATE (d.routeOf 9 / 32)) = 2 ∧ (d.get (R.LINK_CAP (d.routeOf 9 / 32))).testBit 0 = true ∧ (16 : BitVec 8).toNat > 1
           ∧ d.time.toNat % (max 1 (d.get (R.SUB_CTRL_PER 0)) * 15625) = 0)
      ∧ (let d := (link0 2 [(R.FAB_STAT_STATE, 3), (R.TSYNC_STAT_PARENT, 0), (R.LINK_CAP 0, 2), (R.FAB_CFG_STEPEN, 1)]).updFab (fun b => { b with t1 := some 100 })
         d.get R.FAB_STAT_STATE = 3 ∧ d.flag R.FAB_STAT_ROOT = false ∧ d.get R.PAIR_STAT_ROLE ≠ 2 ∧ d.get R.TSYNC_STAT_PARENT < 4
           ∧ (d.get (R.LINK_CAP (d.get R.TSYNC_STAT_PARENT))).testBit 1 = true ∧ d.fab.t1 = some (BitVec.ofNat 64 (leAt (bytesLE 8 100 ++ bytesLE 16 0) 0 8))
           ∧ d.flag R.FAB_CFG_STEPEN = true ∧ d.get R.SCAN_STAT_STATE = 0 ∧ (∀ x : Fin 4, d.get (R.RING_STAT_STATE x.val) = 0))
      ∧ (bytesLE 8 100).length = 8 ∧ d0.get R.FAB_STAT_TLOCK = 0
      ∧ (let d := atT 10000000 [(R.FAB_STAT_TLOCK, 1)]; d.get R.FAB_STAT_TLOCK = 1 ∧ 10000000 ≤ (d.time - d.fab.exchAt).toNat) := by decide

/-- A frame to the first member of group 1, which device 9 is in, goes to device 9 over link 0; one to two targets at once is wrong. -/
theorem witness_PublishedVariablesAndTime_group :
    let d := (subscriber [(R.LINK_CAP 0, 3), (R.ROUTE 2, 0x100)]).updFab (fun b => { b with lsdb := [⟨9, 1, 3, [], [(1, 1)], 0⟩] })
    let f : FabFrame := { publication 0 with dst := 0x10000 }
    f.dst.toNat / 65536 = 1 ∧ f.dst.toNat / 256 % 256 = 0 ∧ 1 < f.ttl.toNat
      ∧ (∀ a ∈ d.fab.lsdb, (∃ e ∈ a.grps, e.1 = 1 ∧ e.2.testBit 0 = true) ∧ (∀ e ∈ a.grps, e.2.testBit 1 = false) ∧ d.routeOf a.num / 32 < 4 ∧ a.num < 256
        ∧ d.get (R.LINK_STAT_STATE (d.routeOf a.num / 32)) = 2 ∧ (d.get (R.LINK_CAP (d.routeOf a.num / 32))).testBit 0 = true)
      ∧ d.fab.lsdb ≠ [] ∧ d.flag R.FAB_STAT_VALID = false
      ∧ (0x10100 / 65536 % 256 ≠ 0 ∧ 0x10100 / 256 % 256 ≠ 0 ∧ 0x10100 / 256 ≠ 0xFFFFFF) := by decide

/-- An agreeing publication is stored behind its STATUS and PSEQ; another sets STALE (R377, R378). -/
theorem test_publish :
    ((after (.publishReceive 0 (publication 0x1234)) (State.reset.on (subscriber []))).map (fun u => u.mws .mark 0x100 6),
      (after (.publishReceive 0 (publication 0x1235)) (State.reset.on (subscriber []))).map (fun u => u.mw .mark 0x100))
      = (some [0, 7, 0x1234, 0, 1, 2], some 0x8000) := by decide

/-- One member of a pair: role, synchronization, lane 0 up. -/
def member (role sync : Nat) (l : List (Fld × Nat)) : Dev :=
  with0 ([(R.PAIR_STAT_ROLE, role), (R.PAIR_STAT_SYNC, sync), (R.PAIR_STAT_LANE0, 1)] ++ l)

/-- A heartbeat of a member with that role and synchronization. -/
def beat (role sync : Fin 4) (ver : BitVec 16) : Heartbeat := { (default : Heartbeat) with role := role, sync := sync, ver := ver }

theorem witness_PairLinkAndTime :
    (let d := member 2 2 []
     d.sys.held = false ∧ d.get R.PAIR_STAT_ROLE ≠ 0 ∧ d.flag R.PAIR_STAT_LANE0 = true ∧ d.flag R.PAIR_STAT_LANE1 = false ∧ d.time.toNat % 10000 = 0 ∧ d.sys.fatal = false
       ∧ d.pair.hand = none ∧ d.pair.sbyTicks = 0 ∧ (beat 1 2 0x100).ver.toNat / 256 = 1 ∧ (beat 1 2 0x200).ver.toNat / 256 ≠ 1 ∧ (beat 2 2 0x100).role ≠ 1
       ∧ (d.rd R.PS_POL.addr).getLsbD 4 = false)
      ∧ (let d := member 1 2 []; d.get R.PAIR_STAT_ROLE = 1 ∧ d.get R.PAIR_STAT_SYNC = 2 ∧ (beat 2 0 0x100).sync = 0)
      ∧ (let d := (member 2 2 [(R.PS_POL, 0x10)]).updKey (fun k => { k with pair := .absent })
         (d.rd R.PS_POL.addr).getLsbD 4 = true ∧ d.pair.auth = false ∧ d.pair.denied = false ∧ d.pairKey = none)
      ∧ (∃ k, k ∈ (member 2 2 [(R.PS_POL, 0x10)]).pairKey) ∧ ({ beat 1 2 0x100 with proof := 1 } : Heartbeat).proof ≠ 0
      ∧ (let d := { member 2 2 [(R.FAB_CFG_STEPEN, 1)] with time := 1000000 }
         let ofs : Int := (((20000 : Int) - 0) - ((d.time.toNat : Int) - 1000000)).tdiv 2
         10000 < (2 * ofs).natAbs ∧ d.flag R.FAB_CFG_STEPEN = true ∧ d.get R.SCAN_STAT_STATE = 0 ∧ ∀ x : Fin 4, d.get (R.RING_STAT_STATE x.val) = 0) := by
  refine ⟨by decide, by decide, by decide, ⟨_, rfl⟩, by decide, by decide⟩

/-- Another major version ends the synchronization with CAUSE 2 (R391). -/
theorem test_heartbeat_version :
    (val (.heartbeatReceive (beat 1 2 0x200)) (member 2 2 []) R.PAIR_STAT_SYNC, val (.heartbeatReceive (beat 1 2 0x200)) (member 2 2 []) R.PAIR_STAT_CAUSE) = (some 0, some 2) := by
  decide

/-- `member` with `f` of the pair's state at time `t`. -/
def memberAt (t : Nat) (role sync : Nat) (f : PairSt → PairSt) : Dev := { (member role sync []).updPair f with time := BitVec.ofNat 64 t }

theorem witness_PairFailureAndSwitchover :
    (let d := memberAt 31000 2 2 (fun q => { q with hbAt := some 0 })
     d.sys.held = false ∧ d.ecc = [] ∧ d.get R.PAIR_STAT_ROLE = 2 ∧ d.get R.PAIR_STAT_SYNC = 2 ∧ d.pair.fencing = false ∧ d.flag R.PAIR_STAT_LANE0 = true ∧ d.pair.hbAt = some 0
       ∧ (0 : BitVec 64).toNat / 10000 * 10000 + 31000 ≤ d.time.toNat ∧ (d.rd R.PS_POL.addr).getLsbD 4 = false)
      ∧ (let d := memberAt 0 2 2 (fun q => { q with pRole := 1 }); d.pair.pRole = 1 ∧ d.pair.hand = none)
      ∧ (let d := memberAt 40000 2 2 (fun q => { q with pRings := [(0, 10)] })
         Store.get (fun _ => 0) d.pair.pRings 0 / 2 = 5 ∧ d.pair.hbAt = none ∧ d.time.toNat / d.ringT 0 * d.ringT 0 + (d.ring 0).standbyDs + 1000 ≤ d.time.toNat
           ∧ (d.ring 0).mfAt.toNat < d.time.toNat / d.ringT 0 * d.ringT 0)
      ∧ (let d := memberAt 10000 2 2 (fun q => { q with fenceAt := some 0, fencing := true })
         d.pair.fenceAt = some 0 ∧ d.pair.fencing = true ∧ (0 : BitVec 64).toNat + 10000 ≤ d.time.toNat ∧ d.time.toNat ≤ (0 : BitVec 64).toNat + 10000 ∧ d.get R.PAIR_STAT_SYNC = 2)
      ∧ (0 : BitVec 64).toNat + 100000 ≤ (memberAt 100000 2 2 id).time.toNat
      ∧ (let d := memberAt 1000000 2 0 id
         d.writes .host R.PAIR_CTRL_GO_ACTIVE = true ∧ d.get R.PAIR_STAT_PACT = 0 ∧ d.pair.pactAt.toNat + 1000000 ≤ d.time.toNat ∧ d.pair.hbActAt = none)
      ∧ (let d := { member 1 2 [(R.RING_STAT_STATE 0, 5)] with time := 7 }
         d.get R.PAIR_STAT_ROLE = 1 ∧ d.get R.PAIR_STAT_SYNC = 2 ∧ d.pair.switch = false ∧ d.get R.SCAN_STAT_STATE = 0 ∧ d.pair.unsent = false ∧ d.get (R.RING_STAT_STATE 0) = 5 ∧ d.ringT 0 ≠ 0)
      ∧ (member 1 2 [(R.PAIR_CFG_SIDE, 1)]).flag R.PAIR_CFG_SIDE = true ∧ d0.flag R.PAIR_CFG_SIDE = false
      ∧ (let d := memberAt 5000 1 2 (fun q => { q with hand := some (3, 10000), switch := true }); d.pair.hand = some (3, 10000) ∧ d.pair.handAck = false ∧ 10000 ≤ d.time.toNat + 5000)
      ∧ (let d := memberAt 7000 1 2 (fun q => { q with hand := some (3, 10000), switch := true, handAck := true }); d.pair.handAck = true ∧ d.pair.switch = true ∧ 10000 ≤ d.time.toNat + 3000)
      ∧ (let d := memberAt 9000 2 2 (fun q => { q with hand := some (3, 10000) }); d.get R.PAIR_STAT_ROLE = 2 ∧ 10000 ≤ d.time.toNat + 1000) := by decide

/-- A SYNCED standby that misses its partner fences it (R400, R401). -/
theorem test_heartbeat_miss :
    (after .heartbeatMiss (State.reset.on (memberAt 31000 2 2 (fun q => { q with hbAt := some 0 })))).map (fun u => (u.pair.fenceAt, u.pair.fencing)) = some (some 31000, true) := by
  decide

theorem witness_PairMirrorStream :
    (let d := member 2 2 []
     d.sys.held = false ∧ d.ecc = [] ∧ d.get R.PAIR_STAT_ROLE = 2 ∧ d.flag R.PAIR_STAT_LANE0 = true ∧ (d.rd R.PS_POL.addr).getLsbD 4 = false ∧ d.get R.PAIR_STAT_SYNC ≠ 0
       ∧ (0x28000 : Nat) % 64 = 0 ∧ (0x28000 : Nat) < 0xC0000 ∧ (List.replicate 64 (0 : BitVec 16)).length = 64 ∧ d.pair.stage = [])
      ∧ (let d := (member 2 2 []).updPair (fun q => { q with stage := [(1, 0x30000, List.replicate 64 7)] })
         ∀ e ∈ d.pair.stage, e.2.1 % 64 = 0 ∧ 0x28000 ≤ e.2.1 ∧ e.2.1 < 0xC0000 ∧ e.2.2.length = 64)
      ∧ (let d := memberAt 31250 1 2 (fun q => { q with point := 3 })
         d.get R.PAIR_STAT_ROLE = 1 ∧ (3 : BitVec 32).toNat = d.pair.point ∧ d.pair.switch = false ∧ d.flag R.PAIR_CFG_POLICY = false ∧ d.get R.SCAN_STAT_STATE = 0
           ∧ d.time.toNat % (max 1 (d.get R.PAIR_CFG_MPER) * d.ringT (d.get R.PAIR_CFG_REF)) = 0 ∧ d.pair.lastEnd ≠ d.time.toNat ∧ d.pair.unsent = false
           ∧ (d.updPair (fun q => { q with unsent := true })).pair.unsent = true)
      ∧ (let d := member 2 2 [(R.PROG_STAT_STATE, 3)]; d.get R.PROG_STAT_STATE = 3 ∧ d.pkgId d.inactive = (0 : BitVec 32).toNat)
      ∧ (let d := member 2 0 [(R.MIR_VER_PARTNER, 0x100)]; d.get R.MIR_VER_PARTNER / 256 = 1 ∧ d.get R.PAIR_STAT_SYNC = 0)
      ∧ (let d := (member 2 1 []).updPair (fun q => { q with copied := true, pRole := 1 }); d.get R.PAIR_STAT_SYNC = 1 ∧ d.pair.copied = true ∧ d.pair.pRole = 1)
      ∧ (let d := (member 1 1 []).updPair (fun q => { q with copied := true, pRole := 2 }); d.get R.PAIR_STAT_ROLE = 1 ∧ d.pair.copied = true ∧ d.pair.pRole = 2 ∧ d.pair.unsent = false) := by
  decide

/-- A line waits for its point, and POINT_END applies it (R394, R396). -/
theorem test_line_and_point :
    ((after (.lineReceive 0x30000 1 (List.replicate 64 7)) (State.reset.on (member 2 2 []))).bind (fun u =>
      (after (.pointEndReceive 1 0 false none false) (State.reset.on u)).map (fun v => (u.mw .mark 63, v.mw .mark 63, v.pair.stage.length)))) = some (0, 7, 0) := by decide

/-- Members with nothing of a change in progress, and the states of the mirror stream that a late point, a marker and a result make. -/
theorem witness_PairMirrorStream_changes :
    (let d := member 2 2 []
     d.prog.checkEnd = none ∧ d.prog.markDue = false ∧ d.flag R.PAIR_STAT_LANE0 = true ∧ d.get R.PAIR_STAT_ROLE = 2 ∧ d.get R.PAIR_STAT_SYNC = 2)
      ∧ (let d := memberAt 0 1 2 (fun q => { q with point := 3, late := some true })
         d.pair.late = some true ∧ d.prog.markDue = false ∧ d.pair.switch = false ∧ (3 : BitVec 32).toNat = d.pair.point ∧ d.get R.PAIR_STAT_ROLE = 1)
      ∧ (let d := { memberAt 0 1 2 (fun q => { q with point := 3 }) with prog := { d0.prog with markDue := true } }
         d.pair.late = none ∧ d.prog.markDue = true ∧ d.pair.switch = false ∧ (3 : BitVec 32).toNat = d.pair.point)
      ∧ (let d := { member 1 2 [(R.PROG_STAT_STATE, 2)] with prog := { d0.prog with checkEnd := some false } }
         d.get R.PAIR_STAT_ROLE = 1 ∧ d.get R.PAIR_STAT_SYNC = 2 ∧ d.get R.PROG_STAT_STATE = 2 ∧ d.prog.checkEnd = some false)
      ∧ ([0, 1, 2, 3, 4, 6].all (fun n => (member 2 2 [(R.PROG_STAT_STATE, n)]).get R.PROG_STAT_STATE == n)) = true
      ∧ (0x100000 : Nat) % 64 = 0 ∧ (0xE4000 : Nat) % 64 = 0 ∧ (0 : BitVec 21).toNat + 1 ≤ 0x100000 := by decide
/-! ## Witnesses: time, the stores, keys and resets -/

theorem witness_TimeEventsAndGoose :
    State.reset.pending = [] ∧ d0.tm.ppbAcc.natAbs < 1000000000 ∧ (d0.getS R.TB_ADJ).natAbs ≤ 100000 ∧ d0.sys.held = false ∧ d0.tm.gooseNs < 999
      ∧ 999 ≤ (d0.updTm (fun t => { t with gooseNs := 999 })).tm.gooseNs ∧ d0.tm.gPeriod ≤ 1000000
      ∧ ({ d0 with sys := { d0.sys with held := true } } : Dev).sys.held = true
      ∧ d0.writes .host R.TB_CTRL_STEP = true ∧ (∀ x : Fin 4, d0.get (R.RING_STAT_STATE x.val) = 0) ∧ d0.get R.SCAN_STAT_STATE = 0 ∧ d0.get R.PAIR_STAT_ROLE ≠ 2
      ∧ d0.get R.FAB_STAT_STATE ≠ 3 ∧ (with0 [(R.SCAN_STAT_STATE, 3)]).get R.SCAN_STAT_STATE ≠ 0
      ∧ d0.d3hot = false ∧ d0.flag R.BOOT_STAT_DEAD = false ∧ d0.hostMay 1 false = true ∧ d0.writes .host (R.EV_HPEND 3) = true
      ∧ d0.reaches .host R.GOOSE_CHK.addr = true ∧ d0.tm.gReg.testBit 0 = true ∧ d0.tm.gReg.testBit 15 = false ∧ d0.tm.gOpen ≤ d0.get R.GOOSE_COUNT_COUNT
      ∧ d0.get R.GOOSE_COUNT_COUNT < (d0.updTm (fun t => { t with gOpen := 1 })).tm.gOpen ∧ d0.get R.GOOSE_COUNT_COUNT < d0.tm.gPeriod
      ∧ (d0.get R.GOOSE_SEEN).testBit 0 = false ∧ ((with0 [(R.GOOSE_SEEN, 1)]).get R.GOOSE_SEEN).testBit 0 = true
      ∧ (let d := with0 [(R.GOOSE_COUNT_COUNT, 100000)]
         d.sys.held = false ∧ d.get R.GOOSE_COUNT_COUNT = d.tm.gPeriod ∧ ¬ (d.tm.gReg &&& d.get R.GOOSE_SEEN = d.tm.gReg ∧ d.tm.gFail = false) ∧ d.get R.GOOSE_STAT_STAGE = 0)
      ∧ (let d := with0 [(R.GOOSE_COUNT_COUNT, 100000), (R.GOOSE_SEEN, 1), (R.GOOSE_STAT_STAGE, 1)]
         d.tm.gReg &&& d.get R.GOOSE_SEEN = d.tm.gReg ∧ d.tm.gFail = false ∧ d.get R.GOOSE_STAT_STAGE = 1)
      ∧ d0.reaches .host R.GOOSE_PERIOD_PERIOD.addr = true ∧ d0.tm.rw1.contains (32 * R.GOOSE_PERIOD_PERIOD.addr) = false
      ∧ (d0.updTm (fun t => { t with rw1 := [32 * R.GOOSE_PERIOD_PERIOD.addr] })).tm.rw1.contains (32 * R.GOOSE_PERIOD_PERIOD.addr) = true := by decide

/-- A period in which ID 0 is missing raises stage 1 and clears SEEN; a second one makes the reset due (R423, R424). -/
theorem test_goose_close :
    ((after .goosePeriodClose (State.reset.on (with0 [(R.GOOSE_COUNT_COUNT, 100000)]))).map (fun u => (u.get R.GOOSE_STAT_STAGE, u.get R.GOOSE_MISSING, u.get R.GOOSE_COUNT_COUNT)),
      (after .goosePeriodClose (State.reset.on (with0 [(R.GOOSE_COUNT_COUNT, 100000), (R.GOOSE_STAT_STAGE, 1)]))).map (fun u => u.sys.due))
      = (some (1, 1, 0), some [.goose]) := by decide

/-- An occurrence of source 5 waits for the recorder, whose class 0 takes 4 words of M and asks for a flush. -/
def henDev (l : List (Fld × Nat)) (f : HenSt → HenSt) : Dev :=
  (with0 ([(R.HEN_RANGE_ADDR 0 0, 0x30000), (R.HEN_RANGE_CNT 0 0, 4), (R.HEN_CLS_FLUSH 0, 1)] ++ l)).updHen (fun h => f { h with occ := [⟨5, 0, false⟩] })

theorem witness_HenRecorder :
    (let d := henDev [] id
     d.sys.held = false ∧ d.hen.occ = ⟨5, 0, false⟩ :: [] ∧ (d.get (R.HEN_MAP 0)) / 16 ^ 5 % 16 = 0 ∧ 0x30000 ≤ d.get (R.HEN_RANGE_ADDR 0 0)
       ∧ d.get (R.HEN_RANGE_CNT 0 1) = 0 ∧ d.get (R.HEN_RANGE_CNT 0 2) = 0 ∧ d.get (R.HEN_RANGE_CNT 0 3) = 0 ∧ (∀ x < 4, d.eccAt .mark x = .ok)
       ∧ d.get R.HEN_SEQ + 1 < 2 ^ 32 ∧ ¬ (d.hen.floor + 512 < d.get R.HEN_SEQ + 1) ∧ d.flag (R.HEN_CLS_FLUSH 0) = true ∧ d.flag R.HEN_STAT_FLUSHING = false
       ∧ d.flag R.HEN_STAT_ERASING = false ∧ d.nv.closed = false)
      ∧ (let d := henDev [(R.HEN_SEQ, 512), (R.HEN_RANGE_ADDR 0 1, 0x40000)] id; d.hen.floor + 512 < d.get R.HEN_SEQ + 1 ∧ d.get (R.HEN_RANGE_ADDR 0 1) + 0 ≤ 0x40000)
      ∧ (let d := (with0 [(R.HEN_STAT_FLUSHING, 1), (R.HEN_SEQ, 1)]).updHen (fun h => { h with flushTo := 1 })
         d.sys.held = false ∧ d.flag R.HEN_STAT_FLUSHING = true ∧ d.hen.flushTo = d.hen.floor + 1 ∧ d.get R.HEN_SEQ < d.hen.floor + 1 + 512 ∧ d.hen.due = false ∧ d.ecc = []
           ∧ d.hen.flushDirect = false ∧ d.nv.pfRun = false ∧ d.sys.fatal = false ∧ d.sys.due = [])
      ∧ (let d := (with0 [(R.HEN_STAT_FLUSHING, 1), (R.HEN_SEQ, 1), (R.NV_VRANGE_FIRST 0, 0), (R.NV_VRANGE_LAST 0, 0xFFFF)]).updHen (fun h => { h with flushTo := 1, flushDirect := true })
         d.hen.flushDirect = true ∧ d.pageVerified (0x680000 / 128) = true)
      ∧ d0.writes .host R.HEN_CMD = true ∧ d0.flag R.HEN_STAT_VBUSY = false ∧ d0.get R.LC_STAT_STATE = 0
      ∧ (let d := d0.updHen (fun h => { h with verIdx := some (true, 0) })
         d.hen.verIdx = some (true, 0) ∧ d.key.root.value.isSome = true ∧ ofWords ((d.mws .henBuf 0 64).take 2) ≤ d.hen.oldSeq ∧ ((d.mws .henBuf 0 64).getD 6 0).getLsbD 13 = false)
      ∧ (let d := (d0.setMw .henBuf 0 1).updHen (fun h => { h with verIdx := some (true, 0) })
         ¬ (ofWords ((d.mws .henBuf 0 64).take 2) ≤ d.hen.oldSeq) ∧ ((d.mws .henBuf 0 64).getD 6 0).getLsbD 14 = false)
      ∧ (d0.updKey (fun k => { k with root := .absent })).key.root.value = none ∧ (with0 [(R.HEN_STAT_ERASING, 1)]).flag R.HEN_STAT_ERASING = true
      ∧ d0.writes .host (R.HEN_RANGE 0 0) = true ∧ 0x30 ≤ 48 ∧ 0x20000 ≤ 0x20000 ∧ ¬ (0x31 ≤ 48) ∧ d0.writes .host R.HEN_RSEL = true := by decide

theorem witness_HenRecorder_range1 : let d := henDev [(R.HEN_RANGE_ADDR 0 1, 0x40000)] id
    0x30000 ≤ d.get (R.HEN_RANGE_ADDR 0 1) ∧ d.get (R.HEN_RANGE_ADDR 0 1) + d.get (R.HEN_RANGE_CNT 0 1) ≤ 0x40000 ∧ (5 : Nat) < 128 := by decide

/-- A record is taken with SEQ 1 and starts a flush where its class says so (R428, R439). -/
theorem test_hen_flush :
    (val .henCapture (henDev [] id) R.HEN_SEQ, val .henCapture (henDev [] id) R.HEN_STAT_FLUSHING, val (.henFlush .host) d0 R.HEN_STAT_FLUSHING) = (some 1, some 1, some 1) := by decide

/-- A write-buffer entry of granule 0x1000, under `m`. -/
def bufDev (m : BitVec 64) (l : List (Fld × Nat)) : Dev := (with0 l).updNv (fun n => { n with buf := [⟨0x1000, m, 5⟩] })

theorem witness_NonvolatileStore :
    (let d := bufDev (BitVec.allOnes 64) []
     d.sys.held = false ∧ d.flag R.NV_STAT_VBUSY = false ∧ d.nv.buf = ⟨0x1000, BitVec.allOnes 64, 5⟩ :: [] ∧ (0x1000 : Nat) < 0x200000 ∧ d.eccAt .mram (4 * 0x1000) = .ok
       ∧ d.nv.pfRun = false ∧ d.sys.fatal = false ∧ d.sys.due = [])
      ∧ (let d := bufDev 0xFFFF [(R.NV_VRANGE_FIRST 0, 0), (R.NV_VRANGE_LAST 0, 0xFFFF)]
         (∃ x : Fin 8, d.get (R.NV_VRANGE_FIRST x.val) ≤ 0x1000 / 32 ∧ 0x1000 / 32 ≤ d.get (R.NV_VRANGE_LAST x.val)) ∧ (0xFFFF : BitVec 64) ≠ BitVec.allOnes 64)
      ∧ (let d := (bufDev 0xFFFF []).setEcc .mram 0x4000 .unc; d.eccAt .mram (4 * 0x1000) = .unc)
      ∧ (let d := d0.updNv (fun n => { n with vpage := some (7, 3) }); d.nv.vpage = some (7, 3) ∧ ([(0, .unc)] : List (Fin 32 × Ecc)).filter (fun x => x.2 != .ok) ≠ [])
      ∧ d0.writes .host R.NVR_CMD = true ∧ d0.flag R.NV_STAT_BUSY = false ∧ d0.nv.closed = false
      ∧ (let d := with0 [(R.NVR_ADDR_OFS, 0x600000), (R.NVR_BUF_ADDR, 0x30000), (R.NVR_LEN_LEN, 1018)]
         d.get R.NVR_ADDR_OFS % 128 = 0 ∧ 0x600000 ≤ d.get R.NVR_ADDR_OFS ∧ d.get R.NVR_ADDR_OFS + 128 * ((1018 + 6 + 127) / 128) + 1018 + 6 ≤ 0x680000
           ∧ 0x30000 ≤ d.get R.NVR_BUF_ADDR ∧ d.get R.NVR_BUF_ADDR + 1018 ≤ 0xC0000)
      ∧ 1018 < (with0 [(R.NVR_LEN_LEN, 1019)]).get R.NVR_LEN_LEN
      ∧ (let d := d0.updNv (fun n => { n with op := some ⟨false, 0x600000, 0x30000, 1⟩ }); d.nv.op = some ⟨false, 0x600000, 0x30000, 1⟩ ∧ d.ecc = [])
      ∧ d0.writes .host (R.WRING_CFG 0) = true
      ∧ (let d := with0 [(R.WRING_BASE_OFS 0, 0x600000), (R.WRING_SRC_ADDR 0, 0x30000)]
         d.get (R.WRING_BASE_OFS 0) % 4 = 0 ∧ 0x600000 ≤ d.get (R.WRING_BASE_OFS 0) ∧ 0x30000 ≤ d.get (R.WRING_SRC_ADDR 0)
           ∧ ∀ q : Fin 16, q ≠ 0 → d.flag (R.WRING_CFG_EN q.val) = false)
      ∧ (let d := d0.updWr 0 (fun x => { x with loading := true }); (d.wr 0).loading = true ∧ (d.wr 0).pend = false ∧ d.ecc = [])
      ∧ (let d := (with0 [(R.WRING_CFG_P 0, 2), (R.WRING_SRC_ADDR 0, 0x30000)]).updWr 0 (fun x => { x with loaded := true, trigs := 1 })
         (d.wr 0).trigs ≠ 0 ∧ (d.wr 0).busy = false ∧ (d.wr 0).loaded = true ∧ 0x30000 ≤ d.get (R.WRING_SRC_ADDR 0) ∧ d.get (R.WRING_SRC_ADDR 0) + d.get (R.WRING_CFG_P 0) ≤ 0x40000)
      ∧ (let d := d0.updWr 0 (fun x => { x with trigs := 1, pend := true }); (d.wr 0).loaded = false ∧ (d.wr 0).pend = true)
      ∧ (let d := (with0 [(R.WRING_CFG_P 0, 2), (R.WRING_BASE_OFS 0, 0x600000)]).updWr 0 (fun x => { x with busy := true, data := [1, 2] })
         (d.wr 0).busy = true ∧ (d.wr 0).pend = false ∧ (d.wr 0).data.length = d.get (R.WRING_CFG_P 0) ∧ d.get (R.WRING_CFG_P 0) ≤ 12
           ∧ d.get (R.WRING_BASE_OFS 0) + 4 * ((d.get (R.WRING_CFG_P 0) + 9) / 4) ≤ 0x800000) := by decide

/-- The words of a record copy at 0x600000 (no root key, so MRAM words stand as they are): SEQ `q`, length 1, payload 7, and a CRC that is `x` off. -/
def copyA (x : BitVec 16) : Dev :=
  let ws : List (BitVec 16) := [1, 0, 1, 0, 7]
  let c := crc32 (wordBytes ws)
  (ws ++ [BitVec.ofNat 16 c + x, BitVec.ofNat 16 (c / 65536)]).zipIdx.foldl (fun d p => d.setMw .mram (0x600000 + p.2) p.1)
    ((d0.updKey (fun k => { k with root := .absent })).updNv (fun n => { n with op := some ⟨false, 0x600000, 0x30000, 1⟩ }))

theorem witness_NonvolatileStore_copy :
    let d := copyA 0
    d.sys.held = false ∧ d.nv.op = some ⟨false, 0x600000, 0x30000, 1⟩ ∧ ofWords (d.nvWords (0x600000 + 1 + 4) 2) = crc32 (wordBytes (d.nvWords 0x600000 (1 + 4)))
      ∧ (d.nvWord (0x600000 + 2)).toNat = 1 ∧ (d.nvWord (0x600080 + 2)).toNat ≠ 1
      ∧ ofWords ((copyA 1).nvWords (0x600000 + 1 + 4) 2) ≠ crc32 (wordBytes ((copyA 1).nvWords 0x600000 (1 + 4))) := by decide

/-- A read delivers the one good copy, or fails with result 3 (R459). -/
theorem test_nvr_read :
    ((after (.nvrDone []) (State.reset.on (copyA 0))).map (fun u => (u.get R.NVR_RES_RESULT, u.mw .mark 0)),
      (after (.nvrDone []) (State.reset.on (copyA 1))).map (fun u => u.get R.NVR_RES_RESULT)) = (some (1, 7), some 3) := by decide

theorem witness_PowerFail :
    d0.flag R.NV_STAT_PFW = false ∧ d0.nv.armed = true ∧ d0.sys.held = false ∧ (with0 [(R.NV_STAT_PFW, 1)]).flag R.NV_STAT_PFW = true
      ∧ (let d := d0.updNv (fun n => { n with closed := true, pfRun := true })
         d.nv.pfRun = true ∧ d.nv.op = none ∧ (∀ x : Fin 16, (d.wr x.val).busy = false ∧ d.flag (R.WRING_CFG_FINAL x.val) = false) ∧ d.hen.occ = [] ∧ d.get R.HEN_SEQ = d.hen.floor
           ∧ d.flag R.HEN_STAT_FLUSHING = false ∧ d.ecc = [] ∧ d.nv.buf = [])
      ∧ (let d := d0.updNv (fun n => { n with closed := true }); d.nv.closed = true ∧ d.nv.pfRun = false ∧ d.hen.due = false) := by decide

/-- The power-fail sequence ends with an empty buffer, PFDONE and PF (Table 19.4). -/
theorem test_power_fail_done :
    (after .powerFailDone (State.reset.on (((bufDev 0xFFFF []).updKey (fun k => { k with root := .absent })).updNv (fun n => { n with closed := true, pfRun := true })))).map
      (fun u => (u.nv.buf.length, u.get R.NV_STAT_PFDONE, u.get R.NV_STAT_PF, u.mw .mram 0x4000)) = some (0, 1, 1, 5) := by decide

/-- The backup domain with the interface open and its oscillator running. -/
def backup (l : List (Fld × Nat)) (f : BkSt → BkSt) : Dev := (with0 ([(R.BK_IF_LOCKED, 0), (R.BK_STAT_OSC_RUN, 1)] ++ l)).updBk f

theorem witness_BackupClock :
    State.reset.pending = [] ∧ (backup [] id).flag R.BK_STAT_OSC_RUN = true ∧ (backup [] (fun b => { b with acc := 0 })).bk.acc + 32768 < 1000000000
      ∧ (let d := backup [(R.BK_WAKE_EN, 1)] (fun b => { b with acc := 999967232, edges := none, trim := 1, wakePend := true })
         1000000000 ≤ d.bk.acc + 32768 ∧ d.bk.edges ≠ some 1 ∧ 0 < d.bk.trim ∧ d.bk.wakePend = true ∧ d.flag R.BK_WAKE_EN = true)
      ∧ (backup [] id).reaches .host R.BK_CMD.addr = true ∧ (backup [] id).flag R.BK_IF_LOCKED = false ∧ (backup [] id).flag R.BK_IF_BUSY = false
      ∧ (backup [(R.BK_IF_LOCKED, 1)] id).flag R.BK_IF_LOCKED = true
      ∧ (let d := backup [(R.BK_SET_SEC, 100), (R.BK_WAKE_EN, 1), (R.BK_NEXT_SEC, 50)] (fun b => { b with edges := some 2, sec := 0, sub := 0 })
         d.bk.edges = some 2 ∧ d.flag R.BK_WAKE_EN = true ∧ d.bk.sec.toNat * 32768 + d.bk.sub < d.get R.BK_SET_SEC * 32768 + d.get R.BK_SET_SUB_TICKS
           ∧ d.get R.BK_NEXT_SEC * 32768 + d.get R.BK_NEXT_SUB_TICKS ≤ d.get R.BK_SET_SEC * 32768 + d.get R.BK_SET_SUB_TICKS)
      ∧ (let d := backup [(R.BK_WAKE_EN, 1), (R.BK_NEXT_SUB_TICKS, 1)] (fun b => { b with edges := some 2, sec := 0, sub := 0 })
         d.get R.BK_NEXT_SEC * 32768 + d.get R.BK_NEXT_SUB_TICKS = (d.bk.sec.toNat * 32768 + d.bk.sub + 1) % 2 ^ 47)
      ∧ (let d := backup [(R.BK_WAKE_EN, 1), (R.BK_NEXT_SEC, 0), (R.BK_NEXT_SUB_TICKS, 0)] (fun b => { b with wakePend := false, sec := 0, sub := 0 })
         d.bk.wakePend = false ∧ (d.bk.sec.toNat * 32768 + d.bk.sub + 2 ^ 47 - (d.get R.BK_NEXT_SEC * 32768 + d.get R.BK_NEXT_SUB_TICKS)) % 2 ^ 47 < 2 ^ 46)
      ∧ d0.sys.held = false ∧ d0.d3hot = false ∧ d0.flag R.BOOT_STAT_DEAD = false ∧ d0.hostMay 6 false = true ∧ (backup [] (fun b => { b with n := 2 ^ 20 })).bk.n = 2 ^ 20
      ∧ (let d := backup [(R.BK_IF_LOCKED, 1), (R.BK_STAT_WAKE, 1)] (fun b => { b with vbat := false }); d.bk.vbat = false ∧ d.flag R.BK_STAT_WAKE = true)
      ∧ (let d := backup [] (fun b => { b with vbat := true, bbofNew := true }); d.bk.vbat = true ∧ d.bk.bbofNew = true) := by decide

/-- SET loads the time at its second edge (R476). -/
theorem test_bk_load :
    (after .bkLoad (State.reset.on (backup [(R.BK_SET_SEC, 100), (R.BK_IF_BUSY, 1)] (fun b => { b with edges := some 2 })))).map
      (fun u => (u.bk.sec, u.get R.BK_IF_BUSY, u.bk.edges)) = some (100, 0, none) := by decide

theorem witness_KeysAndLifecycle :
    d0.reaches .host R.LC_CMD.addr = true ∧ d0.get R.LC_STAT_STATE = 0 ∧ ¬ ((1 : Fin 4).val ≤ d0.get R.LC_STAT_STATE) ∧ d0.flag R.SETUP_LOCK_LOCK = false
      ∧ d0.flag R.KE_STAT_BUSY = false ∧ d0.flag R.LC_STAT_PEND = false ∧ (0 : Fin 4).val ≤ d0.get R.LC_STAT_STATE
      ∧ d0.sys.held = false ∧ (d0.updKey (fun k => { k with op := some (.lc 3) })).key.op = some (.lc (3 : Fin 4).val) ∧ d0.key.op = none
      ∧ d0.reaches .host R.KS_PROG.addr = true
      ∧ (let d := with0 [(R.LC_STAT_STATE, 1), (R.KS_STATE 1, 0)]
         d.reaches .host R.KS_PROG.addr = true ∧ d.get R.LC_STAT_STATE = 1 ∧ d.get (R.KS_STATE 1) / 4 ^ 15 % 4 = 0 ∧ State.reset.fuses.openB.slot 31 = FuseField.empty
           ∧ (d.updKey (fun k => { k with op := some (.slot 31 5 7) })).key.op = some (.slot (31 : Fin 32).val 5 7))
      ∧ d0.reaches .host R.PS_BURN.addr = true ∧ d0.get R.PS_POL / 2 ^ 29 = 0 ∧ State.reset.fuses.protA = FuseField.empty
      ∧ (d0.updKey (fun k => { k with op := some (.prot 9) })).key.op = some (.prot 9) ∧ d0.flag R.LC_STAT_DBG_EN = false
      ∧ (let d := with0 [(R.LC_STAT_STATE, 1), (R.PS_POL, 1)]
         ¬ (d.get R.LC_STAT_STATE = 0 ∨ d.get R.PS_POL % 4 = 0 ∨ (d.get R.LC_STAT_STATE = 3 ∧ d.get R.PS_POL % 4 = 1)) ∧ d.get R.PS_POL % 4 = 1 ∧ d.key.dbg.value.isSome = true
           ∧ d.key.refusedAt = none)
      ∧ (let d := with0 [(R.LC_STAT_STATE, 1), (R.PS_POL, 2)]
         ¬ (d.get R.LC_STAT_STATE = 0 ∨ d.get R.PS_POL % 4 = 0 ∨ (d.get R.LC_STAT_STATE = 3 ∧ d.get R.PS_POL % 4 = 1)) ∧ d.get R.PS_POL % 4 ≠ 1) := by decide

theorem witness_KeysAndLifecycle_offer :
    let d := d0.updKey (fun k => { k with challenge := some 3 })
    d.key.challenge = some 3 ∧ ∃ key, d.dbgKey = some key := ⟨by decide, _, rfl⟩

/-- A transition to OPEN burns the word of OPEN and is pending until the next reset (R486, R487). -/
theorem test_lc_burn :
    (match exec .lcBurnDone (State.reset.on (d0.updKey (fun k => { k with op := some (.lc 1) }))) with
      | .next t => (t.fuses.lc, t.dev.get R.LC_STAT_PEND, t.dev.get R.LC_STAT_STATE)
      | _ => (0, 0, 9)) = (0x0A50, 1, 0) := by decide

/-- The device with a reset due for `cs`, a pin low or not. -/
def dueDev (cs : List Cause) (low held : Bool) : Dev := { d0 with sys := { d0.sys with due := cs, pinLow := low, held := held } }

theorem witness_ResetsAndBoot :
    d0.sys.pinLow = false ∧ d0.sys.held = false ∧ d0.sys.due = [] ∧ d0.sys.fenceLow = false ∧ d0.hif.resetDue = false
      ∧ (d0.updHif (fun h => { h with resetDue := true })).hif.resetDue = true
      ∧ (let d := dueDev [.pin, .goose] true false
         d.sys.due ≠ [] ∧ d.nv.pfRun = false ∧ d.sys.due ≠ [.powerOn] ∧ d.sys.pinLow = true ∧ d.sys.due.contains .goose = true ∧ d.sys.due.contains .host = false
           ∧ d.nv.op = none ∧ (∀ x : Fin 16, (d.wr x.val).busy = false) ∧ d.hen.occ = [] ∧ d.get R.HEN_SEQ = d.hen.floor ∧ d.flag R.HEN_STAT_FLUSHING = false ∧ d.nv.buf = []
           ∧ d.nv.vpage = none ∧ d.hif.hoCommit = false ∧ d.key.op = none)
      ∧ (let d := dueDev [.host] false false; ¬ (d.sys.pinLow = true ∨ d.sys.fenceLow = true ∨ d.sys.boRails ≠ 0) ∧ d.sys.due ≠ [])
      ∧ (let d := { dueDev [.machineCheck] true false with sys := { (dueDev [.machineCheck] true false).sys with fatalClock := true } }
         d.sys.due.contains .machineCheck = true ∧ d.sys.fatalClock = true ∧ d.sys.due.contains .brownout = false ∧ d.sys.due ≠ [.powerOn])
      ∧ (1 : BitVec 6) ≠ 0 ∧ (dueDev [] true true).sys.held = true
      ∧ ({ dueDev [] true true with sys := { (dueDev [] true true).sys with pinLow := false } } : Dev).mustHold = false
      ∧ State.reset.fuses.protA.prog = false ∧ d0.mw .mram 0x500000 ≠ 0x5746 ∧ d0.mw .mram 0x580000 ≠ 0x5746
      ∧ (with0 [(R.BOOT_STAT_DEAD, 1)]).flag R.BOOT_STAT_DEAD = true ∧ d0.flag R.LC_STAT_DBG_EN = false := by decide

/-- A brown-out latches its rail, holds the device, and sets its cause (R426, R524). -/
theorem test_brown_out :
    (after (.brownOut 4 ⟨0, 0, []⟩) State.reset).map (fun u => (u.sys.held, u.get R.SUP_STAT % 64, u.get R.RESET_CAUSE_BROWNOUT, u.sys.boRails)) = some (true, 4, 1, 4) := by decide
/-- An internal reset with a pin still low holds the device with the bits of its sources set (R426, R503). -/
theorem test_internal_reset :
    (after (.internalReset 0 ⟨0, false, []⟩) (State.reset.on (dueDev [.pin, .goose] true false))).map
      (fun u => (u.sys.held, u.sys.due.length, u.get R.RESET_CAUSE_PIN, u.get R.RESET_CAUSE_GOOSE)) = some (true, 0, 1, 1) := by decide
/-- A command that waits for the end of the handover. -/
def handing (f : HifSt → HifSt) (l : List (Fld × Nat)) : Dev := (with0 l).updHif (fun h => f { h with hoRun := true, running := [⟨0, cmd 0xC, 0, none, .handover, none, true⟩] })

theorem witness_FirmwareHandover :
    (let d := handing id [(R.GOOSE_SEEN, 1), (R.HIF_STAT_RDY, 1)]
     d.sys.held = false ∧ d.hif.hoRun = true ∧ d.hif.hoCommit = false ∧ (d.get R.GOOSE_SEEN).testBit 0 = true ∧ (∀ e ∈ d.hif.running, e.wait = .handover) ∧ d.flag R.HIF_STAT_RDY = true)
      ∧ (let d := handing id [(R.HIF_STAT_RDY, 0)]; (d.get R.GOOSE_SEEN).testBit 0 = false ∧ d.flag R.HIF_STAT_RDY = false)
      ∧ (let d := handing (fun h => { h with hoCommit := true }) []
         d.hif.hoCommit = true ∧ d.ecc = [] ∧ d.nv.buf = [] ∧ d.hif.running = [⟨0, cmd 0xC, 0, none, .handover, none, true⟩])
      ∧ d0.writes .host R.BOOT_ARUN = true ∧ d0.hif.hoRun = false := by decide

/-- The commit point exchanges the Bellwether's banks and sets PEND_BOOT (R517). -/
theorem test_commit_point :
    (after .fwCommitPoint (State.reset.on ((handing (fun h => { h with hoCommit := true }) []).updKey (fun k => { k with root := .absent })))).map
      (fun u => (u.sys.bellBank, u.get R.FW_STAT_PEND_BOOT, u.hif.running.length, u.flag ((R.EV_RAISED 0).bit 15))) = some (true, 1, 0, true) := by decide

end Sys2Proof.Tests
end

section
/-! PROOFS. Errors (R22 to R30): what raising an event changes, the start of the fatal sequence, and the patrol scrubber. A frame
says what an operation leaves alone. -/

namespace Sys2Proof.Machine

/-! ## A frame: registers named, wake latches and waiting events -/

/-- From `d` to `u` no register outside `as`, no memory word, no system state, no time and no core register changes. -/
structure Dev.Frame (as : List Nat) (d u : Dev) : Prop where
  rd : ∀ a, a ∉ as → u.rd a = d.rd a
  time : u.time = d.time
  sys : u.sys = d.sys
  mem : u.mem = d.mem
  set0 : ∀ x : CoreId, (u.core x).s0 = (d.core x).s0
  set1 : ∀ x : CoreId, (u.core x).s1 = (d.core x).s1

namespace Dev.Frame

variable {as : List Nat} {d u v : Dev}

theorem refl : Dev.Frame as d d := ⟨fun _ _ => rfl, rfl, rfl, rfl, fun _ => rfl, fun _ => rfl⟩

theorem trans (h : Dev.Frame as d u) (k : Dev.Frame as u v) : Dev.Frame as d v where
  rd a ha := (k.rd a ha).trans (h.rd a ha)
  time := k.time.trans h.time
  sys := k.sys.trans h.sys
  mem := k.mem.trans h.mem
  set0 x := (k.set0 x).trans (h.set0 x)
  set1 x := (k.set1 x).trans (h.set1 x)

/-- A field of a register outside the list reads as before. -/
theorem get (h : Dev.Frame as d u) {f : Fld} (hf : f.addr ∉ as) : u.get f = d.get f := by
  rw [Dev.get, Dev.get, h.rd _ hf]

theorem put {f : Fld} (hf : f.addr ∈ as) (n : Nat) : Dev.Frame as d (d.put f n) where
  rd a ha := Dev.rd_put_other d f (a := a) (fun e => ha (by rwa [e])) n
  time := rfl
  sys := rfl
  mem := rfl
  set0 _ := rfl
  set1 _ := rfl

theorem satAdd {f : Fld} (hf : f.addr ∈ as) (n : Nat) : Dev.Frame as d (d.satAdd f n) := put hf _

/-- A change of a core that leaves its register sets alone. -/
theorem updCore (c : CoreId) {f : CoreSt → CoreSt} (h : ∀ k, (f k).s0 = k.s0 ∧ (f k).s1 = k.s1) :
    Dev.Frame as d (d.updCore c f) where
  rd _ _ := rfl
  time := rfl
  sys := rfl
  mem := rfl
  set0 x := by
    by_cases e : c = x
    · rw [← e, Dev.core_updCore_same, (h _).1]
    · rw [Dev.core_updCore_other d e]
  set1 x := by
    by_cases e : c = x
    · rw [← e, Dev.core_updCore_same, (h _).2]
    · rw [Dev.core_updCore_other d e]

/-- What the Hen holds is outside the frame, and so is what the NV store and the host interface hold, and what leaves. -/
theorem withHen (x : HenSt) : Dev.Frame as d { d with hen := x } := ⟨fun _ _ => rfl, rfl, rfl, rfl, fun _ => rfl, fun _ => rfl⟩

theorem withNv (x : NvSt) : Dev.Frame as d { d with nv := x } := ⟨fun _ _ => rfl, rfl, rfl, rfl, fun _ => rfl, fun _ => rfl⟩

theorem withHif (x : HifSt) : Dev.Frame as d { d with hif := x } := ⟨fun _ _ => rfl, rfl, rfl, rfl, fun _ => rfl, fun _ => rfl⟩

theorem emit (o : Out) : Dev.Frame as d (d.emit o) := ⟨fun _ _ => rfl, rfl, rfl, rfl, fun _ => rfl, fun _ => rfl⟩

/-- A change of the system state, made on both sides, keeps the frame. -/
theorem withSys (h : Dev.Frame as d u) (x : SysSt) : Dev.Frame as { d with sys := x } { u with sys := x } :=
  ⟨h.rd, h.time, rfl, h.mem, h.set0, h.set1⟩

theorem foldl {β : Type} {f : Dev → β → Dev} (h : ∀ d b, Dev.Frame as d (f d b)) (l : List β) :
    ∀ d, Dev.Frame as d (l.foldl f d) := by
  induction l with
  | nil => intro d; exact refl
  | cons b l ih => intro d; exact (h d b).trans (ih _)

end Dev.Frame

/-! ## The parts of an occurrence -/

theorem CoreSt.addPend_sets (e : PendEv) (k : CoreSt) : (k.addPend e).s0 = k.s0 ∧ (k.addPend e).s1 = k.s1 := by
  unfold CoreSt.addPend
  split <;> exact ⟨rfl, rfl⟩

theorem Dev.sendMsix_frame (as : List Nat) (v : Nat) (d : Dev) : Dev.Frame as d (d.sendMsix v) := by
  unfold Dev.sendMsix
  split
  · split
    · exact .withHif _
    · exact .emit _
  · exact .refl

/-- The registers that an occurrence of source `s` may write besides its flag and its timestamp: the host's pending bit, and
the Hen's counts of suppressed and of lost occurrences. -/
def raiseRegs (s : Nat) : List Nat := [(R.EV_HPEND (s / 32)).addr, R.HEN_SUPP.addr, R.HEN_STAT.addr]

theorem Dev.henOccur_frame (s n : Nat) (ts : BitVec 64) (sp : Bool) (d : Dev) :
    Dev.Frame (raiseRegs s) d (d.henOccur n ts sp) := by
  unfold Dev.henOccur
  split
  · dsimp only
    split
    · exact .satAdd (by simp [raiseRegs]) 1
    · split
      · exact (Dev.Frame.satAdd (by simp [raiseRegs, R.HEN_STAT, R.HEN_STAT_LOST_CNT]) 1).trans (.withHen _)
      · exact .withHen _
  · exact .refl

theorem Dev.routeTile_frame (as : List Nat) (s : Nat) (ts : BitVec 64) (t : Fin 16) (d : Dev) :
    Dev.Frame as d (d.routeTile s ts t) := by
  unfold Dev.routeTile
  split
  · refine .updCore _ (fun k => ?_)
    dsimp only
    split
    · exact CoreSt.addPend_sets _ _
    · exact ⟨rfl, rfl⟩
  · exact .refl

/-- The flag and the timestamp of source `s` (R416). -/
def Dev.stamped (d : Dev) (s : Nat) (ts : BitVec 64) : Dev :=
  (d.put ((R.EV_RAISED (s / 32)).bit (s % 32)) 1).put (R.EV_TSL s) ts.toNat

theorem Dev.stamped_frame (s : Nat) (ts : BitVec 64) (d : Dev) :
    Dev.Frame [(R.EV_RAISED (s / 32)).addr, (R.EV_TSL s).addr] d (d.stamped s ts) :=
  (Dev.Frame.put (f := (R.EV_RAISED (s / 32)).bit (s % 32)) (by simp [Fld.bit]) 1).trans
    (.put (f := R.EV_TSL s) (by simp) _)

theorem Dev.raiseBase_frame (s : Nat) (ts : BitVec 64) (sp : Bool) (d : Dev) :
    Dev.Frame (raiseRegs s) (d.stamped s ts) (d.raiseBase s ts sp) := by
  have hstamp : (d.put ⟨(R.EV_RAISED (s / 32)).addr, s % 32, s % 32⟩ 1).put (R.EV_TSL s) ts.toNat = d.stamped s ts := by
    simp only [Dev.stamped, Fld.bit, R.EV_RAISED, Nat.zero_add]
  unfold Dev.raiseBase
  simp only [hstamp]
  have hwake : Dev.Frame (raiseRegs s) (d.stamped s ts) ((d.stamped s ts).updCore 16 (fun k => { k with wake := true })) :=
    .updCore 16 (fun _ => ⟨rfl, rfl⟩)
  refine (hwake.trans ?_).trans ((Dev.henOccur_frame s s ts _ _).trans (.foldl (fun e k => ?_) _ _))
  · split
    · exact (Dev.Frame.put (f := ⟨(R.EV_HPEND (s / 32)).addr, s % 32, s % 32⟩) (by simp [raiseRegs]) 1).trans
        (Dev.sendMsix_frame _ _ _)
    · exact .refl
  · dsimp only
    split
    · exact .withNv _
    · exact .refl

/-- An occurrence changes its flag, its timestamp, and what the frame lists. -/
theorem Dev.raiseRouted_frame (s : Nat) (ts : BitVec 64) (sp : Bool) {d : Dev} (h : d.sys.held = false) :
    Dev.Frame (raiseRegs s) (d.stamped s ts) (d.raiseRouted s ts sp) := by
  rw [Dev.raiseRouted, if_neg (by simp [h])]
  exact (d.raiseBase_frame s ts sp).trans (.foldl (fun e t => Dev.routeTile_frame _ s ts t e) _ _)

/-! ## The log of a machine check (R30) -/

/-- A log writes MC_STATUS and MC_ADDR alone. -/
theorem Dev.mcLog_frame (kind unit addr : Nat) (d : Dev) :
    Dev.Frame [R.MC_STATUS.addr, R.MC_ADDR.addr] d (d.mcLog kind unit addr) := by
  unfold Dev.mcLog
  split
  · exact .put (f := R.MC_STATUS_MULTI) (by decide) 1
  · exact (((Dev.Frame.put (f := R.MC_STATUS_KIND) (by decide) kind).trans
      (.put (f := R.MC_ADDR_HERD) (by decide) _)).trans (.put (f := R.MC_ADDR_MEMBER) (by decide) _)).trans
      (.put (f := R.MC_ADDR_ADDR) (by decide) addr)

theorem Dev.mcLog_free {d : Dev} (h : d.mcHeld = false) (kind unit addr : Nat) :
    (d.mcLog kind unit addr).get R.MC_STATUS_KIND = kind % 8 ∧ (d.mcLog kind unit addr).get R.MC_ADDR_ADDR = addr % 2 ^ 24 := by
  rw [Dev.mcLog, if_neg (by simp [h])]
  constructor
  · iterate 3 rw [Dev.get_put_other _ _ _ ⟨by decide, by decide⟩ (by decide) (.inl (by decide))]
    exact Dev.get_put_same _ _ ⟨by decide, by decide⟩ _
  · exact Dev.get_put_same _ _ ⟨by decide, by decide⟩ _

theorem Dev.mcLog_held {d : Dev} (h : d.mcHeld = true) (kind unit addr : Nat) :
    (d.mcLog kind unit addr).get R.MC_STATUS_MULTI = 1 ∧ (d.mcLog kind unit addr).get R.MC_STATUS_KIND = d.get R.MC_STATUS_KIND
      ∧ (d.mcLog kind unit addr).rd R.MC_ADDR.addr = d.rd R.MC_ADDR.addr := by
  rw [Dev.mcLog, if_pos h]
  exact ⟨Dev.get_put_same _ _ ⟨by decide, by decide⟩ _,
    Dev.get_put_other _ _ _ ⟨by decide, by decide⟩ (by decide) (.inr (.inr (by decide))) _,
    Dev.rd_put_other _ _ (by decide) _⟩

/-! ## The first fatal machine check (R29, Table 1.6) -/

theorem Dev.pairNotice_frame (as : List Nat) (d : Dev) : Dev.Frame as d d.pairNotice := by
  unfold Dev.pairNotice
  split
  · exact .emit _
  · exact .refl

theorem Dev.pairNotice_fio (d : Dev) : d.pairNotice.fio = d.fio := by
  unfold Dev.pairNotice
  split <;> rfl

/-- The device with the check logged, before event 1. -/
def Dev.fatalLogged (kind unit addr : Nat) (d : Dev) : Dev :=
  { d.mcLog kind unit addr with sys := { d.sys with fatalLog := d.sys.fatalLog || !d.mcHeld } }

theorem Dev.fatalMc_first {d : Dev} (h : d.sys.fatal = false) (kind unit addr : Nat) :
    d.fatalMc kind unit addr = ((d.fatalLogged kind unit addr).raiseRouted 1 d.time true).fatalStart := by
  have hl := d.mcLog_frame kind unit addr
  simp only [Dev.fatalMc, hl.sys, hl.time, h, Bool.not_false, if_true, Dev.fatalLogged]

theorem Dev.rd_withSys (d : Dev) (x : SysSt) (a : Nat) : ({ d with sys := x } : Dev).rd a = d.rd a := rfl

/-- The system state in which the fatal sequence has begun. -/
def SysSt.fatalBegins (y : SysSt) : SysSt := { y with fatal := true, due := y.due ++ [.machineCheck], outsOff := true }

/-- The start of the fatal sequence, but for the outputs, changes system state alone. -/
theorem Dev.fatalStart_frame (d : Dev) :
    Dev.Frame [] { d with sys := d.sys.fatalBegins } d.fatalStart :=
  have houts : Dev.Frame [] { d with sys := d.sys.fatalBegins } { d with sys := d.sys.fatalBegins }.fioAllOff :=
    ⟨fun _ _ => rfl, rfl, rfl, rfl, fun _ => rfl, fun _ => rfl⟩
  houts.trans (Dev.pairNotice_frame [] _)

/-- What the start of the fatal sequence leaves of `d`, from the device `e` with the check logged and event 1 raised. -/
structure Dev.FatalStarted (d e t : Dev) : Prop where
  fatal : t.sys.fatal = true
  due : t.sys.due = d.sys.due ++ [.machineCheck]
  outs : t.sys.outsOff = true ∧ t.fio.on = 0
  raised : t.flag ((R.EV_RAISED 0).bit 1) = true
  stamp : t.get (R.EV_TSL 1) = d.time.toNat % 2 ^ 32
  log : ∀ a ∈ [R.MC_STATUS.addr, R.MC_ADDR.addr], t.rd a = e.rd a
  sets : ∀ x : CoreId, (t.core x).s0 = (d.core x).s0 ∧ (t.core x).s1 = (d.core x).s1
  mem : t.mem = d.mem

/-- The flag and the timestamp of event 1 after it was raised. -/
theorem Dev.raised_one {d u : Dev} {ts : BitVec 64} (h : Dev.Frame (raiseRegs 1) (d.stamped 1 ts) u) :
    u.flag ((R.EV_RAISED 0).bit 1) = true ∧ u.get (R.EV_TSL 1) = ts.toNat % 2 ^ 32 := by
  constructor
  · have hp : (d.stamped 1 ts).get ((R.EV_RAISED 0).bit 1) = 1 :=
      (Dev.get_put_other _ _ _ ⟨by decide, by decide⟩ (by decide) (.inl (by decide)) _).trans
        (Dev.get_put_same d _ ⟨by decide, by decide⟩ _)
    rw [Dev.flag, h.get (by decide), hp]
    rfl
  · rw [h.get (by decide)]
    exact Dev.get_put_same _ _ ⟨by decide, by decide⟩ _

/-- The first fatal machine check logs itself and begins the fatal sequence. -/
theorem Dev.fatalMc_starts {d : Dev} (hh : d.sys.held = false) (hf : d.sys.fatal = false) (kind unit addr : Nat) :
    d.FatalStarted (d.mcLog kind unit addr) (d.fatalMc kind unit addr) := by
  rw [Dev.fatalMc_first hf]
  have hl := (d.mcLog_frame kind unit addr).withSys { d.sys with fatalLog := d.sys.fatalLog || !d.mcHeld }
  have hs := Dev.stamped_frame 1 d.time (d.fatalLogged kind unit addr)
  have hr := Dev.raiseRouted_frame 1 d.time true (d := d.fatalLogged kind unit addr) hh
  have hone := Dev.raised_one hr
  have hlog : ∀ a, (d.fatalLogged kind unit addr).rd a = (d.mcLog kind unit addr).rd a := Dev.rd_withSys _ _
  rw [← Dev.fatalLogged] at hl
  generalize (d.fatalLogged kind unit addr).raiseRouted 1 d.time true = r at *
  generalize (d.fatalLogged kind unit addr).stamped 1 d.time = p at *
  generalize d.fatalLogged kind unit addr = l at *
  have hsys : r.sys = { d.sys with fatalLog := d.sys.fatalLog || !d.mcHeld } := hr.sys.trans (hs.sys.trans hl.sys)
  have hn := Dev.fatalStart_frame r
  constructor
  · rw [hn.sys]; rfl
  · rw [hn.sys, hsys]; rfl
  · exact ⟨by rw [hn.sys]; rfl, by rw [Dev.fatalStart, Dev.pairNotice_fio]; rfl⟩
  · rw [Dev.flag, hn.get List.not_mem_nil]
    exact hone.1
  · rw [hn.get List.not_mem_nil]
    exact hone.2
  · intro a ha
    have hraise : a ∉ raiseRegs 1 := by revert a; decide
    have hstamp : a ∉ [(R.EV_RAISED (1 / 32)).addr, (R.EV_TSL 1).addr] := by revert a; decide
    rw [hn.rd a List.not_mem_nil, Dev.rd_withSys, hr.rd a hraise, hs.rd a hstamp, hlog]
  · exact fun x => ⟨(hn.set0 x).trans ((hr.set0 x).trans ((hs.set0 x).trans (hl.set0 x))),
      (hn.set1 x).trans ((hr.set1 x).trans ((hs.set1 x).trans (hl.set1 x)))⟩
  · exact hn.mem.trans (hr.mem.trans (hs.mem.trans hl.mem))

/-! ## Check bits -/

/-- The worse of two errors, as the statements write it. -/
theorem Ecc.worse_eq (x y : Ecc) :
    Ecc.worse x y = if x = .unc ∨ y = .unc then .unc else if x = .corr ∨ y = .corr then .corr else .ok := by
  cases x <;> cases y <;> rfl

/-- No other array has the number of a tile's instruction cache. -/
theorem arrCode_ne_icache {b : Arr} {t : Fin 16} (h : b ≠ .icache t) : arrCode b ≠ arrCode (.icache t) := by
  intro e
  cases b with
  | icache u => exact h (congrArg Arr.icache (Fin.ext (by simpa [arrCode] using e)))
  | bell b | iHalf b | qHalf b | prog b => cases b <;> simp [arrCode, b2n] at e <;> omega
  | _ => simp only [arrCode] at e; omega

theorem granKey_ne_icache {b : Arr} {t : Fin 16} (h : b ≠ .icache t) (i j : Nat) : granKey b i ≠ granKey (.icache t) j :=
  fun e => arrCode_ne_icache h (memKey_inj e).2

/-- Clearing the errors of granules of one array changes nothing but check bits. -/
theorem Dev.foldl_setEcc_frame (a : Arr) (f : Nat → Nat) (l : List Nat) : ∀ d : Dev,
    l.foldl (fun d i => d.setEcc a (f i) .ok) d = { d with ecc := (l.foldl (fun d i => d.setEcc a (f i) .ok) d).ecc } := by
  induction l with
  | nil => intro d; rfl
  | cons i l ih => intro d; rw [List.foldl_cons, ih]; rfl

theorem Dev.foldl_setEcc_other (a b : Arr) (f : Nat → Nat) (o : Nat) (l : List Nat) (h : ∀ i, granKey b o ≠ granKey a (f i)) :
    ∀ d : Dev, (l.foldl (fun d i => d.setEcc a (f i) .ok) d).eccAt b o = d.eccAt b o := by
  induction l with
  | nil => intro d; rfl
  | cons i l ih => intro d; rw [List.foldl_cons, ih, Dev.eccAt_setEcc_other d (h i)]

/-- A granule that is good stays so, whichever granules are cleared. -/
theorem Dev.foldl_setEcc_ok {a b : Arr} {f : Nat → Nat} {o : Nat} (l : List Nat) :
    ∀ d : Dev, d.eccAt b o = .ok → (l.foldl (fun d i => d.setEcc a (f i) .ok) d).eccAt b o = .ok := by
  induction l with
  | nil => intro d h; exact h
  | cons i l ih =>
    intro d h
    refine ih _ ?_
    by_cases e : granKey b o = granKey a (f i)
    · simp only [Dev.eccAt, Dev.setEcc, e, Store.get_set_same]
    · rw [Dev.eccAt_setEcc_other d e, h]

/-- A granule among those cleared is good. -/
theorem Dev.foldl_setEcc_mem {a : Arr} {f : Nat → Nat} {i : Nat} (l : List Nat) :
    ∀ d : Dev, i ∈ l → (l.foldl (fun d i => d.setEcc a (f i) .ok) d).eccAt a (f i) = .ok := by
  induction l with
  | nil => intro d h; cases h
  | cons j l ih =>
    intro d h
    rcases List.mem_cons.mp h with rfl | h
    · exact Dev.foldl_setEcc_ok l _ (Dev.eccAt_setEcc_same d a _ _)
    · exact ih _ h

/-! ## The refill of a cache line (R120) -/

theorem Dev.mws_congr {d e : Dev} (h : e.mem = d.mem) (a : Arr) (n : Nat) : ∀ o, e.mws a o n = d.mws a o n := by
  induction n with
  | zero => intro o; rfl
  | succ n ih => intro o; simp only [Dev.mws, Dev.mw, h, ih]

theorem Dev.progArr_congr {d e : Dev} (h : e.regs = d.regs) : e.progArr = d.progArr := by
  simp only [Dev.progArr, Dev.get, Dev.rd, h]

/-- The device with the granules of the place of line `ln` good. -/
def Dev.placeGood (d : Dev) (t : Fin 16) (ln : Nat) : Dev :=
  (List.range 8).foldl (fun d i => d.setEcc (.icache t) (32 * (ln % 128) + 4 * i) .ok) d

theorem Dev.placeGood_frame (d : Dev) (t : Fin 16) (ln : Nat) : d.placeGood t ln = { d with ecc := (d.placeGood t ln).ecc } :=
  Dev.foldl_setEcc_frame _ _ _ d

theorem Dev.placeGood_other (d : Dev) {t : Fin 16} {b : Arr} (h : b ≠ .icache t) (ln o : Nat) :
    (d.placeGood t ln).eccAt b o = d.eccAt b o :=
  Dev.foldl_setEcc_other _ _ _ _ _ (fun _ => granKey_ne_icache h _ _) d

/-- Every granule of the place is good. -/
theorem Dev.placeGood_gran (d : Dev) (t : Fin 16) {ln g : Nat} (h : ln % 128 = g / 8) :
    (d.placeGood t ln).eccAt (.icache t) (g * 4) = .ok := by
  have hg : g * 4 = 32 * (ln % 128) + 4 * (g % 8) := by omega
  rw [hg]
  exact Dev.foldl_setEcc_mem (f := fun i => 32 * (ln % 128) + 4 * i) _ d (List.mem_range.mpr (Nat.mod_lt _ (by decide)))

/-- A line whose words in program memory hold no error is filled with them. -/
theorem Dev.icFill_ok {d : Dev} (t : Fin 16) {ln : Nat} (h : ∀ i < 32, d.eccAt d.progArr (32 * ln + i) = .ok) :
    d.icFill t ln = .ok { d.placeGood t ln with
      icache := Store.set (fun _ => default) d.icache (icKey t ln) { line := ln, words := d.mws d.progArr (32 * ln) 32 } } := by
  have hg : d.readGrans (d.lineGrans ln) = ([], d) := by
    refine readGrans_ok _ (fun g hg => ?_)
    obtain ⟨i, hi, rfl⟩ := List.mem_map.mp hg
    have hi8 := List.mem_range.mp hi
    rw [show (8 * ln + i) * 4 = 32 * ln + 4 * i by omega]
    exact h _ (by omega)
  have hf := d.placeGood_frame t ln
  have hp : (d.placeGood t ln).progArr = d.progArr := Dev.progArr_congr (by rw [hf])
  have hm : (d.placeGood t ln).mem = d.mem := by rw [hf]
  have hi : (d.placeGood t ln).icache = d.icache := by rw [hf]
  simp only [Dev.icFill, hg, List.isEmpty_nil, if_true]
  rw [← Dev.placeGood, hp, hi, Dev.mws_congr hm]

/-! ## The scrub of one granule (R22, R23) -/

/-- The device in which the granule holds the worse of its old error and the one found. -/
def Dev.scrubbed (d : Dev) (a : Arr) (g : Nat) (x : Ecc) : Dev := d.setEcc a (g * 4) (Ecc.worse (d.eccAt a (g * 4)) x)

/-- The device after the scrubber has corrected the granule and counted it (R22). -/
def Dev.scrubFixed (d : Dev) (a : Arr) (g : Nat) : Dev := (d.satAdd R.MC_STATUS_CE_COUNT 1).setEcc a (g * 4) .ok

theorem Dev.icLine_satAdd (d : Dev) (f : Fld) (n : Nat) (t : Fin 16) (ln : Nat) : (d.satAdd f n).icLine t ln = d.icLine t ln := by
  simp only [Dev.icLine, Dev.satAdd_icache]

theorem Dev.eccAt_satAdd (d : Dev) (f : Fld) (n : Nat) (a : Arr) (o : Nat) : (d.satAdd f n).eccAt a o = d.eccAt a o := by
  simp only [Dev.eccAt, Dev.satAdd_ecc]

/-- The cache line of a granule: 8 granules to a line. -/
theorem lineOf_granule (g : Nat) : g * 4 / 32 = g / 8 := by omega

section
variable {d : Dev} {a : Arr} {g : Nat} {x : Ecc}

theorem Dev.scrubbed_eccAt : (d.scrubbed a g x).eccAt a (g * 4) = Ecc.worse (d.eccAt a (g * 4)) x :=
  Dev.eccAt_setEcc_same d a _ _

theorem Dev.patrolScrub_icache {t : Fin 16} (h : g * 4 < arrSize (.icache t)) :
    d.patrolScrub (.icache t) g x = (d.scrubbed (.icache t) g x).icScrub scrubUnit t (g * 4) := by
  rw [Dev.patrolScrub, if_neg (Nat.not_le.mpr h)]
  rfl

theorem Dev.patrolScrub_memory (h : g * 4 < arrSize a) (ha : ∀ t, a ≠ .icache t) :
    d.patrolScrub a g x
      = ((d.scrubbed a g x).readGran a (g * 4)).getD ((d.scrubbed a g x).unitMc scrubUnit a (g * 4)) := by
  rw [Dev.patrolScrub, if_neg (Nat.not_le.mpr h)]
  dsimp only
  rw [← Dev.scrubbed]
  generalize d.scrubbed a g x = e
  cases a with
  | icache t => exact absurd rfl (ha t)
  | _ => cases e.readGran _ (g * 4) <;> rfl

theorem Dev.corrected_sram (ha : a ≠ .mram) : d.corrected a (g * 4) = d.scrubFixed a g := by
  cases a with
  | mram => exact absurd rfl ha
  | _ => rfl

/-- A granule found good stays as it is. -/
theorem Dev.patrolScrub_good (h : g * 4 < arrSize a) (hy : Ecc.worse (d.eccAt a (g * 4)) x = .ok) :
    d.patrolScrub a g x = d.scrubbed a g x := by
  have he := (Dev.scrubbed_eccAt (d := d) (a := a) (g := g) (x := x)).trans hy
  by_cases hc : ∃ t, a = .icache t
  · obtain ⟨t, rfl⟩ := hc
    rw [Dev.patrolScrub_icache h, Dev.icScrub, he]
  · rw [Dev.patrolScrub_memory h (fun t e => hc ⟨t, e⟩), readGran_ok he, Option.getD_some]

/-- A correctable granule is corrected and counted. -/
theorem Dev.patrolScrub_correctable (h : g * 4 < arrSize a) (ha : a ≠ .mram) (hy : Ecc.worse (d.eccAt a (g * 4)) x = .corr) :
    d.patrolScrub a g x = (d.scrubbed a g x).scrubFixed a g := by
  have he := (Dev.scrubbed_eccAt (d := d) (a := a) (g := g) (x := x)).trans hy
  by_cases hc : ∃ t, a = .icache t
  · obtain ⟨t, rfl⟩ := hc
    rw [Dev.patrolScrub_icache h, Dev.icScrub, he, Dev.corrected_sram ha]
  · rw [Dev.patrolScrub_memory h (fun t e => hc ⟨t, e⟩), Dev.readGran, he, Option.getD_some, Dev.corrected_sram ha]

/-- An uncorrectable granule of memory is a machine check of the array's class. -/
theorem Dev.patrolScrub_uncorrectable (h : g * 4 < arrSize a) (ha : ∀ t, a ≠ .icache t)
    (hy : Ecc.worse (d.eccAt a (g * 4)) x = .unc) :
    d.patrolScrub a g x = (d.scrubbed a g x).unitMc scrubUnit a (g * 4) := by
  have he := (Dev.scrubbed_eccAt (d := d) (a := a) (g := g) (x := x)).trans hy
  rw [Dev.patrolScrub_memory h ha, Dev.readGran, he, Option.getD_none]

/-- The check of a granule of an SRAM array has KIND 1. -/
theorem Dev.unitMc_sram (ha : a ≠ .mram) (u o : Nat) :
    d.unitMc u a o = if d.arrFatal a then d.fatalMc 1 u (d.mcAddr u a o) else d.recovMc 1 u (d.mcAddr u a o) := by
  have hk : arrKind a = 1 := by
    cases a with
    | mram => exact absurd rfl ha
    | _ => rfl
  rw [Dev.unitMc, hk]

/-- An uncorrectable granule in an invalid cache line counts as corrected. -/
theorem Dev.icScrub_invalid {t : Fin 16} (he : d.eccAt (.icache t) (g * 4) = .unc) (hw : (d.icLine t (g / 8)).words = []) :
    d.icScrub scrubUnit t (g * 4) = d.scrubFixed (.icache t) g := by
  simp only [Dev.icScrub, he, Dev.icLine_satAdd, lineOf_granule, hw, List.isEmpty_nil, if_true, Dev.scrubFixed]

end

/-! ## An uncorrectable cache line is refetched (R22) -/

/-- The count of corrected errors leaves every other register alone. -/
theorem Dev.satAdd_ceCount_progArr (d : Dev) (n : Nat) : (d.satAdd R.MC_STATUS_CE_COUNT n).progArr = d.progArr := by
  have hg : (d.satAdd R.MC_STATUS_CE_COUNT n).get R.PROG_STAT_ACTIVE = d.get R.PROG_STAT_ACTIVE :=
    Dev.get_put_other d _ _ ⟨by decide, by decide⟩ (by decide) (.inl (by decide)) _
  simp only [Dev.progArr, hg]

/-- What a refetch of the line that holds granule `g` leaves, from program memory as `d` has it. -/
structure Dev.Refetched (d : Dev) (t : Fin 16) (g : Nat) (u : Dev) : Prop where
  frame : u = { (d.satAdd R.MC_STATUS_CE_COUNT 1) with icache := u.icache, ecc := u.ecc }
  good : u.eccAt (.icache t) (g * 4) = .ok
  others : ∀ b o, b ≠ .icache t → u.eccAt b o = d.eccAt b o
  line : (u.icLine t (g / 8)).line = (d.icLine t (g / 8)).line
  words : (u.icLine t (g / 8)).words = d.mws d.progArr (32 * (d.icLine t (g / 8)).line) 32

theorem Dev.icScrub_refetches {d : Dev} {t : Fin 16} {g : Nat} (he : d.eccAt (.icache t) (g * 4) = .unc)
    (hw : (d.icLine t (g / 8)).words ≠ []) (hl : (d.icLine t (g / 8)).line % 128 = g / 8)
    (hp : ∀ i < 32, d.eccAt d.progArr (32 * (d.icLine t (g / 8)).line + i) = .ok) :
    d.Refetched t g (d.icScrub scrubUnit t (g * 4)) := by
  generalize hn : (d.icLine t (g / 8)).line = ln at hl hp
  have hpa := d.satAdd_ceCount_progArr 1
  have hkey : icKey t ln = icKey t (g / 8) := by simp only [icKey]; omega
  have hfill := (d.satAdd R.MC_STATUS_CE_COUNT 1).icFill_ok t (ln := ln) (by simpa only [hpa, Dev.eccAt_satAdd] using hp)
  rw [hpa, hkey, Dev.mws_congr (d.satAdd_mem _ _), Dev.satAdd_icache] at hfill
  have hscrub : d.icScrub scrubUnit t (g * 4) = { (d.satAdd R.MC_STATUS_CE_COUNT 1).placeGood t ln with
      icache := Store.set (fun _ => default) d.icache (icKey t (g / 8))
        { line := ln, words := d.mws d.progArr (32 * ln) 32 } } := by
    simp only [Dev.icScrub, he, Dev.icLine_satAdd, lineOf_granule, hn, List.isEmpty_iff, hw, if_false, hfill]
  have hframe := (d.satAdd R.MC_STATUS_CE_COUNT 1).placeGood_frame t ln
  have hgood := (d.satAdd R.MC_STATUS_CE_COUNT 1).placeGood_gran t hl
  have hother := fun b o (hb : b ≠ Arr.icache t) => (d.satAdd R.MC_STATUS_CE_COUNT 1).placeGood_other hb ln o
  simp only [Dev.eccAt_satAdd] at hother
  generalize (d.satAdd R.MC_STATUS_CE_COUNT 1).placeGood t ln = p at hscrub hframe hgood hother
  rw [hscrub]
  constructor
  · generalize d.satAdd R.MC_STATUS_CE_COUNT 1 = c at hframe ⊢
    rw [hframe]
  · exact hgood
  · exact hother
  · simp only [Dev.icLine, Store.get_set_same] at hn ⊢
    exact hn.symm
  · simp only [Dev.icLine, Store.get_set_same] at hn ⊢
    rw [hn]

/-! ## The commands -/

theorem State.ends_onDev {s : State} {i : Instr} {f : Dev → Dev} {d : Dev} (hi : exec i s = s.onDev f)
    (h : s.dev.sys.held = false) (he : f s.dev = d) : s.ends i d := by
  rw [State.ends, hi, State.onDev_next h, he]
  rfl

theorem State.endsIn_onDev {s : State} {i : Instr} {f : Dev → Dev} {P : Dev → Prop} (hi : exec i s = s.onDev f)
    (h : s.dev.sys.held = false) (hP : P (f s.dev)) : s.endsIn i P :=
  ⟨s.on (f s.dev), hi.trans (State.onDev_next h), rfl, hP⟩

theorem exec_patrolScrub (a : Arr) (g : Nat) (x : Ecc) (s : State) :
    exec (.patrolScrub a g x) s = s.onDev (Dev.patrolScrub a g x) := rfl

theorem exec_clockLoss (s : State) : exec .clockLoss s = s.onDev Dev.clockLoss := rfl

theorem exec_dieLinkTimeout (s : State) : exec .dieLinkTimeout s = s.onDev Dev.dieLinkTimeout := rfl

/-- A fatal check that names no granule, with no other one before it, as the statements say what it leaves (R29, R30). -/
def Dev.FatalCheck (d : Dev) (kind : Nat) (t : Dev) : Prop :=
  t.sys.fatal = true ∧ t.sys.due = d.sys.due ++ [.machineCheck] ∧ t.sys.outsOff = true ∧ t.fio.on = 0
    ∧ t.flag ((R.EV_RAISED 0).bit 1) = true ∧ t.get (R.EV_TSL 1) = d.time.toNat % 2 ^ 32
    ∧ (d.mcHeld = false → t.get R.MC_STATUS_KIND = kind ∧ t.get R.MC_ADDR_ADDR = 0)
    ∧ (d.mcHeld = true → t.flag R.MC_STATUS_MULTI = true ∧ t.get R.MC_STATUS_KIND = d.get R.MC_STATUS_KIND
        ∧ t.rd R.MC_ADDR.addr = d.rd R.MC_ADDR.addr)
    ∧ (∀ x : Fin 17, (t.core x).s0 = (d.core x).s0 ∧ (t.core x).s1 = (d.core x).s1) ∧ t.mem = d.mem

theorem Dev.fatalMc_check {d : Dev} (hh : d.sys.held = false) (hf : d.sys.fatal = false) {kind : Nat} (hk : kind < 8) (unit : Nat) :
    d.FatalCheck kind (d.fatalMc kind unit 0) := by
  obtain ⟨hfatal, hdue, houts, hraised, hstamp, hlog, hsets, hmem⟩ := Dev.fatalMc_starts hh hf kind unit 0
  have hget (f : Fld) (ha : f.addr ∈ [R.MC_STATUS.addr, R.MC_ADDR.addr]) :
      (d.fatalMc kind unit 0).get f = (d.mcLog kind unit 0).get f := by rw [Dev.get, hlog _ ha, Dev.get]
  refine ⟨hfatal, hdue, houts.1, houts.2, hraised, hstamp, fun hfree => ?_, fun hheld => ?_, hsets, hmem⟩
  · obtain ⟨hkind, haddr⟩ := Dev.mcLog_free hfree kind unit 0
    exact ⟨by rw [hget _ (by decide), hkind, Nat.mod_eq_of_lt hk], (hget _ (by decide)).trans (haddr.trans (Nat.zero_mod _))⟩
  · obtain ⟨hmulti, hkind, haddr⟩ := Dev.mcLog_held hheld kind unit 0
    refine ⟨?_, by rw [hget _ (by decide), hkind], by rw [hlog _ (by decide), haddr]⟩
    rw [Dev.flag, hget _ (by decide), hmulti]
    rfl

/-- A change of system state and outputs before the check that adds no due reset and holds no log is no part of what the
check leaves. -/
theorem Dev.FatalCheck.of_prepared {d t : Dev} {kind : Nat} {x : SysSt} {y : FioSt} (hd : x.due = d.sys.due)
    (hl : x.fatalLog = d.sys.fatalLog) (h : Dev.FatalCheck { d with sys := x, fio := y } kind t) : d.FatalCheck kind t := by
  have hheld : ({ d with sys := x, fio := y } : Dev).mcHeld = d.mcHeld := by
    rw [Dev.mcHeld, Dev.mcHeld, ← hl]
    rfl
  obtain ⟨hfatal, hdue, houts, hon, hraised, hstamp, hfree, hlogged, hsets, hmem⟩ := h
  rw [hheld] at hfree hlogged
  exact ⟨hfatal, hd ▸ hdue, houts, hon, hraised, hstamp, hfree, hlogged, hsets, hmem⟩

/-- Loss of the clock (R18). -/
theorem Dev.clockLoss_check {d : Dev} (hh : d.sys.held = false) (hf : d.sys.fatal = false) : d.FatalCheck 5 d.clockLoss :=
  .of_prepared rfl rfl
    (Dev.fatalMc_check (d := { d with sys := { d.sys with fatalClock := true }, fio := d.fio }) hh hf (by decide) 0xFC)

/-- Loss of the die-to-die link (R11). -/
theorem Dev.dieLinkTimeout_check {d : Dev} (hh : d.sys.held = false) (hf : d.sys.fatal = false) :
    d.FatalCheck 6 d.dieLinkTimeout :=
  .of_prepared rfl rfl
    (Dev.fatalMc_check (d := { d with sys := { d.sys with outsOff := true }, fio := { d.fio with on := 0, limit := [] } })
      hh hf (by decide) 0xFE)

/-- Settles O20: a scrub by the error that the granule then holds, a cache line by whether it is valid; and the two fatal
checks by the one lemma on the start of the fatal sequence. -/
theorem scrubberAndFatalChecks : Obligations.ScrubberAndFatalChecks := by
  unfold Obligations.ScrubberAndFatalChecks
  refine ⟨fun s a g x hh ha hg => ?_, fun s link hh hf => ?_⟩
  · rw [← Ecc.worse_eq]
    dsimp only
    rw [← Dev.scrubbed]
    have hx := exec_patrolScrub a g x s
    refine ⟨fun hy => ?_, fun hy => ?_, fun hy hc => ?_, fun hy t hat => ⟨fun hw => ?_, fun hw hl hp => ?_⟩⟩
    · exact State.ends_onDev hx hh (Dev.patrolScrub_good hg hy)
    · exact State.ends_onDev hx hh (Dev.patrolScrub_correctable hg ha hy)
    · exact State.ends_onDev hx hh ((Dev.patrolScrub_uncorrectable hg hc hy).trans (Dev.unitMc_sram ha _ _))
    · subst hat
      exact State.ends_onDev hx hh ((Dev.patrolScrub_icache hg).trans (Dev.icScrub_invalid (Dev.scrubbed_eccAt.trans hy) hw))
    · subst hat
      refine State.endsIn_onDev hx hh ?_
      rw [Dev.patrolScrub_icache hg]
      obtain ⟨hframe, hgood, hothers, hline, hwords⟩ := Dev.icScrub_refetches (Dev.scrubbed_eccAt.trans hy) hw hl hp
      exact ⟨hframe, hgood, hothers, hline, hwords⟩
  · cases link
    · exact State.endsIn_onDev (exec_clockLoss s) hh (Dev.clockLoss_check hh hf)
    · exact State.endsIn_onDev (exec_dieLinkTimeout s) hh (Dev.dieLinkTimeout_check hh hf)

end Sys2Proof.Machine
end

section
/-! PROOFS. The error logs and register writes (R22, R30, R48): why the statement fails on a register file that lists a
register at its reset value. -/

namespace Sys2Proof.Machine

/-- The register file of the device that an outcome ends with. -/
def outcomeRegs : Host.Outcome State Fault Refusal → Store (BitVec 32)
  | .next t => t.dev.regs
  | _ => []

/-- The state after reset, but for one entry of the register file: MC_CTRL is listed with its reset value. Every register
reads as after reset; the file is not in the canonical form (Store.wf), which lists no register at its reset value. -/
def mcCtrlListed : State :=
  State.reset.on { Dev.reset with regs := [(R.MC_CTRL.addr, regReset R.MC_CTRL.addr)] }

/-- The host's CE_CLR writes ESC_LIM back with the value that it holds, and that write takes the entry out. -/
theorem ceClr_mcCtrlListed_regs : outcomeRegs (exec (.ceClr .host) mcCtrlListed) = [] := by decide

/-- Clearing CE_COUNT alone, as the statement has it, leaves the entry in. -/
theorem ceCount_mcCtrlListed_regs :
    outcomeRegs (.next (mcCtrlListed.on (mcCtrlListed.dev.put R.MC_STATUS_CE_COUNT 0)))
      = [(R.MC_CTRL.addr, regReset R.MC_CTRL.addr)] := by decide

/-- Refutes O21: the clause on CE_CLR asks for the very register file in which CE_COUNT alone was set. A write of MC_CTRL
also sets ESC_LIM to the value that it holds, and where the file lists MC_CTRL at its reset value that takes the entry out:
every register reads the same, and the two files differ. -/
theorem not_errorLogsAndRegisterWrites : ¬ Obligations.ErrorLogsAndRegisterWrites := by
  unfold Obligations.ErrorLogsAndRegisterWrites
  intro ⟨hLogs, _⟩
  obtain ⟨-, hCtrl, -⟩ := hLogs mcCtrlListed .host 0
  have hReach : mcCtrlListed.dev.reaches .host R.MC_CTRL.addr = true := by decide
  have hUnlocked : mcCtrlListed.dev.unlocked R.MC_CTRL.addr = true := by decide
  obtain ⟨hCeClr, -⟩ := hCtrl hReach
  rw [if_pos hUnlocked] at hCeClr
  have hRegs : ([] : Store (BitVec 32)) = [(R.MC_CTRL.addr, regReset R.MC_CTRL.addr)] :=
    ceClr_mcCtrlListed_regs.symm.trans ((congrArg outcomeRegs hCeClr).trans ceCount_mcCtrlListed_regs)
  exact List.cons_ne_nil _ _ hRegs.symm

end Sys2Proof.Machine
end

section
/-! PROOFS. Host TLPs and PCIe link events (R46, R47, R51, R331, R336, R350, R359, R361 to R364, R511, R527): what raising an
event leaves of the host interface, the reads and writes through the BARs, configuration space, and the loops of a link reset. -/

namespace Sys2Proof.Machine

/-! ## Commands that act in reset too -/

theorem State.ends_onAny {s : State} {i : Instr} {f : Dev → Dev} {d : Dev} (hi : exec i s = s.onAny f) (he : f s.dev = d) :
    s.ends i d := by
  rw [State.ends, hi, State.onAny, he]
  rfl

theorem State.endsIn_onAny {s : State} {i : Instr} {f : Dev → Dev} {P : Dev → Prop} (hi : exec i s = s.onAny f)
    (hP : P (f s.dev)) : s.endsIn i P :=
  ⟨s.on (f s.dev), hi, rfl, hP⟩

theorem State.ignores_onAny {s : State} {i : Instr} {f : Dev → Dev} (hi : exec i s = s.onAny f) (he : f s.dev = s.dev) :
    s.ignores i := by
  rw [State.ignores, hi, State.onAny, he]

theorem exec_hostBarRead (x : HostRd) (s : State) : exec (.hostBarRead x) s = s.onDev (Dev.hostBarRead x) := rfl

theorem exec_hostBar2Write (a : BitVec 20) (ws : List (BitVec 16 × BitVec 16)) (s : State) :
    exec (.hostBar2Write a ws) s = s.onDev (Dev.bar2Write a.toNat ws) := rfl

theorem exec_poisonedWrite (s : State) : exec .poisonedWrite s = s.onAny (Dev.aer 12) := rfl

theorem exec_pcieConfigRequest (fn : Fin 8) (wr : Bool) (dw : Fin 1024) (be : BitVec 4) (v : BitVec 32) (s : State) :
    exec (.pcieConfigRequest fn wr dw be v) s = s.onAny (Dev.configRequest fn.val wr dw.val be v) := rfl

/-- The link goes down, where it was up (R364). -/
def Dev.hostLinkLost (d : Dev) : Dev := if d.hif.link then (d.updHif (fun h => { h with link := false })).linkReset else d

/-- The link trains, where PERST_N is released and it was down (R359, R527). -/
def Dev.hostLinkTrained (d : Dev) : Dev :=
  if d.hif.perst && !d.hif.link then (d.updHif (fun h => { h with link := true })).raise 114 else d

theorem exec_pcieLinkDown (s : State) : exec .pcieLinkDown s = s.onAny Dev.hostLinkLost := rfl

theorem exec_pcieLinkUp (s : State) : exec .pcieLinkUp s = s.onAny Dev.hostLinkTrained := rfl

theorem exec_functionLevelReset (s : State) : exec .functionLevelReset s = s.onAny Dev.linkReset := rfl

theorem exec_hotReset (s : State) : exec .hotReset s = s.onAny Dev.linkReset := rfl

theorem exec_perstRelease (s : State) : exec .perstRelease s = s.onAny (Dev.updHif · (fun h => { h with perst := true })) := rfl

/-! ## Frames and repeated steps -/

theorem Dev.Frame.mono {as bs : List Nat} {d u : Dev} (h : Dev.Frame as d u) (hs : as ⊆ bs) : Dev.Frame bs d u where
  rd a ha := h.rd a (fun m => ha (hs m))
  time := h.time
  sys := h.sys
  mem := h.mem
  set0 := h.set0
  set1 := h.set1

theorem Dev.Frame.updHif {as : List Nat} {d : Dev} (f : HifSt → HifSt) : Dev.Frame as d (d.updHif f) := .withHif _

/-- The first register sets of all cores, in their order. -/
theorem Dev.Frame.sets0 {as : List Nat} {d u : Dev} (h : Dev.Frame as d u) :
    u.cores.toList.map (·.s0) = d.cores.toList.map (·.s0) := by
  refine List.ext_getElem (by simp) (fun i hi _ => ?_)
  have hlt : i < 17 := by simpa using hi
  simpa [Dev.core] using h.set0 ⟨i, hlt⟩

theorem upTo_succ (n : Nat) (f : Nat → Dev → Dev) (d : Dev) : upTo (n + 1) f d = f n (upTo n f d) := by
  rw [upTo, List.range_succ, List.foldl_append]
  rfl

theorem Dev.Frame.upTo {as : List Nat} {f : Nat → Dev → Dev} {n : Nat} (h : ∀ i < n, ∀ d, Dev.Frame as d (f i d)) (d : Dev) :
    Dev.Frame as d (upTo n f d) := by
  induction n with
  | zero => exact .refl
  | succ n ih =>
    rw [upTo_succ]
    exact (ih (fun i hi => h i (by omega))).trans (h n (by omega) _)

/-- What every step leaves as it is, all of them do. -/
theorem upTo_keeps {α : Type} {g : Dev → α} {f : Nat → Dev → Dev} {n : Nat} (h : ∀ i < n, ∀ d, g (f i d) = g d) (d : Dev) :
    g (upTo n f d) = g d := by
  induction n with
  | zero => rfl
  | succ n ih =>
    rw [upTo_succ, h n (by omega)]
    exact ih (fun i hi => h i (by omega))

/-- What one step changes by `φ` and every other one leaves as it is, all of them change by `φ`. -/
theorem upTo_at {α : Type} {g : Dev → α} {φ : α → α} {f : Nat → Dev → Dev} {n i : Nat} (hi : i < n)
    (hsame : ∀ d, g (f i d) = φ (g d)) (hother : ∀ j < n, j ≠ i → ∀ d, g (f j d) = g d) (d : Dev) :
    g (upTo n f d) = φ (g d) := by
  induction n with
  | zero => exact absurd hi (Nat.not_lt_zero i)
  | succ n ih =>
    rw [upTo_succ]
    by_cases e : i = n
    · subst e
      rw [hsame, upTo_keeps (fun j hj => hother j (by omega) (by omega))]
    · rw [hother n (by omega) (by omega)]
      exact ih (by omega) (fun j hj => hother j (by omega))

/-! ## Raising an event -/

/-- The registers that an occurrence of source `s` may write. -/
def eventRegs (s : Nat) : List Nat := [(R.EV_RAISED (s / 32)).addr, (R.EV_TSL s).addr] ++ raiseRegs s

theorem Dev.raise_frame (s : Nat) {d : Dev} (h : d.sys.held = false) : Dev.Frame (eventRegs s) d (d.raise s) :=
  ((Dev.stamped_frame s d.time d).mono (List.subset_append_left _ _)).trans
    ((Dev.raiseRouted_frame s d.time false h).mono (List.subset_append_right _ _))

/-- The flag of an event stands after the event was raised (R416). -/
theorem Dev.raise_raised {s : Nat} (hs : s < 128) {d : Dev} (h : d.sys.held = false) : (d.raise s).raised s := by
  have hbit : ((R.EV_RAISED (s / 32)).bit (s % 32)).ok := by simp only [Fld.ok, Fld.bit, R.EV_RAISED]; omega
  have hkept : ((R.EV_RAISED (s / 32)).bit (s % 32)).addr ∉ raiseRegs s := by
    simp only [Fld.bit, raiseRegs, R.EV_RAISED, R.EV_HPEND, R.HEN_SUPP, R.HEN_STAT, List.mem_cons, List.not_mem_nil, or_false]
    omega
  have hset : (d.stamped s d.time).get ((R.EV_RAISED (s / 32)).bit (s % 32)) = 1 := by
    rw [Dev.stamped, Dev.get, Dev.rd_put_other _ _ (by simp only [Fld.bit, R.EV_RAISED, R.EV_TSL]; omega), ← Dev.get,
      Dev.get_put_same _ _ hbit]
    simp [Fld.bit, R.EV_RAISED, Fld.width]
  rw [Dev.raised, Dev.flag, Dev.raise, (Dev.raiseRouted_frame s d.time false h).get hkept, hset]
  rfl

/-- The host interface but for the pending bits of MSI-X. -/
def HifSt.unpended (h : HifSt) : HifSt := { h with pba := 0 }

theorem Dev.sendMsix_unpended (v : Nat) (d : Dev) : (d.sendMsix v).hif.unpended = d.hif.unpended := by
  unfold Dev.sendMsix
  split
  · split <;> rfl
  · rfl

theorem Dev.henOccur_hif (n : Nat) (ts : BitVec 64) (sp : Bool) (d : Dev) : (d.henOccur n ts sp).hif = d.hif := by
  unfold Dev.henOccur
  split
  · dsimp only
    split
    · rw [Dev.satAdd_hif]
    · split
      · rw [Dev.satAdd_hif]
      · rfl
  · rfl

theorem Dev.routeTile_hif (s : Nat) (ts : BitVec 64) (t : Fin 16) (d : Dev) : (d.routeTile s ts t).hif = d.hif := by
  unfold Dev.routeTile
  split <;> rfl

theorem foldl_keeps {α β : Type} {g : Dev → α} {f : Dev → β → Dev} (h : ∀ d b, g (f d b) = g d) (l : List β) :
    ∀ d, g (l.foldl f d) = g d := by
  induction l with
  | nil => intro d; rfl
  | cons b l ih => intro d; exact (ih _).trans (h d b)

theorem Dev.raiseBase_unpended (s : Nat) (ts : BitVec 64) (sp : Bool) (d : Dev) :
    (d.raiseBase s ts sp).hif.unpended = d.hif.unpended := by
  unfold Dev.raiseBase
  dsimp only
  rw [upTo, foldl_keeps (g := fun d => d.hif.unpended) (fun e k => by split <;> rfl), Dev.henOccur_hif]
  split
  · rw [Dev.sendMsix_unpended, Dev.put_hif, Dev.updCore_hif, Dev.put_hif, Dev.put_hif]
  · rw [Dev.updCore_hif, Dev.put_hif, Dev.put_hif]

/-- An event leaves the host interface as it is but for the pending bits. -/
theorem Dev.raise_unpended (s : Nat) (d : Dev) : (d.raise s).hif.unpended = d.hif.unpended := by
  rw [Dev.raise, Dev.raiseRouted]
  split
  · rfl
  · rw [foldl_keeps (g := fun d => d.hif.unpended) (fun e t => congrArg _ (Dev.routeTile_hif s d.time t e)),
      Dev.raiseBase_unpended]

/-! ## Access errors (R51, R53) -/

theorem Dev.accessError_frame (unit kind addr : Nat) (d : Dev) :
    Dev.Frame [R.AE_STATUS.addr, R.AE_ADDR.addr] d (d.accessError unit kind addr) := by
  unfold Dev.accessError
  refine (Dev.Frame.satAdd (f := R.AE_STATUS_ERR_COUNT) (by decide) 1).trans ?_
  dsimp only
  split
  · exact .put (f := R.AE_STATUS_MULTI) (by decide) 1
  · exact ((Dev.Frame.put (f := R.AE_STATUS_KIND) (by decide) _).trans (.put (f := R.AE_ADDR) (by decide) _)).trans
      (.put (f := R.AE_STATUS_VALID) (by decide) 1)

/-- The first access error of an empty log is the one it names. -/
theorem Dev.accessError_kind {d : Dev} (h : d.flag R.AE_STATUS_VALID = false) (unit addr : Nat) {kind : Nat} (hk : kind < 16) :
    (d.accessError unit kind addr).get R.AE_STATUS_KIND = kind := by
  have hv : (d.satAdd R.AE_STATUS_ERR_COUNT 1).flag R.AE_STATUS_VALID = false := by
    rw [Dev.flag, Dev.satAdd, Dev.get_put_other _ _ _ ⟨by decide, by decide⟩ (by decide) (.inr (by decide)), ← Dev.flag, h]
  simp only [Dev.accessError, hv, Bool.false_eq_true, if_false, Dev.setF]
  rw [Dev.get_put_other _ _ _ ⟨by decide, by decide⟩ (by decide) (.inr (by decide)),
    Dev.get_put_other _ _ _ ⟨by decide, by decide⟩ (by decide) (.inl (by decide)),
    Dev.get_put_same _ _ ⟨by decide, by decide⟩]
  exact Nat.mod_eq_of_lt hk

/-- The registers that a host access error may write. -/
def hostErrorRegs : List Nat := [R.AE_STATUS.addr, R.AE_ADDR.addr] ++ eventRegs 112

theorem Dev.hostError_frame {d : Dev} (h : d.sys.held = false) (kind addr : Nat) :
    Dev.Frame hostErrorRegs d (d.hostError kind addr) :=
  have hlog := d.accessError_frame 0xFB kind addr
  (hlog.mono (List.subset_append_left _ _)).trans
    ((Dev.raise_frame 112 (by rw [hlog.sys, h])).mono (List.subset_append_right _ _))

theorem Dev.hostError_raised {d : Dev} (h : d.sys.held = false) (kind addr : Nat) : (d.hostError kind addr).raised 112 :=
  Dev.raise_raised (by decide) (by rw [(d.accessError_frame 0xFB kind addr).sys, h])

theorem Dev.hostError_kind {d : Dev} (h : d.sys.held = false) (hv : d.flag R.AE_STATUS_VALID = false) (addr : Nat) {kind : Nat}
    (hk : kind < 16) : (d.hostError kind addr).get R.AE_STATUS_KIND = kind := by
  have hs : (d.accessError 0xFB kind addr).sys.held = false := by rw [(d.accessError_frame 0xFB kind addr).sys, h]
  rw [Dev.hostError, (Dev.raise_frame 112 hs).get (by decide), Dev.accessError_kind hv _ _ hk]

/-! ## Reads through BAR0 (R46, R47, R336) -/

theorem regFind_scanGap :
    regFind R.SCAN_GAP.addr = some (⟨.SCAN_GAP, 0xE0804, [], 0, [⟨16, 0, .rw⟩]⟩, []) := by decide

theorem regFind_scanCeil :
    regFind R.SCAN_CEIL.addr = some (⟨.SCAN_CEIL, 0xE0806, [], 0, [⟨23, 0, .rw⟩]⟩, []) := by decide

/-- The scan gap and the ceiling are read as they stand, whatever unit reads them. -/
theorem Dev.unitRegRead_scan {a : Nat} {row : RegRow} {ix : List Nat} (hf : regFind a = some (row, ix))
    (hn : row.name = .SCAN_GAP ∨ row.name = .SCAN_CEIL) (hw : woMask row.fields = 0) (ht : tabGran a = []) (d : Dev) (unit : Nat)
    (rd : Rdr) : d.unitRegRead unit rd a = (d.rd a, false, d) := by
  have hmask (v : BitVec 32) : v &&& ~~~0 = v := BitVec.and_allOnes
  have hnone : d.unitMcs unit [] = d := rfl
  have harr : d.arrayRead a = none := by
    rcases hn with hn | hn <;> simp only [Dev.arrayRead, hf, hn]
  have hreg : d.regRead rd a = (d.rd a, d) := by
    rcases hn with hn | hn <;> simp only [Dev.regRead, hf, hn, hw, hmask]
  simp only [Dev.unitRegRead, Dev.regFetch, harr, ht, Dev.readGrans, List.isEmpty_nil, if_true, hreg, hnone, Bool.not_true]

section
variable {d : Dev} {a : Nat}

theorem Dev.hostRegRead_granted (hd : d.flag R.BOOT_STAT_DEAD = false) (ha : regArea a = true)
    (hm : d.hostMay (hostRegion a) false = true) : d.hostRegRead a = d.unitRegRead 0xFB .host a := by
  simp [Dev.hostRegRead, hd, ha, hm]

theorem Dev.hostRegRead_denied (hd : d.flag R.BOOT_STAT_DEAD = false) (ha : regArea a = true)
    (hm : d.hostMay (hostRegion a) false = false) : d.hostRegRead a = (0, false, d.hostError 4 (hostOffset a)) := by
  simp [Dev.hostRegRead, hd, ha, hm]

theorem Dev.hostRegRead_dead (hd : d.flag R.BOOT_STAT_DEAD = true) (hr : hostRegion a ≠ 0) :
    d.hostRegRead a = (0, false, d) := by
  simp [Dev.hostRegRead, hd, hr]

theorem Dev.hostBarRead_awake (h3 : d.d3hot = false) (x : HostRd) : d.hostBarRead x = d.hostReadTlp x := by
  simp [Dev.hostBarRead, h3]

end

theorem Dev.barRead_scanGap (d : Dev) : d.barRead 0x1008 = d.hostRegRead R.SCAN_GAP.addr := rfl

theorem Dev.barRead_scanCeil (d : Dev) : d.barRead 0x100C = d.hostRegRead R.SCAN_CEIL.addr := rfl

theorem Dev.hostReadTlp_scanGap (d : Dev) :
    d.hostReadTlp (.dword 0x1008) = (d.hostRegRead R.SCAN_GAP.addr).2.2.emit
      (.bar [(d.hostRegRead R.SCAN_GAP.addr).1] (d.hostRegRead R.SCAN_GAP.addr).2.1) := rfl

theorem Dev.hostReadTlp_unaligned {o : BitVec 22} (h : o.toNat % 4 ≠ 0) (d : Dev) :
    d.hostReadTlp (.dword o) = (d.hostError 7 o.toNat).emit (.bar [0] false) := by
  simp [Dev.hostReadTlp, h]

section
variable {d : Dev} (hd : d.flag R.BOOT_STAT_DEAD = false) (hm : d.hostMay 2 false = true)
include hd hm

theorem Dev.hostRegRead_scanGap : d.hostRegRead R.SCAN_GAP.addr = (d.rd R.SCAN_GAP.addr, false, d) :=
  (Dev.hostRegRead_granted (a := R.SCAN_GAP.addr) hd (by decide) hm).trans
    (Dev.unitRegRead_scan regFind_scanGap (.inl rfl) (by decide) (by decide) d _ _)

theorem Dev.hostRegRead_scanCeil : d.hostRegRead R.SCAN_CEIL.addr = (d.rd R.SCAN_CEIL.addr, false, d) :=
  (Dev.hostRegRead_granted (a := R.SCAN_CEIL.addr) hd (by decide) hm).trans
    (Dev.unitRegRead_scan regFind_scanCeil (.inr rfl) (by decide) (by decide) d _ _)

/-- A qword read of the two registers answers both, the lower offset first. -/
theorem Dev.hostReadTlp_scanGap_scanCeil :
    d.hostReadTlp (.qword 0x1008) = d.emit (.bar [d.rd R.SCAN_GAP.addr, d.rd R.SCAN_CEIL.addr] false) := by
  have hal : ((0x1008 : BitVec 22).toNat % 8 == 0) = true := by decide
  have hlo : d.barRead (0x1008 : BitVec 22).toNat = (d.rd R.SCAN_GAP.addr, false, d) :=
    d.barRead_scanGap.trans (Dev.hostRegRead_scanGap hd hm)
  have hhi : d.barRead ((0x1008 : BitVec 22).toNat + 4) = (d.rd R.SCAN_CEIL.addr, false, d) :=
    d.barRead_scanCeil.trans (Dev.hostRegRead_scanCeil hd hm)
  simp only [Dev.hostReadTlp, hal, if_true, hlo, hhi, Bool.or_false, Bool.false_eq_true, if_false]

end

/-! ## The exchange window through BAR2 (R24, R336, R350) -/

/-- No granule holds an error where none is listed. -/
theorem Dev.eccAt_nil {d : Dev} (h : d.ecc = []) (a : Arr) (o : Nat) : d.eccAt a o = .ok := by
  rw [Dev.eccAt, h]
  rfl

/-- Words of the window that hold no error are read as they stand. -/
theorem Dev.unitReads_win {d : Dev} (h : d.ecc = []) (unit o n : Nat) :
    d.unitReads unit .win o n = ((List.range n).map (fun i => d.mw .win (o + i)), false, d) := by
  rw [Dev.unitReads, Dev.unitWords, readWords_ok _ (fun w _ => Dev.eccAt_nil h _ _), List.map_map]
  rfl

/-- A read of two whole words of the window, whatever their page's flag. -/
theorem Dev.bar2Read_pair {d : Dev} (h : d.ecc = []) (hd : d.flag R.BOOT_STAT_DEAD = false) (hm : d.hostMay 3 false = true) (o : Nat) :
    d.bar2Read (2 * o) 4 = d.emit (.barWin [d.mw .win o, d.mw .win (o + 1)] false) := by
  have hn : (2 * o % 2 + 4 + 1) / 2 = 2 := by omega
  have ho : 2 * o / 2 = o := by omega
  simp only [Dev.bar2Read, hn, ho, hd, hm, Bool.not_true, Bool.false_eq_true, if_false, Dev.unitReads_win h]
  rfl

theorem Dev.setEcc_ok_nil {d : Dev} (h : d.ecc = []) (a : Arr) (o : Nat) : d.setEcc a o .ok = d := by
  have e : Store.set (fun _ => Ecc.ok) d.ecc (granKey a o) .ok = d.ecc := by rw [h]; rfl
  rw [Dev.setEcc, e]

/-- Words stored in one granule without errors are laid over what it holds, whether they cover it or not (R24). -/
theorem Dev.storeOne_win {d : Dev} (h : d.ecc = []) (g : Nat) (ws : List (Nat × BitVec 16 × BitVec 16)) :
    d.storeOne none (.win, g) ws = some (ws.foldl (fun d w => d.setMasked .win w.1 w.2.1 w.2.2) d) := by
  have hs : d.storeGran .win (g * 4) ws = some (ws.foldl (fun d w => d.setMasked .win w.1 w.2.1 w.2.2) d) := by
    simp only [Dev.storeGran, Dev.setEcc_ok_nil h, Dev.eccAt_nil h, ite_self]
  simp only [Dev.storeOne, hs]
  rfl

/-- Two neighbouring words of the window are stored, in one granule or in two. -/
theorem Dev.unitStore_pair {d : Dev} (h : d.ecc = []) (unit o : Nat) (k v m w : BitVec 16) :
    d.unitStore unit [(.win, o, k, v), (.win, o + 1, m, w)] = (d.setMasked .win o k v).setMasked .win (o + 1) m w := by
  have hone := Dev.storeOne_win (d := d) h
  have htwo := Dev.storeOne_win (d := d.setMasked .win o k v) h
  by_cases e : (o + 1) / 4 = o / 4
  · simp [Dev.unitStore, Dev.storeMem, granulesOf, granules, wordsIn, Dev.storeAll, e, hone]
    rfl
  · simp [Dev.unitStore, Dev.storeMem, granulesOf, granules, wordsIn, Dev.storeAll, e, Ne.symm e, hone, htwo]
    rfl

@[simp] theorem Dev.mw_setMasked_same (d : Dev) (a : Arr) (i : Nat) (m v : BitVec 16) :
    (d.setMasked a i m v).mw a i = (d.mw a i &&& ~~~m) ||| (v &&& m) := Dev.mw_setMw_same _ _ _ _

theorem Dev.mw_setMasked_other (d : Dev) {a : Arr} {i j : Nat} (h : j ≠ i) (m v : BitVec 16) :
    (d.setMasked a i m v).mw a j = d.mw a j := Dev.mw_setMw_other d (memKey_ne h) _

/-- The page of word `o` of the window is the device's or locked. -/
def Dev.pageShut (d : Dev) (o : Nat) : Prop := d.get (pageFlagFld (o / 2048)) = 2 ∨ d.get (pageFlagFld (o / 2048)) = 3

section
variable {d : Dev} (h3 : d.d3hot = false) (hd : d.flag R.BOOT_STAT_DEAD = false)
include h3 hd

theorem Dev.bar2Write_denied (hm : d.hostMay 3 true = false) (o : Nat) (ws : List (BitVec 16 × BitVec 16)) :
    d.bar2Write o ws = d.hostError 4 (0x800000 + 2 * o) := by
  simp [Dev.bar2Write, h3, hd, hm]

variable (hm : d.hostMay 3 true = true) {o : Nat} (ho : o < 0x100000) (hp : o % 2048 ≠ 2047)
include hm ho hp

/-- Two words of an open page are written under their byte enables. -/
theorem Dev.bar2Write_open (hs : ¬ d.pageShut o) (h : d.ecc = []) (k v m w : BitVec 16) :
    d.bar2Write o [(k, v), (m, w)] = (d.setMasked .win o k v).setMasked .win (o + 1) m w := by
  have hpage : (o + 1) / 2048 = o / 2048 := by omega
  have ho2 : o + 1 < 0x100000 := by omega
  simp only [Dev.pageShut, not_or] at hs
  simp [Dev.bar2Write, h3, hd, hm, barWords, arrSize, ho, ho2, hpage, hs, Dev.unitStore_pair h]

/-- Two words of a shut page are discarded, and the write is counted and an access error. -/
theorem Dev.bar2Write_shut (hs : d.pageShut o) (k v m w : BitVec 16) :
    d.bar2Write o [(k, v), (m, w)] = (d.satAdd R.WIN_STAT_DISC_CNT 1).hostError 5 (0x800000 + 2 * o) := by
  have hpage : (o + 1) / 2048 = o / 2048 := by omega
  have ho2 : o + 1 < 0x100000 := by omega
  have hnone (unit : Nat) : d.unitStore unit [] = d := rfl
  rcases hs with hs | hs <;> simp [Dev.bar2Write, h3, hd, hm, barWords, arrSize, ho, ho2, hpage, hs, hnone]

end

/-- A discarded write: the count of discards saturates at 65,535. -/
theorem Dev.discarded_count {d : Dev} (h : d.sys.held = false) (kind addr : Nat) :
    ((d.satAdd R.WIN_STAT_DISC_CNT 1).hostError kind addr).get R.WIN_STAT_DISC_CNT
      = min 65535 (d.get R.WIN_STAT_DISC_CNT + 1) := by
  have hs : (d.satAdd R.WIN_STAT_DISC_CNT 1).sys.held = false := by rw [Dev.satAdd_sys, h]
  have hw : R.WIN_STAT_DISC_CNT.width = 16 := rfl
  have hlt : d.get R.WIN_STAT_DISC_CNT < 2 ^ 16 := Fld.of_lt _ _
  rw [(Dev.hostError_frame hs kind addr).get (by decide), Dev.satAdd, Dev.get_put_same _ _ ⟨by decide, by decide⟩]
  rw [satU, hw]
  split <;> omega

/-! ## Configuration space (R331, R361) -/

theorem Dev.aer_eq (d : Dev) (bit : Nat) : d.aer bit = d.setCfg 65 (d.cfgRd 65 ||| BitVec.twoPow 32 bit) := by
  have e : BitVec.ofNat 32 (2 ^ bit) = BitVec.twoPow 32 bit := by
    apply BitVec.eq_of_toNat_eq
    rw [BitVec.toNat_ofNat, BitVec.toNat_twoPow]
  rw [Dev.aer, e]

theorem Dev.cfgRd_setCfg_same (d : Dev) (i : Nat) (v : BitVec 32) : (d.setCfg i v).cfgRd i = v := Store.get_set_same _ _ _ _

/-- Dword 15 holds one writable byte, the interrupt line. -/
theorem cfgRw_15_beMask (be : BitVec 4) : cfgRw 15 &&& beMask be = if be.getLsbD 0 then 0xFF else 0 := by
  revert be
  decide

theorem Dev.cfgWrite_15 (d : Dev) (be : BitVec 4) (v : BitVec 32) :
    d.cfgWrite 15 be v = d.setCfg 15 (laid (if be.getLsbD 0 then 0xFF else 0) (d.cfgRd 15) v) := by
  have h1 : v &&& cfgRw 15 &&& beMask be = v &&& (cfgRw 15 &&& beMask be) := BitVec.and_assoc _ _ _
  have h2 (x : BitVec 32) : x &&& ~~~(v &&& cfgW1c 15 &&& beMask be) = x := by
    have hz : v &&& cfgW1c 15 &&& beMask be = 0 := by simp [cfgW1c]
    rw [hz]
    exact BitVec.and_allOnes
  simp [Dev.cfgWrite, laid, h1, h2, cfgRw_15_beMask]

/-! ## A link reset (R364) -/

/-- A page that the host holds becomes free; one of the device stays its own. -/
def Dev.pageFreed (p : Nat) (d : Dev) : Dev :=
  if d.get (pageFlagFld p) == 1 || d.get (pageFlagFld p) == 3 then d.put (pageFlagFld p) 0 else d

/-- The indices of queue pair `q` at the start, its phase 1. -/
def Dev.queueZeroed (q : Nat) (d : Dev) : Dev :=
  ((d.put (R.CMDQ_STAT_HEAD q) 0).put (R.CPLQ_STAT_TAIL q) 0).put (R.CPLQ_STAT_P q) 1

/-- The host interface with nothing fetched, running or pending, and only the sticky dwords of configuration space left. -/
def HifSt.stopped (h : HifSt) : HifSt :=
  { h with
    cfg := h.cfg.filter (fun e => 64 ≤ e.1), msixEn := false, fmask := false, tbl := [], pba := 0, snapPend := false,
    tailDb := [], fetchIx := [], fetched := [], cplHead := [], cplUsed := [], owed := [], kept := [], vecHeld := 0, running := [],
    segs := h.segs.map (fun e => (e.1, e.2.map (fun r => { r with pIdx := 0, cIdx := 0, ents := [] }))) }

/-- The device before a link reset raises event 114. -/
def Dev.linkCleared (d : Dev) : Dev := (upTo 16 Dev.queueZeroed (upTo 512 Dev.pageFreed d)).updHif HifSt.stopped

theorem Dev.linkReset_eq (d : Dev) : d.linkReset = d.linkCleared.raise 114 := rfl

/-- The registers of the page flags. -/
def pageRegs : List Nat := (List.range 32).map (fun k => (R.PFLAG k).addr)

/-- The status registers of the queues. CMDQ[16] would lie where CPLQ[0] does, so the bound on the index counts. -/
def queueRegs : List Nat := (List.range 16).flatMap (fun q => [(R.CMDQ_STAT q).addr, (R.CPLQ_STAT q).addr])

theorem mem_pageRegs {a : Nat} : a ∈ pageRegs ↔ ∃ k < 32, a = 0xE2C00 + k * 2 := by
  simp [pageRegs, R.PFLAG, eq_comm]

theorem mem_queueRegs {a : Nat} : a ∈ queueRegs ↔ ∃ q < 16, a = 0x1020086 + q * 8 ∨ a = 0x1020106 + q * 8 := by
  simp [queueRegs, R.CMDQ_STAT, R.CPLQ_STAT]

theorem Dev.pageFreed_frame {p : Nat} (hp : p < 512) (d : Dev) : Dev.Frame pageRegs d (d.pageFreed p) := by
  unfold Dev.pageFreed
  split
  · exact .put (mem_pageRegs.mpr ⟨p / 16, by omega, rfl⟩) 0
  · exact .refl

theorem Dev.queueZeroed_frame (q : Nat) (d : Dev) :
    Dev.Frame [(R.CMDQ_STAT q).addr, (R.CPLQ_STAT q).addr] d (d.queueZeroed q) :=
  ((Dev.Frame.put (f := R.CMDQ_STAT_HEAD q) (by simp [R.CMDQ_STAT_HEAD, R.CMDQ_STAT]) 0).trans
    (.put (f := R.CPLQ_STAT_TAIL q) (by simp [R.CPLQ_STAT_TAIL, R.CPLQ_STAT]) 0)).trans
    (.put (f := R.CPLQ_STAT_P q) (by simp [R.CPLQ_STAT_P, R.CPLQ_STAT]) 1)

theorem Dev.pagesFreed_frame (d : Dev) : Dev.Frame pageRegs d (upTo 512 Dev.pageFreed d) :=
  .upTo (fun _ hp => Dev.pageFreed_frame hp) d

theorem Dev.queuesZeroed_frame (d : Dev) : Dev.Frame queueRegs d (upTo 16 Dev.queueZeroed d) :=
  .upTo (fun q hq d => (d.queueZeroed_frame q).mono (by
    intro a ha
    simp only [List.mem_cons, List.not_mem_nil, or_false] at ha
    exact mem_queueRegs.mpr ⟨q, hq, ha⟩)) d

theorem Dev.linkCleared_frame (d : Dev) : Dev.Frame (pageRegs ++ queueRegs) d d.linkCleared :=
  ((d.pagesFreed_frame.mono (List.subset_append_left _ _)).trans
    ((Dev.queuesZeroed_frame _).mono (List.subset_append_right _ _))).trans (.updHif _)

/-! ### Pages -/

theorem pageFlagFld_ok (p : Nat) : (pageFlagFld p).ok := by simp only [Fld.ok, pageFlagFld]; omega

theorem Dev.pageFreed_same (p : Nat) (d : Dev) :
    (d.pageFreed p).get (pageFlagFld p) = if d.get (pageFlagFld p) = 2 then 2 else 0 := by
  have hlt : d.get (pageFlagFld p) < 4 := by
    have h := (pageFlagFld p).of_lt (d.rd (pageFlagFld p).addr)
    have hw : (pageFlagFld p).width = 2 := by simp only [Fld.width, pageFlagFld]; omega
    rwa [hw] at h
  unfold Dev.pageFreed
  split
  next h =>
    simp only [Bool.or_eq_true, beq_iff_eq] at h
    rw [Dev.get_put_same _ _ (pageFlagFld_ok p), Nat.zero_mod, if_neg (by omega)]
  next h =>
    simp only [Bool.or_eq_true, beq_iff_eq] at h
    split <;> omega

theorem Dev.pageFreed_other {p j : Nat} (h : j ≠ p) (d : Dev) :
    (d.pageFreed j).get (pageFlagFld p) = d.get (pageFlagFld p) := by
  unfold Dev.pageFreed
  split
  · refine Dev.get_put_other _ _ _ (pageFlagFld_ok j) (pageFlagFld_ok p).1 ?_ 0
    simp only [pageFlagFld, R.PFLAG]
    omega
  · rfl

/-- Pages of the host and locked ones are free, pages of the device stay its own. -/
theorem Dev.pagesFreed_get {p : Nat} (hp : p < 512) (d : Dev) :
    (upTo 512 Dev.pageFreed d).get (pageFlagFld p) = if d.get (pageFlagFld p) = 2 then 2 else 0 :=
  upTo_at (g := fun d => d.get (pageFlagFld p)) (φ := fun n => if n = 2 then 2 else 0) hp (Dev.pageFreed_same p)
    (fun _ _ hj => Dev.pageFreed_other hj) d

/-! ### Queues -/

/-- A field of another register reads as before. -/
theorem Dev.get_put_reg (d : Dev) {f g : Fld} (h : g.addr ≠ f.addr) (n : Nat) : (d.put f n).get g = d.get g := by
  rw [Dev.get, Dev.rd_put_other _ _ h, ← Dev.get]

/-- What a link reset leaves of the indices and enables of queue pair `q`, from the device `d`. -/
structure Dev.QueueZeroed (q : Nat) (d u : Dev) : Prop where
  head : u.get (R.CMDQ_STAT_HEAD q) = 0
  tail : u.get (R.CPLQ_STAT_TAIL q) = 0
  phase : u.get (R.CPLQ_STAT_P q) = 1
  cmdEn : u.get (R.CMDQ_STAT_EN q) = d.get (R.CMDQ_STAT_EN q)
  cplEn : u.get (R.CPLQ_STAT_EN q) = d.get (R.CPLQ_STAT_EN q)

theorem Dev.queueZeroed_same (q : Nat) (d : Dev) : Dev.QueueZeroed q d (d.queueZeroed q) := by
  have hreg : (R.CMDQ_STAT q).addr ≠ (R.CPLQ_STAT q).addr := by simp only [R.CMDQ_STAT, R.CPLQ_STAT]; omega
  have hhead : (R.CMDQ_STAT_HEAD q).ok := ⟨by simp [R.CMDQ_STAT_HEAD], by simp [R.CMDQ_STAT_HEAD]⟩
  have htail : (R.CPLQ_STAT_TAIL q).ok := ⟨by simp [R.CPLQ_STAT_TAIL], by simp [R.CPLQ_STAT_TAIL]⟩
  have hphase : (R.CPLQ_STAT_P q).ok := ⟨by simp [R.CPLQ_STAT_P], by simp [R.CPLQ_STAT_P]⟩
  have hcmd {f : Fld} (hf : f.addr = (R.CMDQ_STAT q).addr) (n m : Nat) (e : Dev) :
      ((e.put (R.CPLQ_STAT_TAIL q) n).put (R.CPLQ_STAT_P q) m).get f = e.get f := by
    rw [← hf] at hreg
    rw [Dev.get_put_reg (f := R.CPLQ_STAT_P q) _ hreg, Dev.get_put_reg (f := R.CPLQ_STAT_TAIL q) _ hreg]
  constructor
  · rw [Dev.queueZeroed, hcmd (f := R.CMDQ_STAT_HEAD q) rfl, Dev.get_put_same _ _ hhead, Nat.zero_mod]
  · rw [Dev.queueZeroed, Dev.get_put_other _ _ _ hphase htail.1 (.inr (.inl (by simp [R.CPLQ_STAT_TAIL, R.CPLQ_STAT_P]))),
      Dev.get_put_same _ _ htail, Nat.zero_mod]
  · rw [Dev.queueZeroed, Dev.get_put_same _ _ hphase]
    simp [Fld.width, R.CPLQ_STAT_P]
  · rw [Dev.queueZeroed, hcmd (f := R.CMDQ_STAT_EN q) rfl,
      Dev.get_put_other _ _ _ hhead (by simp [R.CMDQ_STAT_EN]) (.inr (.inr (by simp [R.CMDQ_STAT_EN, R.CMDQ_STAT_HEAD])))]
  · rw [Dev.queueZeroed,
      Dev.get_put_other _ _ _ hphase (by simp [R.CPLQ_STAT_EN]) (.inr (.inr (by simp [R.CPLQ_STAT_EN, R.CPLQ_STAT_P]))),
      Dev.get_put_other _ _ _ htail (by simp [R.CPLQ_STAT_EN]) (.inr (.inr (by simp [R.CPLQ_STAT_EN, R.CPLQ_STAT_TAIL]))),
      Dev.get_put_reg (f := R.CMDQ_STAT_HEAD q) (g := R.CPLQ_STAT_EN q) _ hreg.symm]

/-- Another queue pair leaves the fields of these two registers as they are. -/
theorem Dev.queueZeroed_other {q j : Nat} (hq : q < 16) (hj : j < 16) (h : j ≠ q) {f : Fld}
    (hf : f.addr = (R.CMDQ_STAT q).addr ∨ f.addr = (R.CPLQ_STAT q).addr) (d : Dev) : (d.queueZeroed j).get f = d.get f := by
  refine (d.queueZeroed_frame j).get ?_
  simp only [R.CMDQ_STAT, R.CPLQ_STAT, List.mem_cons, List.not_mem_nil, or_false] at hf ⊢
  omega

/-- What a queue pair's own step makes of a field of these two registers, the loop over all pairs makes of it. -/
theorem Dev.queuesZeroed_get {q : Nat} (hq : q < 16) {f : Fld}
    (hf : f.addr = (R.CMDQ_STAT q).addr ∨ f.addr = (R.CPLQ_STAT q).addr) {φ : Nat → Nat}
    (hsame : ∀ d : Dev, (d.queueZeroed q).get f = φ (d.get f)) (d : Dev) :
    (upTo 16 Dev.queueZeroed d).get f = φ (d.get f) :=
  upTo_at (g := fun d => d.get f) hq hsame (fun _ hj hne => Dev.queueZeroed_other hq hj hne hf) d

theorem Dev.queuesZeroed {q : Nat} (hq : q < 16) (d : Dev) : Dev.QueueZeroed q d (upTo 16 Dev.queueZeroed d) where
  head := Dev.queuesZeroed_get (f := R.CMDQ_STAT_HEAD q) hq (.inl rfl) (φ := fun _ => 0) (fun d => (d.queueZeroed_same q).head) d
  tail := Dev.queuesZeroed_get (f := R.CPLQ_STAT_TAIL q) hq (.inr rfl) (φ := fun _ => 0) (fun d => (d.queueZeroed_same q).tail) d
  phase := Dev.queuesZeroed_get (f := R.CPLQ_STAT_P q) hq (.inr rfl) (φ := fun _ => 1) (fun d => (d.queueZeroed_same q).phase) d
  cmdEn := Dev.queuesZeroed_get (f := R.CMDQ_STAT_EN q) hq (.inl rfl) (φ := id) (fun d => (d.queueZeroed_same q).cmdEn) d
  cplEn := Dev.queuesZeroed_get (f := R.CPLQ_STAT_EN q) hq (.inr rfl) (φ := id) (fun d => (d.queueZeroed_same q).cplEn) d

/-! ### The whole reset -/

theorem eventRegs_114 : eventRegs 114 = [0xE0416, 0xE07E4, 0xE041E, 0xE1C0A, 0xE1C04] := by decide

theorem Dev.linkCleared_get (d : Dev) (f : Fld) :
    d.linkCleared.get f = (upTo 16 Dev.queueZeroed (upTo 512 Dev.pageFreed d)).get f := Dev.updHif_get _ _ _

theorem Dev.linkCleared_page {p : Nat} (hp : p < 512) (d : Dev) :
    d.linkCleared.get (pageFlagFld p) = if d.get (pageFlagFld p) = 2 then 2 else 0 := by
  have hout : (pageFlagFld p).addr ∉ queueRegs := by
    simp only [mem_queueRegs, pageFlagFld, R.PFLAG, not_exists, not_and]
    omega
  rw [Dev.linkCleared_get, (Dev.queuesZeroed_frame _).get hout, Dev.pagesFreed_get hp]

theorem Dev.linkCleared_queue {q : Nat} (hq : q < 16) (d : Dev) : Dev.QueueZeroed q d d.linkCleared := by
  have h := Dev.queuesZeroed hq (upTo 512 Dev.pageFreed d)
  have hpages {f : Fld} (hf : f.addr = (R.CMDQ_STAT q).addr ∨ f.addr = (R.CPLQ_STAT q).addr) :
      (upTo 512 Dev.pageFreed d).get f = d.get f := by
    refine d.pagesFreed_frame.get ?_
    simp only [R.CMDQ_STAT, R.CPLQ_STAT] at hf
    simp only [mem_pageRegs, not_exists, not_and]
    omega
  constructor
  · rw [Dev.linkCleared_get, h.head]
  · rw [Dev.linkCleared_get, h.tail]
  · rw [Dev.linkCleared_get, h.phase]
  · rw [Dev.linkCleared_get, h.cmdEn, hpages (f := R.CMDQ_STAT_EN q) (.inl rfl)]
  · rw [Dev.linkCleared_get, h.cplEn, hpages (f := R.CPLQ_STAT_EN q) (.inr rfl)]

theorem Dev.linkCleared_hif (d : Dev) : d.linkCleared.hif = d.hif.stopped := by
  have hq : (upTo 16 Dev.queueZeroed (upTo 512 Dev.pageFreed d)).hif = (upTo 512 Dev.pageFreed d).hif :=
    upTo_keeps (g := Dev.hif) (fun q _ e => by rw [Dev.queueZeroed, Dev.put_hif, Dev.put_hif, Dev.put_hif]) _
  have hp : (upTo 512 Dev.pageFreed d).hif = d.hif :=
    upTo_keeps (g := Dev.hif) (fun p _ e => by
      unfold Dev.pageFreed
      split
      · rw [Dev.put_hif]
      · rfl) d
  rw [Dev.linkCleared, Dev.updHif_hif, hq, hp]

/-- After a link reset the host interface is stopped, but for pending bits that event 114 may have set. -/
theorem Dev.linkReset_hif (d : Dev) : d.linkReset.hif.unpended = d.hif.stopped := by
  rw [Dev.linkReset_eq, Dev.raise_unpended, Dev.linkCleared_hif]
  rfl

/-- What stands where the interface is stopped but for its pending bits. -/
theorem HifSt.of_stopped {x h : HifSt} (e : x.unpended = h.stopped) :
    x.running = [] ∧ x.msixEn = false ∧ x.fetched = [] ∧ x.tailDb = [] ∧ x.link = h.link :=
  ⟨congrArg HifSt.running e, congrArg HifSt.msixEn e, congrArg HifSt.fetched e, congrArg HifSt.tailDb e,
    (congrArg HifSt.link e : x.unpended.link = h.stopped.link)⟩

theorem Dev.linkReset_wasReset {d : Dev} (h : d.sys.held = false) : d.linkWasReset d.linkReset := by
  have hf := d.linkCleared_frame
  have hh : d.linkCleared.sys.held = false := by rw [hf.sys, h]
  have he := Dev.raise_frame 114 hh
  obtain ⟨hrunning, hmsix, hfetched, htailDb, -⟩ := HifSt.of_stopped d.linkReset_hif
  have hraised := Dev.raise_raised (s := 114) (by decide) hh
  rw [← Dev.linkReset_eq] at he hraised
  have hkeep {f : Fld} (ha : 0xE2C00 ≤ f.addr) : d.linkReset.get f = d.linkCleared.get f := by
    refine he.get ?_
    simp only [eventRegs_114, List.mem_cons, List.not_mem_nil, or_false]
    omega
  refine ⟨fun p => ?_, fun q => ?_, hrunning, hmsix, hraised, he.mem.trans hf.mem,
    he.sets0.trans hf.sets0⟩
  · rw [hkeep (by simp [pageFlagFld, R.PFLAG]), Dev.linkCleared_page p.isLt]
  · obtain ⟨hhead, htail, hphase, hcmd, hcpl⟩ := Dev.linkCleared_queue q.isLt d
    have hcfg : (R.CMDQ_CFG q.val).addr ∉ pageRegs ++ queueRegs := by
      simp only [List.mem_append, mem_pageRegs, mem_queueRegs, R.CMDQ_CFG, not_or, not_exists, not_and]
      exact ⟨fun k hk => by omega, fun r hr => by omega⟩
    have hcfgEvent : (R.CMDQ_CFG q.val).addr ∉ eventRegs 114 := by
      simp only [eventRegs_114, R.CMDQ_CFG, List.mem_cons, List.not_mem_nil, or_false]
      omega
    refine ⟨?_, ?_, ?_, ?_, ?_, (he.rd _ hcfgEvent).trans (hf.rd _ hcfg), ?_, ?_⟩
    · rw [hkeep (by simp only [R.CMDQ_STAT_HEAD]; omega), hhead]
    · rw [hkeep (by simp only [R.CPLQ_STAT_TAIL]; omega), htail]
    · rw [hkeep (by simp only [R.CPLQ_STAT_P]; omega), hphase]
    · rw [hkeep (by simp only [R.CMDQ_STAT_EN]; omega), hcmd]
    · rw [hkeep (by simp only [R.CPLQ_STAT_EN]; omega), hcpl]
    · rw [Dev.fetchedOf, hfetched]
      rfl
    · rw [htailDb]
      rfl

theorem Dev.linkReset_link (d : Dev) : d.linkReset.hif.link = d.hif.link := by
  obtain ⟨-, -, -, -, hlink⟩ := HifSt.of_stopped d.linkReset_hif
  exact hlink

/-! ### The link goes down and comes up -/

theorem Dev.hostLinkLost_up {d : Dev} (h : d.hif.link = true) :
    d.hostLinkLost = (d.updHif (fun h => { h with link := false })).linkReset := by
  rw [Dev.hostLinkLost, if_pos h]

theorem Dev.hostLinkLost_down {d : Dev} (h : d.hif.link = false) : d.hostLinkLost = d := by
  rw [Dev.hostLinkLost, if_neg (by simp [h])]

theorem Dev.hostLinkTrained_down {d : Dev} (hp : d.hif.perst = true) (h : d.hif.link = false) :
    d.hostLinkTrained = (d.updHif (fun h => { h with link := true })).raise 114 := by
  rw [Dev.hostLinkTrained, if_pos (by simp [hp, h])]

theorem Dev.hostLinkTrained_idle {d : Dev} (h : d.hif.perst = false ∨ d.hif.link = true) : d.hostLinkTrained = d := by
  rw [Dev.hostLinkTrained, if_neg (by rcases h with h | h <;> simp [h])]

theorem Dev.raise_link (s : Nat) (d : Dev) : (d.raise s).hif.link = d.hif.link :=
  (congrArg HifSt.link (d.raise_unpended s) : (d.raise s).hif.unpended.link = d.hif.unpended.link)

theorem Dev.configRequest_otherFunction {fn : Fin 8} (h : fn ≠ 0) (d : Dev) (wr : Bool) (dw : Nat) (be : BitVec 4) (v : BitVec 32) :
    d.configRequest fn.val wr dw be v = (d.aer 20).emit (.cfg false 0) := by
  have hne : (fn.val != 0) = true := bne_iff_ne.mpr (fun e => h (Fin.ext e))
  rw [Dev.configRequest, if_pos hne]

/-- A configuration write of dword 15 is answered, and writes its one writable byte. -/
theorem Dev.configRequest_interruptLine (d : Dev) (be : BitVec 4) (v : BitVec 32) :
    (d.configRequest 0 true 15 be v).out = .cfg true 0 :: d.out ∧ (d.configRequest 0 true 15 be v).regs = d.regs
      ∧ (d.configRequest 0 true 15 be v).cfgRd 15 = laid (if be.getLsbD 0 then 0xFF else 0) (d.cfgRd 15) v := by
  have hw : d.configRequest 0 true 15 be v
      = (d.emit (.cfg true 0)).setCfg 15 (laid (if be.getLsbD 0 then 0xFF else 0) ((d.emit (.cfg true 0)).cfgRd 15) v) := by
    rw [Dev.configRequest, if_neg (by decide), if_pos rfl, Dev.cfgWrite_15]
  rw [hw]
  exact ⟨rfl, rfl, Dev.cfgRd_setCfg_same _ _ _⟩

section
variable {s : State} {a : BitVec 20}

section
variable (hh : s.dev.sys.held = false) (h3 : s.dev.d3hot = false)
include hh h3

/-- A read TLP that the function takes ends as the function answers it. -/
theorem hostBarRead_ends {x : HostRd} {d : Dev} (he : s.dev.hostReadTlp x = d) : s.ends (.hostBarRead x) d :=
  State.ends_onDev (exec_hostBarRead x s) hh ((Dev.hostBarRead_awake h3 x).trans he)

theorem hostBarRead_granted (hd : s.dev.flag R.BOOT_STAT_DEAD = false) (hm : s.dev.hostMay 2 false = true) :
    s.ends (.hostBarRead (.dword 0x1008)) (s.dev.emit (.bar [s.dev.rd R.SCAN_GAP.addr] false)) :=
  hostBarRead_ends hh h3 (by rw [Dev.hostReadTlp_scanGap, Dev.hostRegRead_scanGap hd hm])

theorem hostBarRead_denied (hd : s.dev.flag R.BOOT_STAT_DEAD = false) (hm : s.dev.hostMay 2 false = false) :
    s.ends (.hostBarRead (.dword 0x1008)) ((s.dev.hostError 4 0x1008).emit (.bar [0] false)) := by
  have hdenied : s.dev.hostRegRead R.SCAN_GAP.addr = (0, false, s.dev.hostError 4 0x1008) :=
    Dev.hostRegRead_denied hd (by decide) hm
  exact hostBarRead_ends hh h3 (by rw [Dev.hostReadTlp_scanGap, hdenied])

theorem hostBarRead_dead (hd : s.dev.flag R.BOOT_STAT_DEAD = true) :
    s.ends (.hostBarRead (.dword 0x1008)) (s.dev.emit (.bar [0] false)) :=
  hostBarRead_ends hh h3 (by rw [Dev.hostReadTlp_scanGap, Dev.hostRegRead_dead hd (by decide)])

theorem hostBarRead_window (hecc : s.dev.ecc = []) (hd : s.dev.flag R.BOOT_STAT_DEAD = false) (hm : s.dev.hostMay 3 false = true) :
    s.ends (.hostBarRead (.bar2 (BitVec.ofNat 21 (2 * a.toNat)) 4))
      (s.dev.emit (.barWin [s.dev.mw .win a.toNat, s.dev.mw .win (a.toNat + 1)] false)) := by
  have hoff : (BitVec.ofNat 21 (2 * a.toNat)).toNat = 2 * a.toNat := by
    rw [BitVec.toNat_ofNat]
    omega
  exact hostBarRead_ends hh h3 (by rw [Dev.hostReadTlp, hoff, Dev.bar2Read_pair hecc hd hm])

section
variable (hd : s.dev.flag R.BOOT_STAT_DEAD = false) (hm : s.dev.hostMay 3 true = true) (ha : a.toNat % 2048 ≠ 2047)
  (k v m w : BitVec 16)
include hd hm ha

/-- A write to an open page lays its words over the window, and changes no register. -/
theorem hostBar2Write_open (hecc : s.dev.ecc = []) (hs : ¬ s.dev.pageShut a.toNat) :
    s.endsIn (.hostBar2Write a [(k, v), (m, w)]) (fun u => u.regs = s.dev.regs
      ∧ u.mw .win a.toNat = (s.dev.mw .win a.toNat &&& ~~~k) ||| (v &&& k)
      ∧ u.mw .win (a.toNat + 1) = (s.dev.mw .win (a.toNat + 1) &&& ~~~m) ||| (w &&& m)
      ∧ ∀ x : Fin 1048576, x.val ≠ a.toNat → x.val ≠ a.toNat + 1 → u.mw .win x.val = s.dev.mw .win x.val) := by
  refine State.endsIn_onDev (exec_hostBar2Write a _ s) hh ?_
  rw [Dev.bar2Write_open h3 hd hm a.isLt ha hs hecc]
  refine ⟨by rw [Dev.setMasked_regs, Dev.setMasked_regs], ?_, ?_, fun x hx hx' => ?_⟩
  · rw [Dev.mw_setMasked_other _ (by omega), Dev.mw_setMasked_same]
  · rw [Dev.mw_setMasked_same, Dev.mw_setMasked_other _ (by omega)]
  · rw [Dev.mw_setMasked_other _ hx', Dev.mw_setMasked_other _ hx]

/-- A write to a shut page changes no memory; it is counted, raises event 112, and is logged where the log is empty. -/
theorem hostBar2Write_shut (hs : s.dev.pageShut a.toNat) :
    s.endsIn (.hostBar2Write a [(k, v), (m, w)]) (fun u => u.mem = s.dev.mem ∧ u.raised 112
      ∧ u.get R.WIN_STAT_DISC_CNT = min 65535 (s.dev.get R.WIN_STAT_DISC_CNT + 1)
      ∧ (s.dev.flag R.AE_STATUS_VALID = false → u.get R.AE_STATUS_KIND = 5)) := by
  have hcounted : (s.dev.satAdd R.WIN_STAT_DISC_CNT 1).sys.held = false := by rw [Dev.satAdd_sys, hh]
  refine State.endsIn_onDev (exec_hostBar2Write a _ s) hh ?_
  rw [Dev.bar2Write_shut h3 hd hm a.isLt ha hs]
  refine ⟨?_, Dev.hostError_raised hcounted _ _, Dev.discarded_count hh _ _, fun hv => ?_⟩
  · rw [(Dev.hostError_frame hcounted _ _).mem, Dev.satAdd_mem]
  · refine Dev.hostError_kind hcounted ?_ _ (by decide)
    rw [Dev.flag, Dev.satAdd, Dev.get_put_other _ _ _ ⟨by decide, by decide⟩ (by decide) (.inl (by decide)), ← Dev.flag, hv]

end

end

end

/-- Settles O46: the reads and writes through the BARs by the lemma on each way they end, configuration requests by the dword
they reach, and the link events by the one lemma on what a link reset leaves. -/
theorem hostTlpsAndLink : Obligations.HostTlpsAndLink := by
  unfold Obligations.HostTlpsAndLink
  intro s o a k m v fn dw be y b hecc
  dsimp only
  refine ⟨fun ⟨hh, h3⟩ => ?tlps, State.ends_onAny (exec_poisonedWrite s) (s.dev.aer_eq 12), fun hfn => ?otherFunction,
    State.ends_onAny (exec_pcieConfigRequest 0 false dw be y s) rfl,
    State.endsIn_onAny (exec_pcieConfigRequest 0 true 15 be y s) (s.dev.configRequest_interruptLine be y),
    fun hh => ?link, State.ends_onAny (exec_perstRelease s) rfl⟩
  case tlps =>
    have halive (h : ¬ s.dev.flag R.BOOT_STAT_DEAD = true) : s.dev.flag R.BOOT_STAT_DEAD = false := by simpa using h
    refine ⟨fun hd hm => ⟨hostBarRead_granted hh h3 (halive hd) hm, ?qword⟩, fun hd => hostBarRead_denied hh h3 (halive hd),
      hostBarRead_dead hh h3, fun ho => ?unaligned, ?outside, fun hd hm _ => hostBarRead_window hh h3 hecc (halive hd) hm,
      fun ha hd hm => ⟨hostBar2Write_open hh h3 (halive hd) hm ha k v m _ hecc,
        hostBar2Write_shut hh h3 (halive hd) hm ha k v m _⟩, fun hd hm => ?denied⟩
    case qword => exact hostBarRead_ends hh h3 (Dev.hostReadTlp_scanGap_scanCeil (halive hd) hm)
    case unaligned => exact hostBarRead_ends hh h3 (Dev.hostReadTlp_unaligned ho s.dev)
    case outside => exact hostBarRead_ends hh h3 (congrArg (Dev.emit · _) (s.dev.aer_eq 20))
    case denied => exact State.ends_onDev (exec_hostBar2Write a _ s) hh (Dev.bar2Write_denied h3 (halive hd) hm _ _)
  case otherFunction =>
    exact State.ends_onAny (exec_pcieConfigRequest fn b dw be y s)
      ((Dev.configRequest_otherFunction hfn _ _ _ _ _).trans (congrArg (Dev.emit · _) (s.dev.aer_eq 20)))
  case link =>
    refine ⟨fun hl => State.endsIn_onAny (exec_pcieLinkDown s) ?down,
      fun hl => State.ignores_onAny (exec_pcieLinkDown s) (Dev.hostLinkLost_down hl),
      State.endsIn_onAny (exec_functionLevelReset s) ⟨Dev.linkReset_wasReset hh, s.dev.linkReset_link⟩,
      State.endsIn_onAny (exec_hotReset s) ⟨Dev.linkReset_wasReset hh, s.dev.linkReset_link⟩,
      fun hp hl => State.endsIn_onAny (exec_pcieLinkUp s) ?up,
      fun hl => State.ignores_onAny (exec_pcieLinkUp s) (Dev.hostLinkTrained_idle hl)⟩
    case down =>
      rw [Dev.hostLinkLost_up hl]
      exact ⟨Dev.linkReset_wasReset (d := s.dev.updHif (fun h => { h with link := false })) hh, Dev.linkReset_link _⟩
    case up =>
      rw [Dev.hostLinkTrained_down hp hl]
      exact ⟨Dev.raise_link _ _, Dev.raise_raised (by decide) hh⟩

end Sys2Proof.Machine
end
